-- ==== Sys2Proof/Word.lean ====
section
/-! DEFINITION. The machine's words (R37, R39, R125) and their plainest arithmetic. -/

namespace Sys2Proof

/-- A 64-bit register or address value (R39, R208). -/
abbrev Word := BitVec 64

/-- A byte of memory. -/
abbrev Byte := BitVec 8

end Sys2Proof
end

