-- ==== Sys2Proof/Machine/Numbers.lean ====
section
/-! DEFINITION. Numbers: the formats of R104 and R105, exact values, rounding, flags, the helper functions of R118 and the
halving order of R119. Every result is computed exactly first and delivered once at the end. -/

namespace Sys2Proof.Machine

/-- A set of the flags of fs, at the places fs holds them (R69): ISAT bit 16, NV 4, DZ 3, OF 2, UF 1, NX 0. -/
abbrev FlagSet := BitVec 17

def flagNV : FlagSet := 0x10#17
def flagDZ : FlagSet := 0x08#17
def flagOF : FlagSet := 0x04#17
def flagUF : FlagSet := 0x02#17
def flagNX : FlagSet := 0x01#17
def flagISAT : FlagSet := 0x10000#17

/-- The flag set that holds f when c is true. -/
def flagIf (c : Bool) (f : FlagSet) : FlagSet := if c then f else 0#17

/-- The floating-point formats of R105. -/
inductive Fmt where
  | f64 | f32 | f16 | bf16 | f8a | f8b | f4
  deriving DecidableEq, Repr

/-- Bits of a format (R105). -/
def Fmt.width : Fmt → Nat
  | .f64 => 64 | .f32 => 32 | .f16 => 16 | .bf16 => 16 | .f8a => 8 | .f8b => 8 | .f4 => 4

/-- Fraction bits of a format (R105). -/
def Fmt.frac : Fmt → Nat
  | .f64 => 52 | .f32 => 23 | .f16 => 10 | .bf16 => 7 | .f8a => 3 | .f8b => 2 | .f4 => 1

/-- Exponent bits of a format (R105). -/
def Fmt.expBits : Fmt → Nat
  | .f64 => 11 | .f32 => 8 | .f16 => 5 | .bf16 => 8 | .f8a => 4 | .f8b => 5 | .f4 => 2

/-- Exponent bias (R105). -/
def Fmt.bias : Fmt → Nat
  | .f64 => 1023 | .f32 => 127 | .f16 => 15 | .bf16 => 127 | .f8a => 7 | .f8b => 15 | .f4 => 1

/-- Whether the format has infinities and signalling NaNs (R105, R106). -/
def Fmt.hasInf : Fmt → Bool
  | .f8a | .f4 => false
  | _ => true

/-- Magnitude bits of the largest finite value (R105). -/
def Fmt.maxBits : Fmt → Nat
  | .f64 => 0x7FEF_FFFF_FFFF_FFFF | .f32 => 0x7F7F_FFFF | .f16 => 0x7BFF | .bf16 => 0x7F7F
  | .f8a => 0x7E | .f8b => 0x7B | .f4 => 0x7

/-- Bits of an infinity's magnitude; for f8a the NaN pattern (R110, R112). -/
def Fmt.infBits : Fmt → Nat
  | .f64 => 0x7FF0_0000_0000_0000 | .f32 => 0x7F80_0000 | .f16 => 0x7C00 | .bf16 => 0x7F80
  | .f8a => 0x7F | .f8b => 0x7C | .f4 => 0x7

/-- Exponent of the least significant bit of a subnormal: 1 - bias - f. -/
def Fmt.minExp (f : Fmt) : Int := 1 - (f.bias : Int) - (f.frac : Int)

/-- The rounding environment that a vector type gives (R107, R109, R110). -/
structure RoundEnv where
  /-- 0 RNE, 1 RTZ, 2 RUP, 3 RDN, 4 RNA. -/
  rm : Nat
  /-- 0 none, 1 flush results, 2 flush inputs and results. -/
  fz : Nat
  /-- Saturation. -/
  sat : Bool
  deriving DecidableEq, Repr

/-- The environment of the tile copies of R283: RNE, no flush, no saturation. -/
def RoundEnv.plain : RoundEnv := { rm := 0, fz := 0, sat := false }

/-- An exact value. `num neg man exp sticky` is (man + r) × 2^exp with the sign `neg`, where r is 0 without `sticky` and
lies strictly between 0 and 1 with it; man = 0 without `sticky` is a signed zero. A NaN carries its fraction left-aligned in
52 bits, so that it is quiet when bit 51 is 1 (R106). -/
inductive Val where
  | num (neg : Bool) (man : Nat) (exp : Int) (sticky : Bool)
  | inf (neg : Bool)
  | nan (neg : Bool) (frac : Nat)
  deriving DecidableEq, Repr

def Val.zero (neg : Bool) : Val := .num neg 0 0 false

/-- An exact integer. -/
def Val.ofInt (x : Int) : Val := .num (decide (x < 0)) x.natAbs 0 false

/-- The default NaN (R111). -/
def Val.defaultNaN : Val := .nan false (2 ^ 51)

def Val.isNaN : Val → Bool
  | .nan _ _ => true
  | _ => false

def Val.isSNaN : Val → Bool
  | .nan _ f => decide (f < 2 ^ 51)
  | _ => false

def Val.isInf : Val → Bool
  | .inf _ => true
  | _ => false

def Val.isZero : Val → Bool
  | .num _ m _ s => m == 0 && !s
  | _ => false

def Val.isNeg : Val → Bool
  | .num n _ _ _ => n
  | .inf n => n
  | .nan n _ => n

def Val.neg : Val → Val
  | .num n m e s => .num (!n) m e s
  | .inf n => .inf (!n)
  | .nan n f => .nan (!n) f

/-- The NaN with its top fraction bit set (R111). -/
def Val.quieted : Val → Val
  | .nan n f => .nan n (if f < 2 ^ 51 then f + 2 ^ 51 else f)
  | v => v

/-- Value of a stored float (R106). -/
def decodeFloat (f : Fmt) (bits : Nat) : Val :=
  let sign := bits / 2 ^ (f.width - 1) % 2 == 1
  let ones := 2 ^ f.expBits - 1
  let e := bits / 2 ^ f.frac % 2 ^ f.expBits
  let fr := bits % 2 ^ f.frac
  if e == 0 then .num sign fr f.minExp false
  else if f.hasInf && e == ones then
    if fr == 0 then .inf sign else .nan sign (fr * 2 ^ (52 - f.frac))
  else if f == .f8a && e == ones && fr == 7 then .nan sign (7 * 2 ^ 49)
  else .num sign (fr + 2 ^ f.frac) ((e : Int) - 1 + f.minExp) false

/-- Whether a stored float is subnormal (R106). -/
def isSubnormal (f : Fmt) (bits : Nat) : Bool :=
  bits / 2 ^ f.frac % 2 ^ f.expBits == 0 && bits % 2 ^ f.frac != 0

/-- The value of a stored float as `extend` reads it (R109, R118). -/
def readFloat (env : RoundEnv) (f : Fmt) (bits : Nat) : Val :=
  if env.fz == 2 && isSubnormal f bits then .zero (decodeFloat f bits).isNeg else decodeFloat f bits

/-- Two's complement value of the low w bits (R104). -/
def signedOf (w bits : Nat) : Int :=
  let b := bits % 2 ^ w
  if b < 2 ^ (w - 1) then (b : Int) else (b : Int) - (2 : Int) ^ w

/-- The low w bits of an integer (R93). -/
def wrapTo (w : Nat) (x : Int) : Nat := (x % (2 : Int) ^ w).toNat

/-- The least and greatest value of an integer class at w bits (R104). -/
def intRange (cls w : Nat) : Int × Int :=
  if cls == 0 then (-(2 : Int) ^ (w - 1), (2 : Int) ^ (w - 1) - 1) else (0, (2 : Int) ^ w - 1)

/-- The format of a float class and a width in slices (R42, R105). -/
def fmtOf (cls w : Nat) : Fmt :=
  match cls with
  | 2 => if w == 16 then .f64 else if w == 8 then .f32 else .f16
  | 3 => .bf16
  | 4 => .f8a
  | 5 => .f8b
  | _ => .f4

/-- Whether a class is an integer class (R42). -/
def isIntClass (cls : Nat) : Bool := cls < 2

/-- `extend` of R118: the exact value of a stored operand of a class and a width in slices. -/
def extend (env : RoundEnv) (cls w bits : Nat) : Val :=
  if cls == 0 then .ofInt (signedOf (4 * w) bits)
  else if cls == 1 then .ofInt ((bits % 2 ^ (4 * w) : Nat) : Int)
  else readFloat env (fmtOf cls w) bits

/-- Whether the discarded part rounds the magnitude up (R107): `odd` is the last kept bit, `c` compares the discarded part
with one half, `some` says that it is not zero. -/
def roundsUp (rm : Nat) (neg odd : Bool) (c : Ordering) (some : Bool) : Bool :=
  match rm with
  | 0 => c == .gt || (c == .eq && odd)
  | 1 => false
  | 2 => !neg && some
  | 3 => neg && some
  | _ => c != .lt

/-- Rounding of (man + sticky) × 2^exp to a multiple of 2^q: the multiple, and whether it is inexact (R107). -/
def roundAt (rm : Nat) (neg : Bool) (man : Nat) (exp : Int) (sticky : Bool) (q : Int) : Nat × Bool :=
  if q ≤ exp then
    let m := man * 2 ^ (exp - q).toNat
    (if sticky && roundsUp rm neg (m % 2 == 1) .lt true then m + 1 else m, sticky)
  else
    let sh := (q - exp).toNat
    let m := man / 2 ^ sh
    let rem := man % 2 ^ sh
    let half := 2 ^ (sh - 1)
    let c := if rem < half then Ordering.lt else if rem == half && !sticky then .eq else .gt
    let inexact := rem != 0 || sticky
    (if roundsUp rm neg (m % 2 == 1) c inexact then m + 1 else m, inexact)

/-- A sign and magnitude bits in a format. -/
def signBits (f : Fmt) (neg : Bool) (mag : Nat) : Nat := if neg then mag + 2 ^ (f.width - 1) else mag

/-- Delivery of a NaN into a format (R111, R112). -/
def deliverNaN (f : Fmt) (neg : Bool) (frac : Nat) : Nat × FlagSet :=
  let nv := flagIf (decide (frac < 2 ^ 51)) flagNV
  match f with
  | .f4 => (0, flagNV)
  | .f8a => (signBits f neg 0x7F, nv)
  | _ =>
    let q := if frac < 2 ^ 51 then frac + 2 ^ 51 else frac
    (signBits f neg (f.infBits + q / 2 ^ (52 - f.frac)), nv)

/-- Delivery of an infinity into a format (R112). -/
def deliverInf (env : RoundEnv) (f : Fmt) (neg : Bool) : Nat × FlagSet :=
  match f with
  | .f4 => (signBits f neg f.maxBits, flagNV)
  | .f8a => (signBits f neg (if env.sat then f.maxBits else f.infBits), flagNV)
  | _ => (signBits f neg f.infBits, 0#17)

/-- The overflow table of R110. -/
def overflowBits (env : RoundEnv) (f : Fmt) (neg : Bool) : Nat :=
  let away := env.rm == 0 || env.rm == 4 || (env.rm == 2 && !neg) || (env.rm == 3 && neg)
  match f with
  | .f4 => signBits f neg f.maxBits
  | .f8a | .f8b => signBits f neg (if away && !env.sat then f.infBits else f.maxBits)
  | _ => signBits f neg (if away then f.infBits else f.maxBits)

/-- `round` of R118 for a value that is not zero, NaN or infinite. -/
def roundNum (env : RoundEnv) (f : Fmt) (neg : Bool) (man : Nat) (exp : Int) (sticky : Bool) : Nat × FlagSet :=
  let top : Int := (Nat.log2 man : Int) + exp
  let q := top - f.frac
  let (m0, inexact) := roundAt env.rm neg man exp sticky q
  let carry := m0 == 2 ^ (f.frac + 1)
  let m := if carry then 2 ^ f.frac else m0
  let q := if carry then q + 1 else q
  let qmax : Int := (f.maxBits / 2 ^ f.frac : Nat) - 1 + f.minExp
  let manMax := f.maxBits % 2 ^ f.frac + 2 ^ f.frac
  if q > qmax || (q == qmax && decide (manMax < m)) then
    (overflowBits env f neg, flagOF ||| flagNX)
  else if q < f.minExp then
    if env.fz != 0 then (signBits f neg 0, flagUF ||| flagNX)
    else
      let (z, inex) := roundAt env.rm neg man exp sticky f.minExp
      (signBits f neg z, flagIf inex (flagUF ||| flagNX))
  else
    (signBits f neg ((q - f.minExp).toNat * 2 ^ f.frac + m), flagIf inexact flagNX)

/-- `round` of R118: an exact value delivered once into a format. -/
def roundTo (env : RoundEnv) (f : Fmt) : Val → Nat × FlagSet
  | .nan n fr => deliverNaN f n fr
  | .inf n => deliverInf env f n
  | .num n m e s => if m == 0 && !s then (signBits f n 0, 0#17) else roundNum env f n m e s

/-- The exact integer a finite value without a fraction stands for. -/
def Val.toInt : Val → Int
  | .num n m e _ =>
    let a : Int := if 0 ≤ e then (m : Int) * (2 : Int) ^ e.toNat else ((m / 2 ^ (-e).toNat : Nat) : Int)
    if n then -a else a
  | _ => 0

/-- `sat` of R118. -/
def satTo (cls w : Nat) (x : Int) : Nat × FlagSet :=
  let (lo, hi) := intRange cls (4 * w)
  let y := min (max x lo) hi
  (wrapTo (4 * w) y, flagIf (decide (y ≠ x)) flagISAT)

/-- An exact integer reduced or clamped to an integer class (R93, R118). -/
def narrowInt (env : RoundEnv) (cls w : Nat) (x : Int) : Nat × FlagSet :=
  if env.sat then satTo cls w x else (wrapTo (4 * w) x, 0#17)

/-- `narrow` of R118. -/
def narrow (env : RoundEnv) (cls w : Nat) (v : Val) : Nat × FlagSet :=
  if isIntClass cls then narrowInt env cls w v.toInt else roundTo env (fmtOf cls w) v

/-- A finite value rounded to an integer under a rounding mode, and whether that was inexact (R133, R164). -/
def roundToInt (rm : Nat) : Val → Int × Bool
  | .num n m e s =>
    let (a, inexact) := roundAt rm n m e s 0
    (if n then -(a : Int) else (a : Int), inexact)
  | _ => (0, false)

/-- Conversion of a float value to an integer class of w bits, out-of-range values clamped with NV (R133, R164). -/
def floatToInt (rm cls w : Nat) (v : Val) : Nat × FlagSet :=
  let (lo, hi) := intRange cls w
  match v with
  | .nan _ _ => (0, flagNV)
  | .inf n => (wrapTo w (if n then lo else hi), flagNV)
  | .num _ _ _ _ =>
    let (x, inexact) := roundToInt rm v
    if x < lo then (wrapTo w lo, flagNV) else if hi < x then (wrapTo w hi, flagNV)
    else (wrapTo w x, flagIf inexact flagNX)

/-- The NaN that an operation delivers: the first among its operands, quieted (R111). -/
def firstNaN : List Val → Option Val
  | [] => none
  | v :: vs => if v.isNaN then some v.quieted else firstNaN vs

/-- NV for a signalling NaN among the operands (R111). -/
def signalNV (vs : List Val) : FlagSet := flagIf (vs.any Val.isSNaN) flagNV

/-- Exact product of values that are no NaN; 0 × ∞ is the default NaN with NV (R114). -/
def exactMul (a b : Val) : Val × FlagSet :=
  match a, b with
  | .num n m e _, .num n' m' e' _ => (.num (n != n') (m * m') (e + e') false, 0#17)
  | .nan _ _, _ => (a, 0#17)
  | _, .nan _ _ => (b, 0#17)
  | _, _ => if a.isZero || b.isZero then (.defaultNaN, flagNV) else (.inf (a.isNeg != b.isNeg), 0#17)

/-- The least exponent of the finite terms. -/
def leastExp : List Val → Int → Int
  | [], e => e
  | .num _ _ e' _ :: vs, e => leastExp vs (min e e')
  | _ :: vs, e => leastExp vs e

/-- The sum of the finite terms in units of 2^e. -/
def alignedSum (e : Int) : List Val → Int
  | [] => 0
  | .num n m e' _ :: vs =>
    let x := (m : Int) * (2 : Int) ^ (e' - e).toNat
    (if n then -x else x) + alignedSum e vs
  | _ :: vs => alignedSum e vs

/-- `exact_sum` of R118. -/
def exactSum (env : RoundEnv) (vs : List Val) : Val × FlagSet :=
  match firstNaN vs with
  | some v => (v, signalNV vs)
  | none =>
    let pos := vs.any fun v => v.isInf && !v.isNeg
    let neg := vs.any fun v => v.isInf && v.isNeg
    if pos && neg then (.defaultNaN, flagNV)
    else if pos then (.inf false, 0#17)
    else if neg then (.inf true, 0#17)
    else if vs.all Val.isZero then
      let allNeg := vs.all Val.isNeg
      let anyNeg := vs.any Val.isNeg
      (.zero (allNeg || (anyNeg && env.rm == 3)), 0#17)
    else
      let e := leastExp vs 0
      let x := alignedSum e vs
      if x == 0 then (.zero (env.rm == 3), 0#17) else (.num (decide (x < 0)) x.natAbs e false, 0#17)

/-- Exact a + b with the NaN order a, b. -/
def addVal (env : RoundEnv) (a b : Val) : Val × FlagSet := exactSum env [a, b]

/-- Exact a - b; a NaN operand b is delivered with its own sign. -/
def subVal (env : RoundEnv) (a b : Val) : Val × FlagSet :=
  exactSum env [a, if b.isNaN then b else b.neg]

/-- Exact a × b with the NaN rules of R111 and R114. -/
def mulVal (a b : Val) : Val × FlagSet :=
  match firstNaN [a, b] with
  | some v => (v, signalNV [a, b])
  | none => exactMul a b

/-- ±(a × b) ± d with one exact sum (R114, R156); NaN order a, b, d. An invalid product delivers the default NaN whatever
d is. -/
def fmaVal (env : RoundEnv) (negProd negAdd : Bool) (a b d : Val) : Val × FlagSet :=
  match firstNaN [a, b] with
  | some v => (v, signalNV [a, b, d])
  | none =>
    let (p, fl) := exactMul a b
    if p.isNaN then (p, fl)
    else if d.isNaN then exactSum env [d]
    else exactSum env [if negProd then p.neg else p, if negAdd then d.neg else d]

/-- Quotient with more than 130 bits and a sticky bit (R114). -/
def divVal (a b : Val) : Val × FlagSet :=
  match firstNaN [a, b] with
  | some v => (v, signalNV [a, b])
  | none =>
    let n := a.isNeg != b.isNeg
    match a, b with
    | .inf _, .inf _ => (.defaultNaN, flagNV)
    | .inf _, _ => (.inf n, 0#17)
    | _, .inf _ => (.zero n, 0#17)
    | .num _ m e _, .num _ m' e' _ =>
      if m' == 0 then
        if m == 0 then (.defaultNaN, flagNV) else (.inf n, flagDZ)
      else if m == 0 then (.zero n, 0#17)
      else
        let k := 130 + Nat.log2 m' - Nat.log2 m
        let q := m * 2 ^ k / m'
        (.num n q (e - e' - k) (m * 2 ^ k % m' != 0), 0#17)
    | _, _ => (.defaultNaN, 0#17)

/-- Integer square root, one bit of the root at a time. -/
def isqrtBits (x : Nat) : Nat → Nat → Nat
  | 0, r => r
  | i + 1, r =>
    let r' := r + 2 ^ i
    isqrtBits x i (if r' * r' ≤ x then r' else r)

/-- The largest r with r × r ≤ x. -/
def isqrt (x : Nat) : Nat := isqrtBits x (Nat.log2 x / 2 + 1) 0

/-- Square root with more than 130 bits and a sticky bit (R114). -/
def sqrtVal (a : Val) : Val × FlagSet :=
  match a with
  | .nan _ _ => (a.quieted, signalNV [a])
  | .inf n => if n then (.defaultNaN, flagNV) else (a, 0#17)
  | .num n m e _ =>
    if m == 0 then (a, 0#17)
    else if n then (.defaultNaN, flagNV)
    else
      let k := 300 + (e % 2).toNat
      let x := m * 2 ^ k
      let r := isqrt x
      (.num false r ((e - k) / 2) (r * r != x), 0#17)

/-- Order of two values that are no NaN; -0 < +0 only when `zeros` is true (R113). -/
def cmpVal (zeros : Bool) (a b : Val) : Ordering :=
  match a, b with
  | .inf n, .inf n' => compare (if n then 0 else 1) (if n' then 0 else 1)
  | .inf n, _ => if n then .lt else .gt
  | _, .inf n => if n then .gt else .lt
  | .num n m e _, .num n' m' e' _ =>
    if m == 0 && m' == 0 then
      if zeros then compare (if n then 0 else 1) (if n' then 0 else 1) else .eq
    else
      let k := min e e'
      compare (alignedSum k [a]) (alignedSum k [b])
  | _, _ => .eq

/-- minimumNumber or maximumNumber of R113. -/
def minMaxVal (isMax : Bool) (a b : Val) : Val × FlagSet :=
  let nv := signalNV [a, b]
  match a.isNaN, b.isNaN with
  | true, true => (a.quieted, nv)
  | true, false => (b, nv)
  | false, true => (a, nv)
  | false, false =>
    let c := cmpVal true a b
    (if (if isMax then c == .lt else c == .gt) then b else a, 0#17)

/-- How two values compare (R132, R159). -/
inductive Rel where
  | eq | ne | lt | le | gt | ge | un
  deriving DecidableEq, Repr

/-- A comparison and its NV flag: with a NaN only `ne` and `un` hold; an order comparison of any NaN and an equality
comparison of a signalling NaN raise NV (R116, R132, R159). -/
def relVal (r : Rel) (a b : Val) : Bool × FlagSet :=
  let nan := a.isNaN || b.isNaN
  let quietRel := r == .eq || r == .ne || r == .un
  let nv := flagIf (if quietRel then a.isSNaN || b.isSNaN else nan) flagNV
  if nan then (r == .ne || r == .un, nv)
  else
    let c := cmpVal false a b
    (match r with
      | .eq => c == .eq
      | .ne => c != .eq
      | .lt => c == .lt
      | .le => c != .gt
      | .gt => c == .gt
      | .ge => c != .lt
      | .un => false, nv)

/-! ## Functions delivered by correct rounding (R115)

Values are fixed point with 400 fraction bits; a sticky bit stands for the digits beyond (log 16). -/

/-- Fraction bits of the fixed-point values. -/
def fixBits : Nat := 400

/-- The natural logarithm of 2 in fixed point. -/
def ln2Fix : Nat :=
  0xb17217f7d1cf79abc9e3b39803f2f6af40f343267298b62d8a0d175b8baafa2be7b876206debac98559552fb4afa1b10ed2e

/-- The base-2 logarithm of e in fixed point. -/
def log2eFix : Nat :=
  0x171547652b82fe1777d0ffda0d23a7d11d6aef551bad2b4b1164a2cd9a342648fbc3887eeaa2ed9ac49b25eeb82d7c167d521

/-- Product of two fixed-point values. -/
def fixMul (a b : Nat) : Nat := a * b / 2 ^ fixBits

/-- Sum of the series 1 + y + y^2/2 + ..., of which `term` is the term of index k. -/
def expSeries (y : Nat) : Nat → Nat → Nat → Nat → Nat
  | 0, _, _, acc => acc
  | fuel + 1, k, term, acc => expSeries y fuel (k + 1) (fixMul term y / (k + 1)) (acc + term)

/-- 2^x in fixed point for a fixed-point fraction 0 ≤ x < 1. -/
def exp2Frac (x : Nat) : Nat := expSeries (fixMul x ln2Fix) 90 0 (2 ^ fixBits) 0

/-- Sum of z + z^3/3 + z^5/5 + ..., of which `pow` is the power of index 2k + 1. -/
def atanhSeries (z2 : Nat) : Nat → Nat → Nat → Nat → Nat
  | 0, _, _, acc => acc
  | fuel + 1, k, pow, acc => atanhSeries z2 fuel (k + 1) (fixMul pow z2) (acc + pow / (2 * k + 1))

/-- The base-2 logarithm in fixed point of a fixed-point value 1 ≤ m < 2. -/
def log2Frac (m : Nat) : Nat :=
  let z := (m - 2 ^ fixBits) * 2 ^ fixBits / (m + 2 ^ fixBits)
  fixMul (2 * atanhSeries (fixMul z z) 130 0 z 0) log2eFix

/-- A finite value as a fixed-point integer, its magnitude limited to 2^20 (beyond that every result overflows or
vanishes). -/
def toFix : Val → Int
  | .num n m e _ =>
    let k := e + fixBits
    let a : Nat := if 0 ≤ k then (if 20 < (Nat.log2 m : Int) + e then 2 ^ (fixBits + 20) else m * 2 ^ k.toNat) else m / 2 ^ (-k).toNat
    if n then -(a : Int) else (a : Int)
  | _ => 0

/-- 2^x for a fixed-point x, as an inexact value. -/
def exp2Fix (x : Int) : Val :=
  let k := x / (2 : Int) ^ fixBits
  let fr := (x % (2 : Int) ^ fixBits).toNat
  .num false (exp2Frac fr) (k - fixBits) true

/-- VEXP2 (R115). -/
def exp2Val (a : Val) : Val × FlagSet :=
  match a with
  | .nan _ _ => (a.quieted, signalNV [a])
  | .inf n => (if n then .zero false else a, 0#17)
  | .num _ m e _ =>
    if m == 0 then (.num false 1 0 false, 0#17)
    else
      let x := toFix a
      let whole := 0 ≤ e || m % 2 ^ (-e).toNat == 0
      if whole then (.num false 1 (x / (2 : Int) ^ fixBits) false, 0#17) else (exp2Fix x, 0#17)

/-- VLOG2 (R115). -/
def log2Val (a : Val) : Val × FlagSet :=
  match a with
  | .nan _ _ => (a.quieted, signalNV [a])
  | .inf n => if n then (.defaultNaN, flagNV) else (a, 0#17)
  | .num n m e _ =>
    if m == 0 then (.inf true, flagDZ)
    else if n then (.defaultNaN, flagNV)
    else
      let l := Nat.log2 m
      let k : Int := (l : Int) + e
      if m == 2 ^ l then (.ofInt k, 0#17)
      else
        let fr := log2Frac (m * 2 ^ (fixBits - l))
        let x := k * (2 : Int) ^ fixBits + (fr : Int)
        if x < 0 then (.num true (x.natAbs - 1) (-(fixBits : Int)) true, 0#17)
        else (.num false x.natAbs (-(fixBits : Int)) true, 0#17)

/-- VSIGM (R115). -/
def sigmVal (a : Val) : Val × FlagSet :=
  match a with
  | .nan _ _ => (a.quieted, signalNV [a])
  | .inf n => (if n then .zero false else .num false 1 0 false, 0#17)
  | .num n m _ _ =>
    if m == 0 then (.num false 1 (-1) false, 0#17)
    else
      let y := ((toFix a).natAbs * log2eFix / 2 ^ fixBits : Nat)
      let k := y / 2 ^ fixBits
      let fr := y % 2 ^ fixBits
      -- e^(-|x|) = 2^(-k - 1) × 2^(1 - fr)
      let t := exp2Frac (2 ^ fixBits - 1 - fr)
      let small := t / 2 ^ (k + 1) + 1
      let den := 2 ^ fixBits + small
      if n then
        (.num false (t * 2 ^ fixBits / den) (-(fixBits : Int) - (k : Int) - 1) true, 0#17)
      else (.num false (2 ^ (2 * fixBits) / den) (-(fixBits : Int)) true, 0#17)

/-! ## Recursive halving (R119) -/

/-- The smallest power of two that is at least n, and at least 1. -/
def powTwoUp (n : Nat) : Nat := if n ≤ 1 then 1 else 2 ^ (Nat.log2 (n - 1) + 1)

/-- One operand of a reduction: its bits, or the identity I, with the flags raised so far. -/
abbrev Partial := Option Nat × FlagSet

/-- The reduction's operation with I as its identity (R119). -/
def combine (op : Nat → Nat → Nat × FlagSet) (x y : Partial) : Partial :=
  match x.1, y.1 with
  | none, b => (b, x.2 ||| y.2)
  | a, none => (a, x.2 ||| y.2)
  | some a, some b =>
    let (c, f) := op a b
    (some c, x.2 ||| y.2 ||| f)

/-- Halving with h = P/2, P/4, ...; `fuel` counts the halvings. -/
def halve (op : Nat → Nat → Nat × FlagSet) : Nat → List Partial → Partial
  | 0, ts => ts.headD (none, 0#17)
  | fuel + 1, ts =>
    let h := 2 ^ fuel
    halve op fuel (List.zipWith (combine op) (ts.take h) (ts.drop h))

/-- Recursive halving of a list padded with I to a power of two, and the seed added last (R119). -/
def halvingSum (op : Nat → Nat → Nat × FlagSet) (ts : List Partial) : Partial :=
  let p := powTwoUp ts.length
  halve op (Nat.log2 p) (ts ++ List.replicate (p - ts.length) (none, 0#17))

end Sys2Proof.Machine
end

