-- ==== Sys2Proof/Config.lean ====
section
/-! DEFINITION. What one implementation fixes, and the free values: constants without a body, of which nothing can be
proved. Each docstring names the rule that leaves the value open and the log entry that marks it. -/

namespace Sys2Proof.Config

/-! ## Free values -/

/-- Which of several parts of the device goes next (R14, R21, R28, R295, R347; log 2). -/
opaque schedule : Nat → Nat

/-- Core cycles beyond one that a step takes (R27, R203, R230, R308; log 3). -/
opaque elapsed : Nat → Nat

/-- Of two TLB entries that both cover an address, which one an access uses (R218; log 9). -/
opaque tlbChoice : Nat → Nat

/-- Whether a fetch that finds an old word in the instruction cache still uses it (R143, R221; log 10). -/
opaque staleWord : Nat → Bool

/-- Whether an overlapping copy moves the source's old byte or the byte it has itself written (R283; log 15). -/
opaque copyOverlap : Nat → Bool

/-- Sectors that an access beyond the L1 moves between the die cache and memory: fills and replacements that the die cache makes for
it (R303; log 35). -/
opaque traffic : Nat → Nat

/-- The threshold priority THR that the firmware's Weeder routine is given (R412, R413; log 19). -/
opaque weederThreshold : Nat

/-- Width, as 1 more than a remainder by 16, in which the values that a copy-arrival port holds are counted in slices while no queued
reader names it (R271, R280; log 15). -/
opaque arrivalWidth : Nat → Nat

/-- Whether a core is free of faults (R80; log 15). -/
opaque coreHealthy : Nat → Bool

/-- The signature of a fault-free core of a class for a pattern seed (R80; log 15). -/
opaque scanSignature : BitVec 64 → Nat → BitVec 64

/-- The signature of a faulty core for a pattern seed (R80; log 15). -/
opaque faultySignature : BitVec 64 → Nat → BitVec 64

/-- What an aborted pattern leaves in SIG (R80; log 15). -/
opaque partialSignature : Nat → BitVec 64

/-- Test cycles, as a remainder by 33, that a pattern goes on after its abort (R414; log 15). -/
opaque abortDelay : Nat → Nat

/-- The identification and status words of the privileged window (R82; log 6). -/
opaque identification : Nat → BitVec 64

/-- The fused counter that a firmware image's security version must reach (R387; log 29). -/
opaque fusedCounter : Nat

/-- What MMIOERR records as the offset of a DMR or DMW at an address (R82, R371; log 15). -/
opaque dmaError : Nat → Nat

/-- The hash of a destination device and a line address that chooses among the ports of a route (R376; log 33). -/
opaque routeHash : Nat → Nat → Nat

/-- The fused serial of the part (R388; log 29). -/
opaque serialNumber : List Byte

/-- The parts of a firmware image, whose layout the manual does not give: its header and body, the digest that the header states, the
public keys and signatures of the maker's pair and of the owner's pair, RSA first, none where the image has no owner's pair, and the
security version (R387; log 29). -/
opaque imageBody : List Byte → List Byte
opaque imageDigest : List Byte → List Byte
opaque imageMaker : List Byte → List (List Byte × List Byte)
opaque imageOwner : List Byte → Option (List (List Byte × List Byte))
opaque imageVersion : List Byte → Nat

/-- Whether a signature over a digest verifies under a public key: RSASSA-PSS of RSA-3072, and SLH-DSA under SHA2-192s (R387; log 29). -/
opaque rsaVerifies : List Byte → List Byte → List Byte → Bool
opaque slhVerifies : List Byte → List Byte → List Byte → Bool

/-- The fused SHA-384 digests of the maker's two keys (R387; log 29). -/
opaque makerDigests : List (List Byte)

/-- The digests that the boot stages extend ms0 and ms1 by, and the fused configuration that ms2 takes in (R388; log 29). -/
opaque stageOneDigest : List Byte
opaque runtimeDigest : List Byte
opaque fusedConfiguration : List Byte

/-- The parts of an ownership record, whose layout the manual does not give: what is signed, the serial and the release counter of a
release, and the owner's public keys with their signatures, RSA first (R389; log 29). -/
opaque recordBody : List Byte → List Byte
opaque recordSerial : List Byte → List Byte
opaque recordCounter : List Byte → Nat
opaque recordPair : List Byte → List (List Byte × List Byte)

/-- Bytes of an ownership record and of a firmware image header that names no length (R389; log 29). -/
opaque recordLength : Nat

/-- The layout of an attestation report over OSID, serial, security version, ownership, key digests, measurements and nonce, and the
signatures of the device identity keys under both algorithms (R388; log 29). -/
opaque reportBody : BitVec 64 → List Byte → Nat → Bool → List (List Byte) → List (BitVec 384) → List Byte → List Byte
opaque identityRsa : List Byte → List Byte
opaque identitySlh : List Byte → List Byte

/-- Whether window `i` of a remote device is open, and for writes (R377; log 32). -/
opaque remoteWindow : Nat → Nat → Bool → Bool

/-- Whether an access to a remote sector reaches a window that has been closed since it was probed (R377; log 32). -/
opaque remoteClosed : Nat → Bool

/-- What the part's fused record makes of a core's map entry at reset: whether it removes the core, by the STATE 2 or 3, and the
column groups it maps out (R328; log 5). -/
opaque fusedState : Nat → Nat
opaque fusedMapout : Nat → Nat

/-- Where the firmware of a firmware core starts, and its address space (R384; log 19). -/
opaque firmwareEntry : Nat → BitVec 64
opaque firmwarePtb : Nat → BitVec 64
opaque firmwareAsid : Nat → BitVec 12

/-! ## Constants of this board -/

/-- Physical address of the logical core map (R310, R328; log 6). -/
def cmapBase : Nat := 0x3F_FFFF_0000

/-- Installed DDR-5 bytes of each die; at most 3 TiB of it counts (R211; log 6). -/
opaque ddrBytes : Nat → Nat

end Sys2Proof.Config
end

