-- ==== Sys2Proof/Syntax.lean ====
section
/-! DEFINITION. The syntax of the L960's steps: one constructor for each row of spec/opcode_table.json.

The 265 rows with an encoding carry the fields of their word (R38 to R53), each as the bit vector the word holds.
The other 97 rows have no word: they are steps of the device (95_what_each_step_holds.md), and their operands name
where in the device the step happens (log 30). -/

namespace Sys2Proof

/-- The units of a core that have an arbiter (R21, R202). A matrix portion is named by the array mode it belongs to
and its index. -/
inductive UnitKind where
  /-- The vector unit. -/
  | vector
  /-- The matrix array as a whole. -/
  | matrixWhole
  /-- One half of the matrix array, 0 or 1. -/
  | matrixHalf (i : Nat)
  /-- One quarter of the matrix array, 0 to 3. -/
  | matrixQuarter (i : Nat)
  /-- The copy request engine. -/
  | copy
  deriving DecidableEq, Repr

/-- The three dispatch queues of a group (R19). -/
inductive QueueKind where
  | vector
  | matrix
  | copy
  deriving DecidableEq, Repr

/-- What an access needs of a page (R216). -/
inductive Access where
  /-- A read needs RD. -/
  | load
  /-- A write needs WR. -/
  | store
  /-- An atomic or a reduction at memory needs RD and WR. -/
  | atomic
  /-- An instruction fetch needs EX. -/
  | fetch
  deriving DecidableEq, Repr

/-- Where a storage error of R366 is found. -/
inductive ErrorPlace where
  /-- A 48-byte sector of memory, by its sector number. -/
  | sector (n : Nat)
  /-- A sector that a core's L1 holds: core, sector number. -/
  | l1 (core n : Nat)
  /-- A 64-bit word of the slice file: core, slot, element, 64-bit register. -/
  | slice (core slot elem reg : Nat)
  /-- A 64-bit word of a mask of a group. -/
  | mask (core slot m word : Nat)
  /-- A 64-bit word of a row of an accumulator tile of a group: core, slot, tile, row, word of the row. -/
  | tile (core slot t row word : Nat)
  /-- A 64-bit word of a row of the reuse latch of a group. -/
  | latch (core slot row word : Nat)
  /-- An entry of a dispatch queue of a group, by its place in the queue. -/
  | entry (core slot : Nat) (q : QueueKind) (place : Nat)
  /-- The TLB of a core, one entry. -/
  | tlb (core i : Nat)
  /-- The instruction cache of a core, one word. -/
  | icache (core i : Nat)
  /-- A block sum of a column group, in the TMMA that a group's matrix queue offers next. -/
  | array (core slot : Nat)
  /-- A lane of a protected task's convoy at the head of a group's vector queue: its results at an element differ (R365). -/
  | lane (core slot elem : Nat)
  /-- A column of a pair, in a protected task's TMMA that a group's matrix queue offers next (R207). -/
  | pair (core slot : Nat)
  deriving DecidableEq, Repr

/-- The kinds of flit that the spec's fabric rules name (R375 to R383). -/
inductive FlitKind where
  /-- A remote write into an export window (R377). -/
  | write
  /-- A remote read of an export window (R377). -/
  | read
  /-- A contribution to a collective (R382). -/
  | collective
  /-- An abort token (R383). -/
  | abort
  /-- The acknowledgement of a contribution's flit that this device sent (R382). -/
  | ack
  /-- The demand that this device send the flits of a port again, whose link CRC failed at the other end (R375). -/
  | replay
  deriving DecidableEq, Repr

/-- What the header of a contribution tells of its collective (R380): the functions of COLL by their numbers (R379). -/
structure CollHead where
  fn : Nat
  op : Nat
  fmt : Nat
  count : Nat
  root : Nat
  deriving DecidableEq, Repr

/-- One Osrun flit after its link checks (R375): the header fields and the line it carries. -/
structure Flit where
  /-- Port on which it arrives. -/
  port : Nat
  /-- Destination OSID. -/
  dst : Nat
  /-- Source OSID. -/
  src : Nat
  kind : FlitKind
  /-- Sectors of the line that it carries. -/
  sectorMask : BitVec 4
  /-- Address in the aperture, or the byte offset in a rank's contribution. -/
  addr : Nat
  comm : Nat
  attempt : BitVec 32
  seq : BitVec 32
  chunk : Nat
  /-- The collective that a contribution belongs to, as its sender says (R380). -/
  head : CollHead
  /-- The bytes of the four sectors. -/
  data : List (BitVec 8)
  /-- The check values of the four sectors (R226). -/
  checks : List (BitVec 32)
  /-- The link CRC matches after forward error correction. -/
  crcGood : Bool
  deriving DecidableEq, Repr

/-- One constructor for each row of spec/opcode_table.json. -/
inductive Instr where
  /-- ADD: Writes the 64-bit wrapping sum of x a and x b to x d (R126) -/
  | add (d : BitVec 5) (a : BitVec 5) (b : BitVec 5)
  /-- SUB: Writes the 64-bit wrapping difference x a minus x b to x d (R126) -/
  | sub (d : BitVec 5) (a : BitVec 5) (b : BitVec 5)
  /-- AND: Writes the bitwise AND of x a and x b to x d (R126) -/
  | and (d : BitVec 5) (a : BitVec 5) (b : BitVec 5)
  /-- OR: Writes the bitwise OR of x a and x b to x d (R126) -/
  | or (d : BitVec 5) (a : BitVec 5) (b : BitVec 5)
  /-- XOR: Writes the bitwise XOR of x a and x b to x d (R126) -/
  | xor (d : BitVec 5) (a : BitVec 5) (b : BitVec 5)
  /-- ANDN: Writes x a AND NOT x b to x d (R126) -/
  | andn (d : BitVec 5) (a : BitVec 5) (b : BitVec 5)
  /-- SHL: Shifts x a left by x b[5:0] into x d (R126) -/
  | shl (d : BitVec 5) (a : BitVec 5) (b : BitVec 5)
  /-- SHR: Shifts x a right with zero fill by x b[5:0] into x d (R126) -/
  | shr (d : BitVec 5) (a : BitVec 5) (b : BitVec 5)
  /-- SAR: Shifts x a right with sign fill by x b[5:0] into x d (R126) -/
  | sar (d : BitVec 5) (a : BitVec 5) (b : BitVec 5)
  /-- ROL: Rotates x a left by x b[5:0] into x d (R126) -/
  | rol (d : BitVec 5) (a : BitVec 5) (b : BitVec 5)
  /-- ROR: Rotates x a right by x b[5:0] into x d (R126) -/
  | ror (d : BitVec 5) (a : BitVec 5) (b : BitVec 5)
  /-- MUL: Writes the low 64 bits of x a times x b to x d (R126) -/
  | mul (d : BitVec 5) (a : BitVec 5) (b : BitVec 5)
  /-- MULH: Writes the high 64 bits of the signed 128-bit product to x d (R126) -/
  | mulh (d : BitVec 5) (a : BitVec 5) (b : BitVec 5)
  /-- MULHN: Writes the high 64 bits of the unsigned 128-bit product to x d (R126) -/
  | mulhn (d : BitVec 5) (a : BitVec 5) (b : BitVec 5)
  /-- DIV: Signed division truncated toward zero with fixed results for zero divisor and overflow (R127) -/
  | div (d : BitVec 5) (a : BitVec 5) (b : BitVec 5)
  /-- DIVN: Unsigned division, all ones for a zero divisor (R127) -/
  | divn (d : BitVec 5) (a : BitVec 5) (b : BitVec 5)
  /-- REM: Signed remainder with the sign of x a; x a for a zero divisor (R127) -/
  | rem (d : BitVec 5) (a : BitVec 5) (b : BitVec 5)
  /-- REMN: Unsigned remainder; x a for a zero divisor (R127) -/
  | remn (d : BitVec 5) (a : BitVec 5) (b : BitVec 5)
  /-- MIN: Writes the signed minimum of x a and x b to x d (R126) -/
  | min (d : BitVec 5) (a : BitVec 5) (b : BitVec 5)
  /-- MAX: Writes the signed maximum of x a and x b to x d (R126) -/
  | max (d : BitVec 5) (a : BitVec 5) (b : BitVec 5)
  /-- MINN: Writes the unsigned minimum of x a and x b to x d (R126) -/
  | minn (d : BitVec 5) (a : BitVec 5) (b : BitVec 5)
  /-- MAXN: Writes the unsigned maximum of x a and x b to x d (R126) -/
  | maxn (d : BitVec 5) (a : BitVec 5) (b : BitVec 5)
  /-- SLT: Writes 1 if x a is less than x b signed, else 0 (R126) -/
  | slt (d : BitVec 5) (a : BitVec 5) (b : BitVec 5)
  /-- SLTN: Writes 1 if x a is less than x b unsigned, else 0 (R126) -/
  | sltn (d : BitVec 5) (a : BitVec 5) (b : BitVec 5)
  /-- CLZ: Writes the count of leading zero bits of x a (R126) -/
  | clz (d : BitVec 5) (a : BitVec 5)
  /-- CTZ: Writes the count of trailing zero bits of x a (R126) -/
  | ctz (d : BitVec 5) (a : BitVec 5)
  /-- POPC: Writes the number of 1 bits of x a (R126) -/
  | popc (d : BitVec 5) (a : BitVec 5)
  /-- BREV: Writes x a with its bit order reversed (R126) -/
  | brev (d : BitVec 5) (a : BitVec 5)
  /-- BSWAP: Writes x a with its byte order reversed (R126) -/
  | bswap (d : BitVec 5) (a : BitVec 5)
  /-- SEXT: Sign-extends the low x b bits of x a (R126) -/
  | sext (d : BitVec 5) (a : BitVec 5) (b : BitVec 5)
  /-- ZEXT: Zero-extends the low x b bits of x a (R126) -/
  | zext (d : BitVec 5) (a : BitVec 5) (b : BitVec 5)
  /-- ADDW: Writes the sign-extended low 32 bits of x a plus x b (R126) -/
  | addw (d : BitVec 5) (a : BitVec 5) (b : BitVec 5)
  /-- SUBW: Writes the sign-extended low 32 bits of x a minus x b (R126) -/
  | subw (d : BitVec 5) (a : BitVec 5) (b : BitVec 5)
  /-- ADDI: Adds the sign-extended immediate to x a into x d (R128) -/
  | addi (d : BitVec 5) (a : BitVec 5) (i : BitVec 15)
  /-- ANDI: ANDs x a with the sign-extended immediate (R128) -/
  | andi (d : BitVec 5) (a : BitVec 5) (i : BitVec 15)
  /-- ORI: ORs x a with the sign-extended immediate (R128) -/
  | ori (d : BitVec 5) (a : BitVec 5) (i : BitVec 15)
  /-- XORI: XORs x a with the sign-extended immediate (R128) -/
  | xori (d : BitVec 5) (a : BitVec 5) (i : BitVec 15)
  /-- SHLI: Shifts x a left by an immediate amount (R128) -/
  | shli (d : BitVec 5) (a : BitVec 5) (s : BitVec 6)
  /-- SHRI: Shifts x a right with zero fill by an immediate amount (R128) -/
  | shri (d : BitVec 5) (a : BitVec 5) (s : BitVec 6)
  /-- SARI: Shifts x a right with sign fill by an immediate amount (R128) -/
  | sari (d : BitVec 5) (a : BitVec 5) (s : BitVec 6)
  /-- ROLI: Rotates x a left by an immediate amount (R128) -/
  | roli (d : BitVec 5) (a : BitVec 5) (s : BitVec 6)
  /-- SLTI: Writes 1 if x a is below the immediate, signed (R128) -/
  | slti (d : BitVec 5) (a : BitVec 5) (i : BitVec 15)
  /-- SLTNI: Writes 1 if x a is below the sign-extended immediate, unsigned (R128) -/
  | sltni (d : BitVec 5) (a : BitVec 5) (i : BitVec 15)
  /-- LUI: Writes sext(imm20 × 2^12) to x d (R129) -/
  | lui (d : BitVec 5) (i : BitVec 20)
  /-- ADDPC: Writes the instruction address plus sext(imm20 × 2^12) to x d (R129) -/
  | addpc (d : BitVec 5) (i : BitVec 20)
  /-- LUIH: Writes imm20 into bits [63:44] of x d, keeping bits [43:0] (R129) -/
  | luih (d : BitVec 5) (i : BitVec 20)
  /-- FADD: Scalar float add of precision p, rounded once (R131) -/
  | fadd (d : BitVec 5) (a : BitVec 5) (b : BitVec 5) (p : BitVec 2)
  /-- FSUB: Scalar float subtract, rounded once (R131) -/
  | fsub (d : BitVec 5) (a : BitVec 5) (b : BitVec 5) (p : BitVec 2)
  /-- FMUL: Scalar float multiply, rounded once (R131) -/
  | fmul (d : BitVec 5) (a : BitVec 5) (b : BitVec 5) (p : BitVec 2)
  /-- FDIV: Scalar float divide, rounded once (R131) -/
  | fdiv (d : BitVec 5) (a : BitVec 5) (b : BitVec 5) (p : BitVec 2)
  /-- FSQRT: Scalar float square root, rounded once (R131) -/
  | fsqrt (d : BitVec 5) (a : BitVec 5) (p : BitVec 2)
  /-- FMIN: Scalar float minimumNumber (R131) -/
  | fmin (d : BitVec 5) (a : BitVec 5) (b : BitVec 5) (p : BitVec 2)
  /-- FMAX: Scalar float maximumNumber (R131) -/
  | fmax (d : BitVec 5) (a : BitVec 5) (b : BitVec 5) (p : BitVec 2)
  /-- FMAD: Destructive fused a × b + d into x d (R131) -/
  | fmad (d : BitVec 5) (a : BitVec 5) (b : BitVec 5) (p : BitVec 2)
  /-- FMSB: Destructive fused a × b − d into x d (R131) -/
  | fmsb (d : BitVec 5) (a : BitVec 5) (b : BitVec 5) (p : BitVec 2)
  /-- FNMA: Destructive fused −(a × b) + d into x d (R131) -/
  | fnma (d : BitVec 5) (a : BitVec 5) (b : BitVec 5) (p : BitVec 2)
  /-- FCMPEQ: Writes 1 if the floats are equal (R132) -/
  | fcmpeq (d : BitVec 5) (a : BitVec 5) (b : BitVec 5) (p : BitVec 2)
  /-- FCMPLT: Writes 1 if a is less than b (R132) -/
  | fcmplt (d : BitVec 5) (a : BitVec 5) (b : BitVec 5) (p : BitVec 2)
  /-- FCMPLE: Writes 1 if a is less than or equal to b (R132) -/
  | fcmple (d : BitVec 5) (a : BitVec 5) (b : BitVec 5) (p : BitVec 2)
  /-- FCMPUN: Writes 1 if either operand is a NaN (R132) -/
  | fcmpun (d : BitVec 5) (a : BitVec 5) (b : BitVec 5) (p : BitVec 2)
  /-- FCLASS: Writes a one-hot 10-bit class mask of a (R132) -/
  | fclass (d : BitVec 5) (a : BitVec 5) (p : BitVec 2)
  /-- FCVTI: Converts a float to a signed 64-bit integer (R133) -/
  | fcvti (d : BitVec 5) (a : BitVec 5) (p : BitVec 2)
  /-- FCVTN: Converts a float to an unsigned 64-bit integer (R133) -/
  | fcvtn (d : BitVec 5) (a : BitVec 5) (p : BitVec 2)
  /-- FCVTF: Converts a signed 64-bit integer to float (R133) -/
  | fcvtf (d : BitVec 5) (a : BitVec 5) (p : BitVec 2)
  /-- FCVTFN: Converts an unsigned 64-bit integer to float (R133) -/
  | fcvtfn (d : BitVec 5) (a : BitVec 5) (p : BitVec 2)
  /-- FCVTP: Converts between two float precisions (R133) -/
  | fcvtp (d : BitVec 5) (a : BitVec 5) (s : BitVec 2) (p : BitVec 2)
  /-- FSGN: Copies a with the sign of b (R134) -/
  | fsgn (d : BitVec 5) (a : BitVec 5) (b : BitVec 5) (p : BitVec 2)
  /-- FSGNN: Copies a with the inverse sign of b (R134) -/
  | fsgnn (d : BitVec 5) (a : BitVec 5) (b : BitVec 5) (p : BitVec 2)
  /-- FSGNX: Copies a with the XOR of both signs (R134) -/
  | fsgnx (d : BitVec 5) (a : BitVec 5) (b : BitVec 5) (p : BitVec 2)
  /-- FABS: Clears the sign bit of a (R134) -/
  | fabs (d : BitVec 5) (a : BitVec 5) (p : BitVec 2)
  /-- FNEG: Inverts the sign bit of a (R134) -/
  | fneg (d : BitVec 5) (a : BitVec 5) (p : BitVec 2)
  /-- BEQ: Branches if x a equals x b (R135) -/
  | beq (a : BitVec 5) (b : BitVec 5) (o : BitVec 15)
  /-- BNE: Branches if x a differs from x b (R135) -/
  | bne (a : BitVec 5) (b : BitVec 5) (o : BitVec 15)
  /-- BLT: Branches if x a is less than x b, signed (R135) -/
  | blt (a : BitVec 5) (b : BitVec 5) (o : BitVec 15)
  /-- BGE: Branches if x a is at least x b, signed (R135) -/
  | bge (a : BitVec 5) (b : BitVec 5) (o : BitVec 15)
  /-- BLTN: Branches if x a is less than x b, unsigned (R135) -/
  | bltn (a : BitVec 5) (b : BitVec 5) (o : BitVec 15)
  /-- BGEN: Branches if x a is at least x b, unsigned (R135) -/
  | bgen (a : BitVec 5) (b : BitVec 5) (o : BitVec 15)
  /-- JAL: Jumps by a 25-bit word offset and links into x1 (R136) -/
  | jal (o : BitVec 25)
  /-- JALR: Jumps to (x a + imm) AND NOT 3 and links into x d (R136) -/
  | jalr (d : BitVec 5) (a : BitVec 5) (i : BitVec 15)
  /-- BMZ: Drains to the mask's writer and branches if the mask is all false (R137) -/
  | bmz (m : BitVec 5) (o : BitVec 15)
  /-- BMNZ: Drains to the mask's writer and branches if the mask has a true bit (R137) -/
  | bmnz (m : BitVec 5) (o : BitVec 15)
  /-- TRAP: Raises trap-instruction with tres at the next word (R138) -/
  | trap (a : BitVec 5)
  /-- RETT: Returns from a handler, restoring level and restarting frozen queues at tres (R139) -/
  | rett
  /-- WAITE: Suspends the scalar stream until a selected event-latch bit, a limit or a trap (R140) -/
  | waite (a : BitVec 5)
  /-- YIELD: Marks the slot not ready for 16 scalar-pipeline cycles (R141) -/
  | yield
  /-- EXIT: Stops the scalar stream and begins the group's exit drain (R142) -/
  | exit
  /-- BRK: Raises breakpoint with tres at the BRK itself (R138) -/
  | brk
  /-- FENCEI: Waits for the group's stores and discards fetched and cached instruction words (R143) -/
  | fencei
  /-- MFCR: Reads a control register in the view its number selects into x d (R144) -/
  | mfcr (d : BitVec 5) (n : BitVec 10)
  /-- MTCR: Writes x a to a control register under the access rules, for registers without behaviour of their own (R144) -/
  | mtcr (a : BitVec 5) (n : BitVec 10)
  /-- SETVL: Begins a strip: negotiates vlmax, applies cap and gate, sets vl and advances sc (R145) -/
  | setvl (d : BitVec 5) (a : BitVec 5) (b : BitVec 5) (k : BitVec 1) (g : BitVec 1)
  /-- SETVT: Sets VT from x a if valid, returning the old VT (R146) -/
  | setvt (d : BitVec 5) (a : BitVec 5)
  /-- SETVTI: Sets VT classes, widths, rounding and flush from the immediate, keeping BASE (R147) -/
  | setvti (d : BitVec 5) (z : BitVec 1) (r : BitVec 3) (s : BitVec 4) (e : BitVec 4) (c : BitVec 3)
  /-- SETBASE: Sets VT.BASE to x a plus the immediate if within 0 to 767 (R148) -/
  | setbase (d : BitVec 5) (a : BitVec 5) (i : BitVec 15)
  /-- SETTILE: Computes a matrix grant from the request and remaining extents (R190) -/
  | settile (d : BitVec 5) (a : BitVec 5) (b : BitVec 5)
  /-- VLENQ: Writes the spill-frame size for a slice count at the current vlmax (R98) -/
  | vlenq (d : BitVec 5) (a : BitVec 5)
  /-- TMMA: Multiplies an A operand by a B box and adds into a tile (R195) -/
  | tmma (n : BitVec 6) (x : BitVec 5) (t : BitVec 2) (r : BitVec 1)
  /-- TMMA_OVR: Multiplies an A operand by a B box and overwrites the tile (R195) -/
  | tmmaOvr (n : BitVec 6) (x : BitVec 5) (t : BitVec 2) (r : BitVec 1)
  /-- TZERO: Sets every element of a tile to zero (R197) -/
  | tzero (t : BitVec 2)
  /-- TLDACC: Loads a C box into a tile without rounding (R197) -/
  | tldacc (t : BitVec 2) (a : BitVec 5) (b : BitVec 5)
  /-- TSTACC: Converts a tile's valid elements and stores them as a C box (R197) -/
  | tstacc (t : BitVec 2) (a : BitVec 5) (b : BitVec 5) (f : BitVec 4)
  /-- TSAVE: Writes a geometry-neutral accumulator image of a tile (R198) -/
  | tsave (t : BitVec 2) (a : BitVec 5)
  /-- TRESTORE: Checks and restores an accumulator image into a tile (R199) -/
  | trestore (t : BitVec 2) (a : BitVec 5)
  /-- TTOV: Copies tile rows into slices, narrowed to the destination class (R197) -/
  | ttov (t : BitVec 2) (n : BitVec 6)
  /-- TFROMV: Loads a tile from slices, converted into the accumulator type (R197) -/
  | tfromv (t : BitVec 2) (n : BitVec 6)
  /-- TREL: Releases the reuse latch (R196) -/
  | trel
  /-- ALLRED: All-reduce over a communicator in fixed rank order (R381) -/
  | allred (a : BitVec 5) (b : BitVec 5) (o : BitVec 2) (f : BitVec 4)
  /-- REDSCAT: Reduce-scatter over a communicator in fixed rank order (R381) -/
  | redscat (a : BitVec 5) (b : BitVec 5) (o : BitVec 2) (f : BitVec 4)
  /-- ALLGATH: All-gather of every rank's contribution, rank 0 first (R381) -/
  | allgath (a : BitVec 5) (b : BitVec 5)
  /-- BCAST: Broadcast of the root rank's bytes (R381) -/
  | bcast (a : BitVec 5) (b : BitVec 5)
  /-- CABORT: Advances the communicator's attempt and sends an abort token when the descriptor's attempt is current (R383) -/
  | cabort (a : BitVec 5) (b : BitVec 5)
  /-- CATTEMPT: Returns the communicator's current attempt and optionally writes it to a descriptor (R382) -/
  | cattempt (d : BitVec 5) (a : BitVec 5) (b : BitVec 5)
  /-- TLDA: Loads an A box into slices, one row per element (R194) -/
  | tlda (n : BitVec 6) (x : BitVec 5)
  /-- VADD: Element-wise add (R153) -/
  | vadd (f : BitVec 2) (d : BitVec 6) (a : BitVec 6) (b : BitVec 6) (k : BitVec 4) (c : BitVec 1)
  /-- VSUB: Element-wise subtract a minus b (R153) -/
  | vsub (f : BitVec 2) (d : BitVec 6) (a : BitVec 6) (b : BitVec 6) (k : BitVec 4) (c : BitVec 1)
  /-- VRSUB: Element-wise reverse subtract b minus a (R153) -/
  | vrsub (f : BitVec 2) (d : BitVec 6) (a : BitVec 6) (b : BitVec 6) (k : BitVec 4) (c : BitVec 1)
  /-- VMUL: Element-wise multiply (R153) -/
  | vmul (f : BitVec 2) (d : BitVec 6) (a : BitVec 6) (b : BitVec 6) (k : BitVec 4) (c : BitVec 1)
  /-- VMULH: Element-wise high part of an exact integer product (R155) -/
  | vmulh (f : BitVec 2) (d : BitVec 6) (a : BitVec 6) (b : BitVec 6) (k : BitVec 4) (c : BitVec 1)
  /-- VDIV: Element-wise divide with fixed integer edge cases (R154) -/
  | vdiv (f : BitVec 2) (d : BitVec 6) (a : BitVec 6) (b : BitVec 6) (k : BitVec 4) (c : BitVec 1)
  /-- VREM: Element-wise integer remainder (R154) -/
  | vrem (f : BitVec 2) (d : BitVec 6) (a : BitVec 6) (b : BitVec 6) (k : BitVec 4) (c : BitVec 1)
  /-- VMIN: Element-wise minimum (R153) -/
  | vmin (f : BitVec 2) (d : BitVec 6) (a : BitVec 6) (b : BitVec 6) (k : BitVec 4) (c : BitVec 1)
  /-- VMAX: Element-wise maximum (R153) -/
  | vmax (f : BitVec 2) (d : BitVec 6) (a : BitVec 6) (b : BitVec 6) (k : BitVec 4) (c : BitVec 1)
  /-- VFMA: Element-wise fused A × B + D into d (R156) -/
  | vfma (f : BitVec 2) (d : BitVec 6) (a : BitVec 6) (b : BitVec 6) (k : BitVec 4) (c : BitVec 1)
  /-- VFMS: Element-wise fused A × B − D into d (R156) -/
  | vfms (f : BitVec 2) (d : BitVec 6) (a : BitVec 6) (b : BitVec 6) (k : BitVec 4) (c : BitVec 1)
  /-- VFNMA: Element-wise fused −(A × B) + D into d (R156) -/
  | vfnma (f : BitVec 2) (d : BitVec 6) (a : BitVec 6) (b : BitVec 6) (k : BitVec 4) (c : BitVec 1)
  /-- VAND: Element-wise bitwise AND (R157) -/
  | vand (f : BitVec 2) (d : BitVec 6) (a : BitVec 6) (b : BitVec 6) (k : BitVec 4) (c : BitVec 1)
  /-- VOR: Element-wise bitwise OR (R157) -/
  | vor (f : BitVec 2) (d : BitVec 6) (a : BitVec 6) (b : BitVec 6) (k : BitVec 4) (c : BitVec 1)
  /-- VXOR: Element-wise bitwise XOR (R157) -/
  | vxor (f : BitVec 2) (d : BitVec 6) (a : BitVec 6) (b : BitVec 6) (k : BitVec 4) (c : BitVec 1)
  /-- VSHL: Element-wise shift left (R157) -/
  | vshl (f : BitVec 2) (d : BitVec 6) (a : BitVec 6) (b : BitVec 6) (k : BitVec 4) (c : BitVec 1)
  /-- VSHR: Element-wise logical shift right (R157) -/
  | vshr (f : BitVec 2) (d : BitVec 6) (a : BitVec 6) (b : BitVec 6) (k : BitVec 4) (c : BitVec 1)
  /-- VSAR: Element-wise arithmetic shift right (R157) -/
  | vsar (f : BitVec 2) (d : BitVec 6) (a : BitVec 6) (b : BitVec 6) (k : BitVec 4) (c : BitVec 1)
  /-- VADC: Element-wise add with carry in and out through a mask (R158) -/
  | vadc (f : BitVec 2) (d : BitVec 6) (a : BitVec 6) (b : BitVec 6) (k : BitVec 4) (c : BitVec 1)
  /-- VSBC: Element-wise subtract with borrow in and out through a mask (R158) -/
  | vsbc (f : BitVec 2) (d : BitVec 6) (a : BitVec 6) (b : BitVec 6) (k : BitVec 4) (c : BitVec 1)
  /-- VCMPEQ: Writes mask bits where A equals B (R159) -/
  | vcmpeq (f : BitVec 2) (m : BitVec 6) (a : BitVec 6) (b : BitVec 6) (k : BitVec 4) (c : BitVec 1)
  /-- VCMPNE: Writes mask bits where A differs from B (R159) -/
  | vcmpne (f : BitVec 2) (m : BitVec 6) (a : BitVec 6) (b : BitVec 6) (k : BitVec 4) (c : BitVec 1)
  /-- VCMPLT: Writes mask bits where A is less than B (R159) -/
  | vcmplt (f : BitVec 2) (m : BitVec 6) (a : BitVec 6) (b : BitVec 6) (k : BitVec 4) (c : BitVec 1)
  /-- VCMPLE: Writes mask bits where A is at most B (R159) -/
  | vcmple (f : BitVec 2) (m : BitVec 6) (a : BitVec 6) (b : BitVec 6) (k : BitVec 4) (c : BitVec 1)
  /-- VCMPGT: Writes mask bits where A is greater than B (R159) -/
  | vcmpgt (f : BitVec 2) (m : BitVec 6) (a : BitVec 6) (b : BitVec 6) (k : BitVec 4) (c : BitVec 1)
  /-- VCMPGE: Writes mask bits where A is at least B (R159) -/
  | vcmpge (f : BitVec 2) (m : BitVec 6) (a : BitVec 6) (b : BitVec 6) (k : BitVec 4) (c : BitVec 1)
  /-- VCMPUN: Writes mask bits where either operand is a NaN (R159) -/
  | vcmpun (f : BitVec 2) (m : BitVec 6) (a : BitVec 6) (b : BitVec 6) (k : BitVec 4) (c : BitVec 1)
  /-- VMERGE: Selects B or A per element by a selector mask (R160) -/
  | vmerge (f : BitVec 2) (d : BitVec 6) (a : BitVec 6) (b : BitVec 6) (k : BitVec 4) (c : BitVec 1)
  /-- VABS: Element-wise absolute value (R162) -/
  | vabs (d : BitVec 6) (a : BitVec 6) (k : BitVec 4) (c : BitVec 1)
  /-- VNEG: Element-wise negation (R162) -/
  | vneg (d : BitVec 6) (a : BitVec 6) (k : BitVec 4) (c : BitVec 1)
  /-- VNOT: Element-wise bitwise NOT (R162) -/
  | vnot (d : BitVec 6) (a : BitVec 6) (k : BitVec 4) (c : BitVec 1)
  /-- VSQRT: Element-wise correctly rounded square root (R162) -/
  | vsqrt (d : BitVec 6) (a : BitVec 6) (k : BitVec 4) (c : BitVec 1)
  /-- VRSQE: Element-wise 8-bit reciprocal square-root estimate (R163) -/
  | vrsqe (d : BitVec 6) (a : BitVec 6) (k : BitVec 4) (c : BitVec 1)
  /-- VRCPE: Element-wise 8-bit reciprocal estimate (R163) -/
  | vrcpe (d : BitVec 6) (a : BitVec 6) (k : BitVec 4) (c : BitVec 1)
  /-- VEXP2: Element-wise correctly rounded 2^x (R115) -/
  | vexp2 (d : BitVec 6) (a : BitVec 6) (k : BitVec 4) (c : BitVec 1)
  /-- VLOG2: Element-wise correctly rounded log2 x (R115) -/
  | vlog2 (d : BitVec 6) (a : BitVec 6) (k : BitVec 4) (c : BitVec 1)
  /-- VSIGM: Element-wise correctly rounded logistic sigmoid (R115) -/
  | vsigm (d : BitVec 6) (a : BitVec 6) (k : BitVec 4) (c : BitVec 1)
  /-- VCLZ: Element-wise count of leading zero bits (R162) -/
  | vclz (d : BitVec 6) (a : BitVec 6) (k : BitVec 4) (c : BitVec 1)
  /-- VPOPC: Element-wise population count (R162) -/
  | vpopc (d : BitVec 6) (a : BitVec 6) (k : BitVec 4) (c : BitVec 1)
  /-- VCVT: Element-wise conversion from source class to destination class (R164) -/
  | vcvt (d : BitVec 6) (a : BitVec 6) (k : BitVec 4) (c : BitVec 1)
  /-- VMV: Copies operand B into each active element (R160) -/
  | vmv (f : BitVec 2) (d : BitVec 6) (b : BitVec 6) (k : BitVec 4) (c : BitVec 1)
  /-- VID: Writes each active element's index, narrowed (R161) -/
  | vid (d : BitVec 6) (k : BitVec 4) (c : BitVec 1)
  /-- VSLUP: Slides elements up by an amount (R176) -/
  | vslup (f : BitVec 2) (d : BitVec 6) (a : BitVec 6) (b : BitVec 6) (k : BitVec 4) (c : BitVec 1)
  /-- VSLDN: Slides elements down by an amount, zero-filling (R176) -/
  | vsldn (f : BitVec 2) (d : BitVec 6) (a : BitVec 6) (b : BitVec 6) (k : BitVec 4) (c : BitVec 1)
  /-- VSL1UP: Slides up by one, entering a value at element 0 (R176) -/
  | vsl1up (f : BitVec 2) (d : BitVec 6) (a : BitVec 6) (b : BitVec 6) (k : BitVec 4) (c : BitVec 1)
  /-- VSL1DN: Slides down by one, entering a value at element vl−1 (R176) -/
  | vsl1dn (f : BitVec 2) (d : BitVec 6) (a : BitVec 6) (b : BitVec 6) (k : BitVec 4) (c : BitVec 1)
  /-- VPERM: Gathers elements of a by an index name (R177) -/
  | vperm (d : BitVec 6) (a : BitVec 6) (i : BitVec 6) (k : BitVec 4) (c : BitVec 1)
  /-- VCOMP: Packs active elements into the low elements of d (R178) -/
  | vcomp (d : BitVec 6) (a : BitVec 6) (k : BitVec 4) (c : BitVec 1)
  /-- VIOTA: Writes the count of mask bits below each element (R179) -/
  | viota (d : BitVec 6) (k : BitVec 4) (c : BitVec 1)
  /-- VDOT4: Accumulates a 4-term narrow dot product with one rounding (R182) -/
  | vdot4 (f : BitVec 2) (d : BitVec 6) (a : BitVec 6) (b : BitVec 6) (k : BitVec 4) (c : BitVec 1)
  /-- VDOT8: Accumulates an 8-term narrow dot product with one rounding (R182) -/
  | vdot8 (f : BitVec 2) (d : BitVec 6) (a : BitVec 6) (b : BitVec 6) (k : BitVec 4) (c : BitVec 1)
  /-- VREDSUM: Sum reduction by recursive halving into element 0 (R181) -/
  | vredsum (f : BitVec 2) (d : BitVec 6) (a : BitVec 6) (b : BitVec 6) (k : BitVec 4) (c : BitVec 1)
  /-- VREDMAX: Maximum reduction into element 0 (R181) -/
  | vredmax (f : BitVec 2) (d : BitVec 6) (a : BitVec 6) (b : BitVec 6) (k : BitVec 4) (c : BitVec 1)
  /-- VREDMIN: Minimum reduction into element 0 (R181) -/
  | vredmin (f : BitVec 2) (d : BitVec 6) (a : BitVec 6) (b : BitVec 6) (k : BitVec 4) (c : BitVec 1)
  /-- VREDAND: Bitwise AND reduction into element 0 (R181) -/
  | vredand (f : BitVec 2) (d : BitVec 6) (a : BitVec 6) (b : BitVec 6) (k : BitVec 4) (c : BitVec 1)
  /-- VREDOR: Bitwise OR reduction into element 0 (R181) -/
  | vredor (f : BitVec 2) (d : BitVec 6) (a : BitVec 6) (b : BitVec 6) (k : BitVec 4) (c : BitVec 1)
  /-- VREDXOR: Bitwise XOR reduction into element 0 (R181) -/
  | vredxor (f : BitVec 2) (d : BitVec 6) (a : BitVec 6) (b : BitVec 6) (k : BitVec 4) (c : BitVec 1)
  /-- VTOPM: Sets mask bits of the c largest candidates (R175) -/
  | vtopm (f : BitVec 2) (m : BitVec 6) (a : BitVec 6) (b : BitVec 6) (k : BitVec 4) (c : BitVec 1)
  /-- VEXT: Extracts one element's pattern into an x register (R180) -/
  | vext (f : BitVec 2) (d : BitVec 5) (a : BitVec 6) (b : BitVec 6) (c : BitVec 1)
  /-- VINS: Inserts an x register value into one element (R180) -/
  | vins (f : BitVec 2) (d : BitVec 6) (a : BitVec 5) (b : BitVec 6) (c : BitVec 1)
  /-- MAND: Mask AND (R171) -/
  | mand (d : BitVec 6) (a : BitVec 6) (b : BitVec 6) (c : BitVec 1)
  /-- MOR: Mask OR (R171) -/
  | mor (d : BitVec 6) (a : BitVec 6) (b : BitVec 6) (c : BitVec 1)
  /-- MXOR: Mask XOR (R171) -/
  | mxor (d : BitVec 6) (a : BitVec 6) (b : BitVec 6) (c : BitVec 1)
  /-- MANDN: Mask A AND NOT B (R171) -/
  | mandn (d : BitVec 6) (a : BitVec 6) (b : BitVec 6) (c : BitVec 1)
  /-- MORN: Mask A OR NOT B (R171) -/
  | morn (d : BitVec 6) (a : BitVec 6) (b : BitVec 6) (c : BitVec 1)
  /-- MNOT: Mask NOT (R171) -/
  | mnot (d : BitVec 6) (a : BitVec 6) (c : BitVec 1)
  /-- MMOV: Mask copy (R171) -/
  | mmov (d : BitVec 6) (a : BitVec 6) (c : BitVec 1)
  /-- MSET: Sets mask bits below vl (R171) -/
  | mset (d : BitVec 6) (c : BitVec 1)
  /-- MCLR: Clears the mask (R171) -/
  | mclr (d : BitVec 6) (c : BitVec 1)
  /-- MSHL1: Shifts mask bits up by one element (R171) -/
  | mshl1 (d : BitVec 6) (a : BitVec 6) (c : BitVec 1)
  /-- MSHR1: Shifts mask bits down by one element (R171) -/
  | mshr1 (d : BitVec 6) (a : BitVec 6) (c : BitVec 1)
  /-- MFROMX: Loads mask bits from an x register (R171) -/
  | mfromx (d : BitVec 6) (b : BitVec 5) (c : BitVec 1)
  /-- VMPOP: Counts mask bits that count into an x register (R172) -/
  | vmpop (d : BitVec 5) (a : BitVec 6) (k : BitVec 4) (c : BitVec 1)
  /-- VMFIRST: Returns the lowest counting mask index (R172) -/
  | vmfirst (d : BitVec 5) (a : BitVec 6) (k : BitVec 4) (c : BitVec 1)
  /-- VMLAST: Returns the highest counting mask index (R172) -/
  | vmlast (d : BitVec 5) (a : BitVec 6) (k : BitVec 4) (c : BitVec 1)
  /-- VPICK_MAX: Returns the largest selected element and clears its mask bit (R174) -/
  | vpickMax (d : BitVec 5) (a : BitVec 6) (k : BitVec 4) (c : BitVec 1)
  /-- VPICK_MIN: Returns the smallest selected element and clears its mask bit (R174) -/
  | vpickMin (d : BitVec 5) (a : BitVec 6) (k : BitVec 4) (c : BitVec 1)
  /-- VPUSHQ: Appends active element patterns to a FIFO port (R184) -/
  | vpushq (p : BitVec 3) (a : BitVec 6) (k : BitVec 4) (c : BitVec 1)
  /-- VLD: Unit-stride vector load, optionally witnessed (R235) -/
  | vld (d : BitVec 6) (b : BitVec 5) (w : BitVec 5) (p : BitVec 2) (k : BitVec 4) (c : BitVec 1)
  /-- VLDS: Strided vector load with stride from x(base+1) (R235) -/
  | vlds (d : BitVec 6) (b : BitVec 5) (w : BitVec 5) (p : BitVec 2) (k : BitVec 4) (c : BitVec 1)
  /-- VLDX: Indexed vector gather (R235) -/
  | vldx (d : BitVec 6) (b : BitVec 5) (i : BitVec 6) (w : BitVec 3) (k : BitVec 4) (c : BitVec 1)
  /-- VLDSEG: Segment load of 2 to 16 fields into consecutive names (R235) -/
  | vldseg (d : BitVec 6) (b : BitVec 5) (w : BitVec 5) (h : BitVec 4) (k : BitVec 4) (c : BitVec 1)
  /-- VST: Unit-stride vector store with optional progress-word notify (R238) -/
  | vst (v : BitVec 6) (b : BitVec 5) (w : BitVec 5) (n : BitVec 1) (p : BitVec 2) (k : BitVec 4) (c : BitVec 1)
  /-- VSTS: Strided vector store with optional notify (R238) -/
  | vsts (v : BitVec 6) (b : BitVec 5) (w : BitVec 5) (n : BitVec 1) (p : BitVec 2) (k : BitVec 4) (c : BitVec 1)
  /-- VSTX: Indexed vector scatter (R238) -/
  | vstx (v : BitVec 6) (b : BitVec 5) (i : BitVec 6) (w : BitVec 3) (k : BitVec 4) (c : BitVec 1)
  /-- VSTSEG: Segment store of 2 to 8 fields (R238) -/
  | vstseg (v : BitVec 6) (b : BitVec 5) (w : BitVec 5) (h : BitVec 3) (k : BitVec 4) (c : BitVec 1)
  /-- VAMO_ADD: Vector returning atomic add at each element's home (R240) -/
  | vamoAdd (v : BitVec 6) (b : BitVec 5) (i : BitVec 6) (k : BitVec 4) (c : BitVec 1)
  /-- VAMO_AND: Vector returning atomic AND (R240) -/
  | vamoAnd (v : BitVec 6) (b : BitVec 5) (i : BitVec 6) (k : BitVec 4) (c : BitVec 1)
  /-- VAMO_OR: Vector returning atomic OR (R240) -/
  | vamoOr (v : BitVec 6) (b : BitVec 5) (i : BitVec 6) (k : BitVec 4) (c : BitVec 1)
  /-- VAMO_XOR: Vector returning atomic XOR (R240) -/
  | vamoXor (v : BitVec 6) (b : BitVec 5) (i : BitVec 6) (k : BitVec 4) (c : BitVec 1)
  /-- VAMO_MIN: Vector returning atomic minimum (R240) -/
  | vamoMin (v : BitVec 6) (b : BitVec 5) (i : BitVec 6) (k : BitVec 4) (c : BitVec 1)
  /-- VAMO_MAX: Vector returning atomic maximum (R240) -/
  | vamoMax (v : BitVec 6) (b : BitVec 5) (i : BitVec 6) (k : BitVec 4) (c : BitVec 1)
  /-- VAMO_SWAP: Vector returning atomic swap (R240) -/
  | vamoSwap (v : BitVec 6) (b : BitVec 5) (i : BitVec 6) (k : BitVec 4) (c : BitVec 1)
  /-- VREDM_SUM: Merges elements by address and adds into memory at the homes (R241) -/
  | vredmSum (v : BitVec 6) (b : BitVec 5) (i : BitVec 6) (k : BitVec 4) (c : BitVec 1)
  /-- VREDM_MAX: Merged maximum reduction at memory (R241) -/
  | vredmMax (v : BitVec 6) (b : BitVec 5) (i : BitVec 6) (k : BitVec 4) (c : BitVec 1)
  /-- VREDM_MIN: Merged minimum reduction at memory (R241) -/
  | vredmMin (v : BitVec 6) (b : BitVec 5) (i : BitVec 6) (k : BitVec 4) (c : BitVec 1)
  /-- VREDM_AND: Merged AND reduction at memory (R241) -/
  | vredmAnd (v : BitVec 6) (b : BitVec 5) (i : BitVec 6) (k : BitVec 4) (c : BitVec 1)
  /-- VREDM_OR: Merged OR reduction at memory (R241) -/
  | vredmOr (v : BitVec 6) (b : BitVec 5) (i : BitVec 6) (k : BitVec 4) (c : BitVec 1)
  /-- VREDM_XOR: Merged XOR reduction at memory (R241) -/
  | vredmXor (v : BitVec 6) (b : BitVec 5) (i : BitVec 6) (k : BitVec 4) (c : BitVec 1)
  /-- VSPILL: Copies a slice range of every element below vl to a spill frame (R96) -/
  | vspill (b : BitVec 5) (s : BitVec 10) (n : BitVec 6)
  /-- VFILL: Reads whole sectors of a spill frame back into a slice range (R97) -/
  | vfill (b : BitVec 5) (s : BitVec 10) (n : BitVec 6)
  /-- LDB: Loads a sign-extended byte, optionally witnessed (R242) -/
  | ldb (d : BitVec 5) (b : BitVec 5) (w : BitVec 5) (i : BitVec 10)
  /-- LDH: Loads a sign-extended halfword (R242) -/
  | ldh (d : BitVec 5) (b : BitVec 5) (w : BitVec 5) (i : BitVec 10)
  /-- LDW: Loads a sign-extended word (R242) -/
  | ldw (d : BitVec 5) (b : BitVec 5) (w : BitVec 5) (i : BitVec 10)
  /-- LDD: Loads a doubleword (R242) -/
  | ldd (d : BitVec 5) (b : BitVec 5) (w : BitVec 5) (i : BitVec 10)
  /-- LDBN: Loads a zero-extended byte (R242) -/
  | ldbn (d : BitVec 5) (b : BitVec 5) (w : BitVec 5) (i : BitVec 10)
  /-- LDHN: Loads a zero-extended halfword (R242) -/
  | ldhn (d : BitVec 5) (b : BitVec 5) (w : BitVec 5) (i : BitVec 10)
  /-- LDWN: Loads a zero-extended word (R242) -/
  | ldwn (d : BitVec 5) (b : BitVec 5) (w : BitVec 5) (i : BitVec 10)
  /-- STB: Stores a byte, taking a store-sequence entry and witness (R242) -/
  | stb (s : BitVec 5) (b : BitVec 5) (w : BitVec 5) (i : BitVec 10)
  /-- STH: Stores a halfword (R242) -/
  | sth (s : BitVec 5) (b : BitVec 5) (w : BitVec 5) (i : BitVec 10)
  /-- STW: Stores a word (R242) -/
  | stw (s : BitVec 5) (b : BitVec 5) (w : BitVec 5) (i : BitVec 10)
  /-- STD: Stores a doubleword (R242) -/
  | std (s : BitVec 5) (b : BitVec 5) (w : BitVec 5) (i : BitVec 10)
  /-- AMO_ADD: Scalar atomic add at the home (R243) -/
  | amoAdd (d : BitVec 5) (a : BitVec 5) (b : BitVec 5) (w : BitVec 5) (z : BitVec 1)
  /-- AMO_AND: Scalar atomic AND (R243) -/
  | amoAnd (d : BitVec 5) (a : BitVec 5) (b : BitVec 5) (w : BitVec 5) (z : BitVec 1)
  /-- AMO_OR: Scalar atomic OR (R243) -/
  | amoOr (d : BitVec 5) (a : BitVec 5) (b : BitVec 5) (w : BitVec 5) (z : BitVec 1)
  /-- AMO_XOR: Scalar atomic XOR (R243) -/
  | amoXor (d : BitVec 5) (a : BitVec 5) (b : BitVec 5) (w : BitVec 5) (z : BitVec 1)
  /-- AMO_MIN: Scalar atomic signed minimum (R243) -/
  | amoMin (d : BitVec 5) (a : BitVec 5) (b : BitVec 5) (w : BitVec 5) (z : BitVec 1)
  /-- AMO_MAX: Scalar atomic signed maximum (R243) -/
  | amoMax (d : BitVec 5) (a : BitVec 5) (b : BitVec 5) (w : BitVec 5) (z : BitVec 1)
  /-- AMO_MINN: Scalar atomic unsigned minimum (R243) -/
  | amoMinn (d : BitVec 5) (a : BitVec 5) (b : BitVec 5) (w : BitVec 5) (z : BitVec 1)
  /-- AMO_MAXN: Scalar atomic unsigned maximum (R243) -/
  | amoMaxn (d : BitVec 5) (a : BitVec 5) (b : BitVec 5) (w : BitVec 5) (z : BitVec 1)
  /-- AMO_SWAP: Scalar atomic swap (R243) -/
  | amoSwap (d : BitVec 5) (a : BitVec 5) (b : BitVec 5) (w : BitVec 5) (z : BitVec 1)
  /-- AMO_CAS: Scalar atomic compare-and-set with x b and x(b+1) (R243) -/
  | amoCas (d : BitVec 5) (a : BitVec 5) (b : BitVec 5) (w : BitVec 5) (z : BitVec 1)
  /-- WLAST: Returns the witness of the group's latest store-sequence entry (R246) -/
  | wlast (d : BitVec 5)
  /-- WJOIN: Merges two witnesses, re-basing foreign ones through a knot (R247) -/
  | wjoin (d : BitVec 5) (a : BitVec 5) (b : BitVec 5)
  /-- WMAX: Merges two witnesses, keeping a common origin (R247) -/
  | wmax (d : BitVec 5) (a : BitVec 5) (b : BitVec 5)
  /-- WTEST: Tests without waiting whether a witness has resolved (R246) -/
  | wtest (d : BitVec 5) (a : BitVec 5)
  /-- WWAIT: Holds the scalar stream until a witness resolves (R246) -/
  | wwait (a : BitVec 5)
  /-- WSETTLE: Waits for a witness, then invalidates the core's clean L1 sectors (R246) -/
  | wsettle (a : BitVec 5)
  /-- WNULL: Writes the null witness (R246) -/
  | wnull (d : BitVec 5)
  /-- COPY_LINEAR: Copy-queue linear byte copy (R283) -/
  | copyLinear (d : BitVec 5) (a : BitVec 5) (b : BitVec 5) (t : BitVec 2)
  /-- COPY_BOX: Copy-queue 2-D box copy (R283) -/
  | copyBox (d : BitVec 5) (a : BitVec 5) (b : BitVec 5) (t : BitVec 2)
  /-- COPY_TILEA: Copies an A box under the captured grant, converting if needed (R283) -/
  | copyTilea (d : BitVec 5) (a : BitVec 5) (b : BitVec 5) (f : BitVec 4) (t : BitVec 2)
  /-- COPY_TILEB: Copies a B box under the captured grant, converting if needed (R283) -/
  | copyTileb (d : BitVec 5) (a : BitVec 5) (b : BitVec 5) (f : BitVec 4) (t : BitVec 2)
  /-- COPY_TILEC: Copies a C box under the captured grant (R283) -/
  | copyTilec (d : BitVec 5) (a : BitVec 5) (b : BitVec 5) (f : BitVec 4) (t : BitVec 2)
  /-- COPY_FILL: Fills bytes with a repeated pattern of the format's width (R283) -/
  | copyFill (d : BitVec 5) (a : BitVec 5) (b : BitVec 5) (f : BitVec 4) (t : BitVec 2)
  /-- COPY_REMOTE: Copies bytes to or from a tier 3 page (R283) -/
  | copyRemote (d : BitVec 5) (a : BitVec 5) (b : BitVec 5) (t : BitVec 2)
  /-- CKICK: Starts the request engine on a list of copy request records (R288) -/
  | ckick (a : BitVec 5)
  /-- QBIND_MEM: Binds a port to a binding record and starts fetching (R279) -/
  | qbindMem (a : BitVec 5) (p : BitVec 3)
  /-- QBIND_COPY: Binds a port to copy arrivals (R279) -/
  | qbindCopy (p : BitVec 3)
  /-- QBIND_FIFO: Binds a port as a FIFO (R279) -/
  | qbindFifo (p : BitVec 3)
  /-- QUNBIND: Discards buffered values and unbinds a port (R279) -/
  | qunbind (p : BitVec 3)
  /-- QSTAT: Writes a port status snapshot to x d (R280) -/
  | qstat (d : BitVec 5) (p : BitVec 3)
  /-- QDRAIN: Discards a port's pending values, keeping the binding (R279) -/
  | qdrain (p : BitVec 3)
  /-- BINIT: Initialises a barrier object sector (R344) -/
  | binit (a : BitVec 5) (b : BitVec 5)
  /-- ARRIVE: Contributes arrivals toward the current phase of a barrier object (R345) -/
  | arrive (a : BitVec 5) (k : BitVec 4)
  /-- BWAIT: Waits until a barrier phase within distance d has completed (R344) -/
  | bwait (a : BitVec 5) (d : BitVec 2)
  /-- BEXPECT: Adds expected copy bytes to the current phase (R344) -/
  | bexpect (a : BitVec 5) (b : BitVec 5)
  /-- WAITC: Waits until an engine counter is at most n (R333) -/
  | waitc (a : BitVec 5) (c : BitVec 2)
  /-- RDCNT: Reads an engine counter into x d (R333) -/
  | rdcnt (d : BitVec 5) (c : BitVec 2)
  /-- PGATE: Binds or clears the group's gate on a progress word (R336) -/
  | pgate (a : BitVec 5) (b : BitVec 5)
  /-- PWAIT: Holds the scalar stream until a progress word reaches a watermark (R338) -/
  | pwait (a : BitVec 5) (b : BitVec 5)
  /-- PPUB: Publishes a monotone update to a progress word after older entries (R339) -/
  | ppub (d : BitVec 5) (a : BitVec 5) (b : BitVec 5)
  /-- EPOCH_WRITE: Privileged write of a new cls.EPOCH, resetting wseq and wdone (R74) -/
  | epochWrite (a : BitVec 5)
  /-- MTCR_FS: Write of fs after older vector and matrix entries have folded flags (R65) -/
  | mtcrFs (core : Nat) (slot : Nat)
  /-- MTCR_PW: Write of pw after older notifying stores have updated (R65) -/
  | mtcrPw (core : Nat) (slot : Nat)
  /-- MTCR_PTB: Write of ptb after queues empty, invalidating the asid's TLB entries (R78) -/
  | mtcrPtb (core : Nat) (slot : Nat)
  /-- SCTCTL_START: Starts a scan test on the target core: reserve, drain, run (R80) -/
  | sctctlStart (fw : Nat)
  /-- SCTCTL_ABORT: Aborts a draining or running scan test (R80) -/
  | sctctlAbort (fw : Nat)
  /-- SCTCTL_RESETCORE: Resets an aborted target core (R80) -/
  | sctctlResetcore (fw : Nat)
  /-- TEST_DRAIN_DONE: The target's drain ends and the pattern starts running (R414) -/
  | testDrainDone (fw : Nat)
  /-- TEST_PATTERN_END: CYCLES reaches 250,000 and the state becomes pass or fail (R80) -/
  | testPatternEnd (fw : Nat)
  /-- TEST_AUTO_ABORT: A pending launch at or above ABTPRI aborts the test (R80) -/
  | testAutoAbort (fw : Nat)
  /-- TEST_RESET_DONE: The target's core reset completes and the state returns to idle (R80) -/
  | testResetDone (fw : Nat)
  /-- ARBITER_DECISION: A unit's arbiter binds one ready queue head by deficit round robin (R21) -/
  | arbiterDecision (core : Nat) (u : UnitKind)
  /-- QUEUE_ENTRY_COMPLETE: A dispatch-queue entry completes, leaves its queue and decrements its counter (R19) -/
  | queueEntryComplete (core : Nat) (slot : Nat) (q : QueueKind)
  /-- PUSH_RESUME: A push stalled on a full queue or counter proceeds when room appears (R19) -/
  | pushResume (core : Nat) (slot : Nat)
  /-- DRAIN_END: A scalar read draining to a producer proceeds when that producer completes (R18) -/
  | drainEnd (core : Nat) (slot : Nat)
  /-- LOAD_DATA_RETURN: Data of a scalar load arrives and is written to x d (R242) -/
  | loadDataReturn (core : Nat) (slot : Nat)
  /-- WITNESS_WAIT_END: A wait on a witness ends as resolved or poisoned (R245) -/
  | witnessWaitEnd (core : Nat) (slot : Nat)
  /-- GATE_PASS: A gated SETVL or PWAIT passes, or fails on poison, and settles (R263) -/
  | gatePass (core : Nat) (slot : Nat)
  /-- WAITC_END: A WAITC's counter reaches n and the wait ends, taking any held fault (R333) -/
  | waitcEnd (core : Nat) (slot : Nat)
  /-- BWAIT_RETURN: A barrier object's LAST reaches the awaited phase (R344) -/
  | bwaitReturn (core : Nat) (slot : Nat)
  /-- ARRIVE_ACTION: After its stalls, an arrival is made at the object's home (R345) -/
  | arriveAction (core : Nat) (slot : Nat)
  /-- VLMAX_NEGOTIATION: After queues empty, a SETVL claims or releases slice storage (R100) -/
  | vlmaxNegotiation (core : Nat) (slot : Nat)
  /-- SETTILE_STORAGE_CLAIM: After the matrix queue empties, accumulator storage is reclaimed and tiles zeroed (R191) -/
  | settileStorageClaim (core : Nat) (slot : Nat)
  /-- WAITE_TIMEOUT: A WAITE limit in core cycles elapses (R140) -/
  | waiteTimeout (core : Nat) (slot : Nat)
  /-- YIELD_EXPIRY: The 16-cycle not-ready period of YIELD ends (R141) -/
  | yieldExpiry (core : Nat) (slot : Nat)
  /-- GROUP_EXIT_DRAINED: An exiting group's drain ends and its slot and storage are freed (R142) -/
  | groupExitDrained (core : Nat) (slot : Nat)
  /-- ARRAY_MODE_CHANGE: The array switches between whole, half and quarter modes (R202) -/
  | arrayModeChange (core : Nat)
  /-- PAGE_WALK: A translation walk completes, filling the TLB or faulting (R213) -/
  | pageWalk (core : Nat) (slot : Nat) (va : BitVec 64) (acc : Access)
  /-- ELEMENT_PERFORM: A write element, read, atomic or reduction update performs at its home (R251) -/
  | elementPerform (i : Nat)
  /-- L1_STORE_UPDATE: On a home's acknowledgement the storing core's L1 updates a valid sector (R224) -/
  | l1StoreUpdate (i : Nat)
  /-- ENTRY_COMPLETE: A store-sequence entry completes and wdone advances over the prefix (R255) -/
  | entryComplete (core : Nat) (slot : Nat)
  /-- NOTIFY_UPDATE: A notifying store adds vl to its progress word after older entries (R238) -/
  | notifyUpdate (core : Nat) (slot : Nat)
  /-- PPUB_UPDATE: A PPUB update performs at the word's home or holds a fault (R339) -/
  | ppubUpdate (core : Nat) (slot : Nat)
  /-- PORT_FETCH: A record port fetches stream values and scales ahead (R274) -/
  | portFetch (core : Nat) (slot : Nat) (port : Nat)
  /-- COPY_REQUEST_BEGIN: The request engine begins a COPY or list record within its limits (R287) -/
  | copyRequestBegin (core : Nat) (slot : Nat)
  /-- COPY_SECTOR_PERFORM: A copy destination sector performs, counting bytes or arriving at a port (R346) -/
  | copySectorPerform (core : Nat) (slot : Nat)
  /-- TRAP_DELIVERY: With queues quiet, the oldest fault is delivered to its vector entry (R352) -/
  | trapDelivery (core : Nat) (slot : Nat)
  /-- TASK_KILL: Stops every group of a task, poisons its epochs and words, and records the failure (R369) -/
  | taskKill (task : Nat) (why : Nat)
  /-- PREEMPTION: At a boundary a cluster's teams are stopped and saved to the context pool (R355) -/
  | preemption (task : Nat) (cluster : Nat)
  /-- RESUME: A saved team image is checked and restored onto a rectangle (R327) -/
  | resume (task : Nat) (cluster : Nat)
  /-- CHECKPOINT: A resilient team cuts, verifies, publishes and shadows its interval (R361) -/
  | checkpoint (team : Nat)
  /-- ROLLBACK: A resilient team discards its interval and restores from its shadow (R363) -/
  | rollback (team : Nat)
  /-- UNCORRECTABLE_ERROR: An uncorrectable storage error marks a sector or word poisoned (R366) -/
  | uncorrectableError (place : ErrorPlace)
  /-- COLUMN_MAPOUT: After a failed array check the Trowel maps out a column group or removes the core (R368) -/
  | columnMapout (core : Nat)
  /-- COMMAND_ACCEPT: The Trowel reads the command at QHEAD, journals it ACCEPTED and advances QHEAD (R295) -/
  | commandAccept (q : Nat)
  /-- QUEUE_SELECTION: The Trowel selects the next eligible queue by priority and starts its head command (R300) -/
  | queueSelection (part : Nat)
  /-- PLACEMENT_PASS: A placement engine searches for and commits rectangles for clusters (R301) -/
  | placementPass (task : Nat)
  /-- COMMAND_FINAL: A command's journal entry becomes final and QSEQ advances (R295) -/
  | commandFinal (q : Nat)
  /-- LAUNCH: Starts a task from a descriptor (R293) -/
  | launch (q : Nat)
  /-- COPY_COMMAND: A die copy engine performs a copy under the queue's address space (R293) -/
  | copyCommand (q : Nat)
  /-- SIGNAL: Makes one indivisible update to a progress word (R293) -/
  | signal (q : Nat)
  /-- WAIT: Completes when a progress word reaches a value or is complete (R293) -/
  | wait (q : Nat)
  /-- DEPEND: Completes when named queues' QSEQ reach given sequences (R293) -/
  | depend (q : Nat)
  /-- REFILL: Ends a target queue's budget period at once, optionally setting its budget (R305) -/
  | refill (q : Nat)
  /-- CANCEL: Cancels or kills a target queue's non-final commands up to a limit (R296) -/
  | cancel (q : Nat)
  /-- MARK: Journals a 32-bit tag (R293) -/
  | mark (q : Nat)
  /-- DEVICE_EVENT_JOURNAL: The Trowel journals a capacity-removing device event (R320) -/
  | deviceEventJournal (reason : Nat) (tag : Nat)
  /-- CHARGE_READ: Every 10 µs or at pre-emption or exit the Trowel charges activity to queues (R304) -/
  | chargeRead
  /-- PERIOD_END: A queue's accounting period ends and its charge is cleared (R305) -/
  | periodEnd (q : Nat)
  /-- POWER_SAMPLE: Every 10 µs module power moves both dies' cap levels (R390) -/
  | powerSample (watts : Nat)
  /-- THERMAL_CAP: A die's junction reaches 110 °C and its cap level is set to 12 (R392) -/
  | thermalCap (die : Nat)
  /-- THERMAL_RELEASE: A capped die's junction falls below 100 °C and its level is released (R392) -/
  | thermalRelease (die : Nat)
  /-- THERMAL_TRIP: At 120 °C hardware removes power from the module (R392) -/
  | thermalTrip
  /-- SUPPLY_DROOP: A supply droop sets power-alarm narrowing on the die (R391) -/
  | supplyDroop (die : Nat)
  /-- ALARM_EXPIRY: The 1 ms narrowing after a droop ends (R391) -/
  | alarmExpiry (die : Nat)
  /-- MEMORY_TRAINED: Memory training completes and reset narrowing ends (R391) -/
  | memoryTrained
  /-- DEVICE_RESET: Resets epochs, bitmaps, partitions and device state (R259) -/
  | deviceReset
  /-- DBW: Host doorbell write sets a queue's tail and pending bit (R81) -/
  | dbw (q : Nat) (v : BitVec 64)
  /-- MMR: Host 64-bit read of the privileged window or a doorbell page (R371) -/
  | mmr (off : Nat)
  /-- MMW: Host 64-bit write of a window register without behaviour of its own (R371) -/
  | mmw (off : Nat) (v : BitVec 64)
  /-- DMR: Host read of device memory at the home (R372): the bytes from an address that the mask names -/
  | dmr (pa : Nat) (mask : List Bool)
  /-- DMW: Host write of device memory performing at UCIe ingress (R372): the bytes from an address, none where the mask leaves one out -/
  | dmw (pa : Nat) (bytes : List (Option (BitVec 8)))
  /-- HOST_COMPLETION: The host's completion for a tier 2 access arrives (R372) -/
  | hostCompletion (i : Nat)
  /-- QLOAD: The Trowel reads and checks a queue descriptor and takes ENABLE (R316) -/
  | qload (q : Nat)
  /-- MMIOERR_CLEAR: Writing 0 clears the MMIOERR record (R82) -/
  | mmioerrClear
  /-- PARTITION_TABLE_WRITE: Writes a partition entry or HOSTCTL under the overlap rules (R307) -/
  | partitionTableWrite (i : Nat) (v : BitVec 64)
  /-- OSREFUSE_CLEAR: Writing 0 clears the remote-write refusal count (R376) -/
  | osrefuseClear
  /-- QUEUE_SETTINGS: Mailbox request changing a queue's priority, share or budget (R386) -/
  | queueSettings
  /-- TRANSLATION_INVALIDATION: Mailbox request invalidating an asid's TLB entries over a range (R219) -/
  | translationInvalidation
  /-- INVALIDATION_ACK: The invalidation is acknowledged once no entry remains and translated elements have performed (R219) -/
  | invalidationAck
  /-- PARTITION_RESET: Mailbox request resetting a partition and abandoning its commands (R299) -/
  | partitionReset
  /-- MODULE_POWER_LIMIT: Mailbox request setting the module power limit (R390) -/
  | modulePowerLimit
  /-- FIRMWARE_UPDATE: Mailbox request verifying and staging a firmware image (R387) -/
  | firmwareUpdate
  /-- ATTESTATION: Mailbox request producing a signed attestation report (R388) -/
  | attestation
  /-- MEASUREMENT_EXTEND: Mailbox request extending a measurement register (R388) -/
  | measurementExtend
  /-- OWNERSHIP_RELEASE: Mailbox request releasing ownership and zeroing memory (R389) -/
  | ownershipRelease
  /-- ENROLMENT: Mailbox request enrolling a new owner's keys (R389) -/
  | enrolment
  /-- UCIE_MODULE_FAIL: A UCIe module fails training or repair and is taken out of use (R370) -/
  | ucieModuleFail (m : Nat)
  /-- FLIT_RECEIVE: An Osrun flit arrives and is corrected, replayed, dropped or performed (R375) -/
  | flitReceive (fl : Flit)
  /-- PORT_DOWN: After 64 consecutive replays an Osrun port is taken down (R375) -/
  | portDown (p : Nat)
  /-- ABORT_TOKEN: An abort token or newer-attempt packet advances a communicator's attempt (R383) -/
  | abortToken (comm : Nat) (attempt : BitVec 32)
  /-- MTCR_ASID: Write of asid after all three of the group's queues are empty, changing the tag used by later accesses (R65) -/
  | mtcrAsid (core : Nat) (slot : Nat)
  /-- MAILBOX_REQUEST_COMPLETE: A mailbox request finishes: MBSTAT.busy goes to 0 with its result and MSG KIND 2 is sent (R385) -/
  | mailboxRequestComplete
  /-- FIRMWARE_CORE_RETURN: A firmware core reset under R352 completes and the core takes back its duties from its partner (R384) -/
  | firmwareCoreReturn (fw : Nat)
  /-- CORRECTED_ERROR: A corrected SECDED error, or a TLB or instruction-cache parity error, is counted for the Trowel and the entry is dropped (R366) -/
  | correctedError (place : ErrorPlace)
  /-- CORE_LOGIC_ERROR: An uncorrectable error in core logic, such as scalar pipeline or sequencer parity, removes the core with STATE 3 and REASON 17 (R368) -/
  | coreLogicError (core : Nat)
  /-- QSEQ_MSG_INTERVAL_END: The 10 µs per-queue interval of MSG KIND 1 ends, and a QSEQ advance held back during it is reported (R374) -/
  | qseqMsgIntervalEnd (q : Nat)
  deriving DecidableEq, Repr

end Sys2Proof
end

