-- ==== Sys2Proof/WellFormed.lean ====
section
/-! DEFINITION. What the word of an instruction fixes beyond its fields: the decode checks of R54 on field values. A
term that fails one stands for a word that is undefined-encoding. -/

namespace Sys2Proof

/-- Why a word is no instruction (R43 to R54); each is undefined-encoding. -/
inductive DecodeError where
  /-- The major opcode is 0x00 or 0x7F (R43). -/
  | illegalMajor
  /-- The major opcode is reserved (R43). -/
  | reservedMajor
  /-- A function or sub-field value has no operation (R44 to R53). -/
  | badFunction
  /-- A field that must be zero is not (R3, R54). -/
  | nonzeroField
  /-- A mask index, k, or register is outside its range (R40, R47, R52, R281). -/
  | badIndex
  /-- The form F, or the operand it selects, is not permitted (R40, R49, R168). -/
  | badForm
  /-- A format code is reserved or not permitted (R6, R45, R379). -/
  | badFormat
  /-- A cache policy is not permitted (R51). -/
  | badPolicy
  /-- A slice range or a run of names passes its end (R40, R234, R237). -/
  | badRange
  /-- The vector type of a SETVTI is not valid (R42, R147). -/
  | badType
  deriving DecidableEq, Repr

/-- The class and width pairs of R42, the width in slices. -/
def classWidthOk (cls w : Nat) : Bool :=
  match cls with
  | 0 | 1 => decide (1 ≤ w) && decide (w ≤ 16)
  | 2 => w == 4 || w == 8 || w == 16
  | 3 => w == 4
  | 4 | 5 => w == 2
  | 6 => w == 1
  | _ => false

/-- The form F permits its operand: a register needs b[10] = 0, a port b[10:8] = 0 (R40). -/
def formOk (f : BitVec 2) (b : BitVec 6) : Bool :=
  match f.toNat with
  | 1 => decide (b.toNat < 32)
  | 3 => decide (b.toNat < 8)
  | _ => true

/-- F is a register, or an immediate that is not negative (R49, R168). -/
def scalarOrAmount (f : BitVec 2) (b : BitVec 6) : Bool :=
  f.toNat == 1 || (f.toNat == 2 && decide (b.toNat < 32))

/-- F is a register or an immediate (R49). -/
def scalarOrImm (f : BitVec 2) : Bool := f.toNat == 1 || f.toNat == 2

/-- F is a name or a port (R49). -/
def nameOrPort (f : BitVec 2) : Bool := f.toNat == 0 || f.toNat == 3

/-- F is a name or a register (R49). -/
def nameOrScalar (f : BitVec 2) : Bool := f.toNat == 0 || f.toNat == 1

/-- The first check that fails. -/
def firstFailing : List (Bool × DecodeError) → Option DecodeError
  | [] => none
  | (ok, e) :: rest => if ok then firstFailing rest else some e

/-- The decode checks of R54 on the fields of one instruction; `none` when all hold. Steps without a word have none. -/
def Instr.check : Instr → Option DecodeError
  | .add _ _ _ => none
  | .sub _ _ _ => none
  | .and _ _ _ => none
  | .or _ _ _ => none
  | .xor _ _ _ => none
  | .andn _ _ _ => none
  | .shl _ _ _ => none
  | .shr _ _ _ => none
  | .sar _ _ _ => none
  | .rol _ _ _ => none
  | .ror _ _ _ => none
  | .mul _ _ _ => none
  | .mulh _ _ _ => none
  | .mulhn _ _ _ => none
  | .div _ _ _ => none
  | .divn _ _ _ => none
  | .rem _ _ _ => none
  | .remn _ _ _ => none
  | .min _ _ _ => none
  | .max _ _ _ => none
  | .minn _ _ _ => none
  | .maxn _ _ _ => none
  | .slt _ _ _ => none
  | .sltn _ _ _ => none
  | .clz _ _ => none
  | .ctz _ _ => none
  | .popc _ _ => none
  | .brev _ _ => none
  | .bswap _ _ => none
  | .sext _ _ _ => none
  | .zext _ _ _ => none
  | .addw _ _ _ => none
  | .subw _ _ _ => none
  | .addi _ _ _ => none
  | .andi _ _ _ => none
  | .ori _ _ _ => none
  | .xori _ _ _ => none
  | .shli _ _ _ => none
  | .shri _ _ _ => none
  | .sari _ _ _ => none
  | .roli _ _ _ => none
  | .slti _ _ _ => none
  | .sltni _ _ _ => none
  | .lui _ _ => none
  | .addpc _ _ => none
  | .luih _ _ => none
  | .fadd _ _ _ _ => none
  | .fsub _ _ _ _ => none
  | .fmul _ _ _ _ => none
  | .fdiv _ _ _ _ => none
  | .fsqrt _ _ _ => none
  | .fmin _ _ _ _ => none
  | .fmax _ _ _ _ => none
  | .fmad _ _ _ _ => none
  | .fmsb _ _ _ _ => none
  | .fnma _ _ _ _ => none
  | .fcmpeq _ _ _ _ => none
  | .fcmplt _ _ _ _ => none
  | .fcmple _ _ _ _ => none
  | .fcmpun _ _ _ _ => none
  | .fclass _ _ _ => none
  | .fcvti _ _ _ => none
  | .fcvtn _ _ _ => none
  | .fcvtf _ _ _ => none
  | .fcvtfn _ _ _ => none
  | .fcvtp _ _ s p => firstFailing [(s != p, .badFormat)]
  | .fsgn _ _ _ _ => none
  | .fsgnn _ _ _ _ => none
  | .fsgnx _ _ _ _ => none
  | .fabs _ _ _ => none
  | .fneg _ _ _ => none
  | .beq _ _ _ => none
  | .bne _ _ _ => none
  | .blt _ _ _ => none
  | .bge _ _ _ => none
  | .bltn _ _ _ => none
  | .bgen _ _ _ => none
  | .jal _ => none
  | .jalr _ _ _ => none
  | .bmz m _ => firstFailing [(m.toNat < 12, .badIndex)]
  | .bmnz m _ => firstFailing [(m.toNat < 12, .badIndex)]
  | .trap _ => none
  | .rett => none
  | .waite _ => none
  | .yield => none
  | .exit => none
  | .brk => none
  | .fencei => none
  | .mfcr _ _ => none
  | .mtcr _ _ => none
  | .setvl _ _ _ _ _ => none
  | .setvt _ _ => none
  | .setvti _ _ r s e c => firstFailing [(classWidthOk c.toNat (e.toNat + 1) && classWidthOk c.toNat (s.toNat + 1) && r.toNat ≤ 4, .badType)]
  | .setbase _ _ _ => none
  | .settile _ _ _ => none
  | .vlenq _ _ => none
  | .tmma _ _ _ _ => none
  | .tmmaOvr _ _ _ _ => none
  | .tzero _ => none
  | .tldacc _ _ _ => none
  | .tstacc _ _ _ f => firstFailing [(f.toNat ≤ 10, .badFormat)]
  | .tsave _ _ => none
  | .trestore _ _ => none
  | .ttov _ _ => none
  | .tfromv _ _ => none
  | .trel => none
  | .allred _ _ o f => firstFailing [(o.toNat ≤ 2, .badFunction), (f.toNat ≤ 3, .badFormat)]
  | .redscat _ _ o f => firstFailing [(o.toNat ≤ 2, .badFunction), (f.toNat ≤ 3, .badFormat)]
  | .allgath _ _ => none
  | .bcast _ _ => none
  | .cabort _ _ => none
  | .cattempt _ _ _ => none
  | .tlda _ _ => none
  | .vadd f _ _ b k _ => firstFailing [(formOk f b, .badForm), (k.toNat ≤ 12, .badIndex)]
  | .vsub f _ _ b k _ => firstFailing [(formOk f b, .badForm), (k.toNat ≤ 12, .badIndex)]
  | .vrsub f _ _ b k _ => firstFailing [(formOk f b, .badForm), (k.toNat ≤ 12, .badIndex)]
  | .vmul f _ _ b k _ => firstFailing [(formOk f b, .badForm), (k.toNat ≤ 12, .badIndex)]
  | .vmulh f _ _ b k _ => firstFailing [(formOk f b, .badForm), (k.toNat ≤ 12, .badIndex)]
  | .vdiv f _ _ b k _ => firstFailing [(formOk f b, .badForm), (k.toNat ≤ 12, .badIndex)]
  | .vrem f _ _ b k _ => firstFailing [(formOk f b, .badForm), (k.toNat ≤ 12, .badIndex)]
  | .vmin f _ _ b k _ => firstFailing [(formOk f b, .badForm), (k.toNat ≤ 12, .badIndex)]
  | .vmax f _ _ b k _ => firstFailing [(formOk f b, .badForm), (k.toNat ≤ 12, .badIndex)]
  | .vfma f _ _ b k _ => firstFailing [(formOk f b, .badForm), (k.toNat ≤ 12, .badIndex)]
  | .vfms f _ _ b k _ => firstFailing [(formOk f b, .badForm), (k.toNat ≤ 12, .badIndex)]
  | .vfnma f _ _ b k _ => firstFailing [(formOk f b, .badForm), (k.toNat ≤ 12, .badIndex)]
  | .vand f _ _ b k _ => firstFailing [(formOk f b, .badForm), (k.toNat ≤ 12, .badIndex)]
  | .vor f _ _ b k _ => firstFailing [(formOk f b, .badForm), (k.toNat ≤ 12, .badIndex)]
  | .vxor f _ _ b k _ => firstFailing [(formOk f b, .badForm), (k.toNat ≤ 12, .badIndex)]
  | .vshl f _ _ b k _ => firstFailing [(formOk f b, .badForm), (k.toNat ≤ 12, .badIndex)]
  | .vshr f _ _ b k _ => firstFailing [(formOk f b, .badForm), (k.toNat ≤ 12, .badIndex)]
  | .vsar f _ _ b k _ => firstFailing [(formOk f b, .badForm), (k.toNat ≤ 12, .badIndex)]
  | .vadc f _ _ b k _ => firstFailing [(formOk f b, .badForm), (1 ≤ k.toNat && k.toNat ≤ 12, .badIndex)]
  | .vsbc f _ _ b k _ => firstFailing [(formOk f b, .badForm), (1 ≤ k.toNat && k.toNat ≤ 12, .badIndex)]
  | .vcmpeq f m _ b k _ => firstFailing [(formOk f b, .badForm), (m.toNat < 12, .badIndex), (k.toNat ≤ 12, .badIndex)]
  | .vcmpne f m _ b k _ => firstFailing [(formOk f b, .badForm), (m.toNat < 12, .badIndex), (k.toNat ≤ 12, .badIndex)]
  | .vcmplt f m _ b k _ => firstFailing [(formOk f b, .badForm), (m.toNat < 12, .badIndex), (k.toNat ≤ 12, .badIndex)]
  | .vcmple f m _ b k _ => firstFailing [(formOk f b, .badForm), (m.toNat < 12, .badIndex), (k.toNat ≤ 12, .badIndex)]
  | .vcmpgt f m _ b k _ => firstFailing [(formOk f b, .badForm), (m.toNat < 12, .badIndex), (k.toNat ≤ 12, .badIndex)]
  | .vcmpge f m _ b k _ => firstFailing [(formOk f b, .badForm), (m.toNat < 12, .badIndex), (k.toNat ≤ 12, .badIndex)]
  | .vcmpun f m _ b k _ => firstFailing [(formOk f b, .badForm), (m.toNat < 12, .badIndex), (k.toNat ≤ 12, .badIndex)]
  | .vmerge f _ _ b k _ => firstFailing [(formOk f b, .badForm), (1 ≤ k.toNat && k.toNat ≤ 12, .badIndex)]
  | .vabs _ _ k _ => firstFailing [(k.toNat ≤ 12, .badIndex)]
  | .vneg _ _ k _ => firstFailing [(k.toNat ≤ 12, .badIndex)]
  | .vnot _ _ k _ => firstFailing [(k.toNat ≤ 12, .badIndex)]
  | .vsqrt _ _ k _ => firstFailing [(k.toNat ≤ 12, .badIndex)]
  | .vrsqe _ _ k _ => firstFailing [(k.toNat ≤ 12, .badIndex)]
  | .vrcpe _ _ k _ => firstFailing [(k.toNat ≤ 12, .badIndex)]
  | .vexp2 _ _ k _ => firstFailing [(k.toNat ≤ 12, .badIndex)]
  | .vlog2 _ _ k _ => firstFailing [(k.toNat ≤ 12, .badIndex)]
  | .vsigm _ _ k _ => firstFailing [(k.toNat ≤ 12, .badIndex)]
  | .vclz _ _ k _ => firstFailing [(k.toNat ≤ 12, .badIndex)]
  | .vpopc _ _ k _ => firstFailing [(k.toNat ≤ 12, .badIndex)]
  | .vcvt _ _ k _ => firstFailing [(k.toNat ≤ 12, .badIndex)]
  | .vmv f _ b k _ => firstFailing [(formOk f b, .badForm), (k.toNat ≤ 12, .badIndex)]
  | .vid _ k _ => firstFailing [(k.toNat ≤ 12, .badIndex)]
  | .vslup f _ _ b k _ => firstFailing [(formOk f b && scalarOrAmount f b, .badForm), (k.toNat ≤ 12, .badIndex)]
  | .vsldn f _ _ b k _ => firstFailing [(formOk f b && scalarOrAmount f b, .badForm), (k.toNat ≤ 12, .badIndex)]
  | .vsl1up f _ _ b k _ => firstFailing [(formOk f b && scalarOrImm f, .badForm), (k.toNat ≤ 12, .badIndex)]
  | .vsl1dn f _ _ b k _ => firstFailing [(formOk f b && scalarOrImm f, .badForm), (k.toNat ≤ 12, .badIndex)]
  | .vperm _ _ _ k _ => firstFailing [(k.toNat ≤ 12, .badIndex)]
  | .vcomp _ _ k _ => firstFailing [(k.toNat ≤ 12, .badIndex)]
  | .viota _ k _ => firstFailing [(1 ≤ k.toNat && k.toNat ≤ 12, .badIndex)]
  | .vdot4 f _ _ b k _ => firstFailing [(formOk f b && nameOrPort f, .badForm), (k.toNat ≤ 12, .badIndex)]
  | .vdot8 f _ _ b k _ => firstFailing [(formOk f b && nameOrPort f, .badForm), (k.toNat ≤ 12, .badIndex)]
  | .vredsum f _ _ b k _ => firstFailing [(formOk f b && nameOrScalar f, .badForm), (k.toNat ≤ 12, .badIndex)]
  | .vredmax f _ _ b k _ => firstFailing [(formOk f b && nameOrScalar f, .badForm), (k.toNat ≤ 12, .badIndex)]
  | .vredmin f _ _ b k _ => firstFailing [(formOk f b && nameOrScalar f, .badForm), (k.toNat ≤ 12, .badIndex)]
  | .vredand f _ _ b k _ => firstFailing [(formOk f b && nameOrScalar f, .badForm), (k.toNat ≤ 12, .badIndex)]
  | .vredor f _ _ b k _ => firstFailing [(formOk f b && nameOrScalar f, .badForm), (k.toNat ≤ 12, .badIndex)]
  | .vredxor f _ _ b k _ => firstFailing [(formOk f b && nameOrScalar f, .badForm), (k.toNat ≤ 12, .badIndex)]
  | .vtopm f m _ b k _ => firstFailing [(formOk f b && scalarOrAmount f b, .badForm), (m.toNat < 12, .badIndex), (k.toNat ≤ 12, .badIndex)]
  | .vext f _ _ b _ => firstFailing [(formOk f b && scalarOrAmount f b, .badForm)]
  | .vins f _ _ b _ => firstFailing [(formOk f b && scalarOrAmount f b, .badForm)]
  | .mand d a b _ => firstFailing [(d.toNat < 12 && a.toNat < 12 && b.toNat < 12, .badIndex)]
  | .mor d a b _ => firstFailing [(d.toNat < 12 && a.toNat < 12 && b.toNat < 12, .badIndex)]
  | .mxor d a b _ => firstFailing [(d.toNat < 12 && a.toNat < 12 && b.toNat < 12, .badIndex)]
  | .mandn d a b _ => firstFailing [(d.toNat < 12 && a.toNat < 12 && b.toNat < 12, .badIndex)]
  | .morn d a b _ => firstFailing [(d.toNat < 12 && a.toNat < 12 && b.toNat < 12, .badIndex)]
  | .mnot d a _ => firstFailing [(d.toNat < 12 && a.toNat < 12, .badIndex)]
  | .mmov d a _ => firstFailing [(d.toNat < 12 && a.toNat < 12, .badIndex)]
  | .mset d _ => firstFailing [(d.toNat < 12, .badIndex)]
  | .mclr d _ => firstFailing [(d.toNat < 12, .badIndex)]
  | .mshl1 d a _ => firstFailing [(d.toNat < 12 && a.toNat < 12, .badIndex)]
  | .mshr1 d a _ => firstFailing [(d.toNat < 12 && a.toNat < 12, .badIndex)]
  | .mfromx d _ _ => firstFailing [(d.toNat < 12, .badIndex)]
  | .vmpop _ a k _ => firstFailing [(a.toNat < 12, .badIndex), (k.toNat ≤ 12, .badIndex)]
  | .vmfirst _ a k _ => firstFailing [(a.toNat < 12, .badIndex), (k.toNat ≤ 12, .badIndex)]
  | .vmlast _ a k _ => firstFailing [(a.toNat < 12, .badIndex), (k.toNat ≤ 12, .badIndex)]
  | .vpickMax _ _ k _ => firstFailing [(1 ≤ k.toNat && k.toNat ≤ 12, .badIndex)]
  | .vpickMin _ _ k _ => firstFailing [(1 ≤ k.toNat && k.toNat ≤ 12, .badIndex)]
  | .vpushq _ _ k _ => firstFailing [(k.toNat ≤ 12, .badIndex)]
  | .vld _ _ _ p k _ => firstFailing [(k.toNat ≤ 12, .badIndex), (p.toNat ≤ 2, .badPolicy)]
  | .vlds _ b _ p k _ => firstFailing [(k.toNat ≤ 12, .badIndex), (p.toNat ≤ 2, .badPolicy), (b.toNat != 31, .badIndex)]
  | .vldx _ _ _ _ k _ => firstFailing [(k.toNat ≤ 12, .badIndex)]
  | .vldseg d _ _ h k _ => firstFailing [(k.toNat ≤ 12, .badIndex), (1 ≤ h.toNat, .badFunction), (d.toNat + h.toNat ≤ 63, .badRange)]
  | .vst _ _ _ _ p k _ => firstFailing [(k.toNat ≤ 12, .badIndex), (p.toNat ≤ 1, .badPolicy)]
  | .vsts _ b _ _ p k _ => firstFailing [(k.toNat ≤ 12, .badIndex), (p.toNat ≤ 1, .badPolicy), (b.toNat != 31, .badIndex)]
  | .vstx _ _ _ _ k _ => firstFailing [(k.toNat ≤ 12, .badIndex)]
  | .vstseg v _ _ h k _ => firstFailing [(k.toNat ≤ 12, .badIndex), (1 ≤ h.toNat, .badFunction), (v.toNat + h.toNat ≤ 63, .badRange)]
  | .vamoAdd _ _ _ k _ => firstFailing [(k.toNat ≤ 12, .badIndex)]
  | .vamoAnd _ _ _ k _ => firstFailing [(k.toNat ≤ 12, .badIndex)]
  | .vamoOr _ _ _ k _ => firstFailing [(k.toNat ≤ 12, .badIndex)]
  | .vamoXor _ _ _ k _ => firstFailing [(k.toNat ≤ 12, .badIndex)]
  | .vamoMin _ _ _ k _ => firstFailing [(k.toNat ≤ 12, .badIndex)]
  | .vamoMax _ _ _ k _ => firstFailing [(k.toNat ≤ 12, .badIndex)]
  | .vamoSwap _ _ _ k _ => firstFailing [(k.toNat ≤ 12, .badIndex)]
  | .vredmSum _ _ _ k _ => firstFailing [(k.toNat ≤ 12, .badIndex)]
  | .vredmMax _ _ _ k _ => firstFailing [(k.toNat ≤ 12, .badIndex)]
  | .vredmMin _ _ _ k _ => firstFailing [(k.toNat ≤ 12, .badIndex)]
  | .vredmAnd _ _ _ k _ => firstFailing [(k.toNat ≤ 12, .badIndex)]
  | .vredmOr _ _ _ k _ => firstFailing [(k.toNat ≤ 12, .badIndex)]
  | .vredmXor _ _ _ k _ => firstFailing [(k.toNat ≤ 12, .badIndex)]
  | .vspill _ s n => firstFailing [(s.toNat + (n.toNat + 1) ≤ 768, .badRange)]
  | .vfill _ s n => firstFailing [(s.toNat + (n.toNat + 1) ≤ 768, .badRange)]
  | .ldb _ _ _ _ => none
  | .ldh _ _ _ _ => none
  | .ldw _ _ _ _ => none
  | .ldd _ _ _ _ => none
  | .ldbn _ _ _ _ => none
  | .ldhn _ _ _ _ => none
  | .ldwn _ _ _ _ => none
  | .stb _ _ _ _ => none
  | .sth _ _ _ _ => none
  | .stw _ _ _ _ => none
  | .std _ _ _ _ => none
  | .amoAdd _ _ _ _ _ => none
  | .amoAnd _ _ _ _ _ => none
  | .amoOr _ _ _ _ _ => none
  | .amoXor _ _ _ _ _ => none
  | .amoMin _ _ _ _ _ => none
  | .amoMax _ _ _ _ _ => none
  | .amoMinn _ _ _ _ _ => none
  | .amoMaxn _ _ _ _ _ => none
  | .amoSwap _ _ _ _ _ => none
  | .amoCas _ _ b _ _ => firstFailing [(b.toNat != 31, .badIndex)]
  | .wlast _ => none
  | .wjoin _ _ _ => none
  | .wmax _ _ _ => none
  | .wtest _ _ => none
  | .wwait _ => none
  | .wsettle _ => none
  | .wnull _ => none
  | .copyLinear _ _ _ t => firstFailing [(t.toNat ≤ 2, .badFunction)]
  | .copyBox d _ _ t => firstFailing [(t.toNat ≤ 2, .badFunction), (d.toNat != 31, .badIndex)]
  | .copyTilea d _ _ f t => firstFailing [(t.toNat ≤ 2, .badFunction), (f.toNat ≤ 10, .badFormat), (d.toNat != 31, .badIndex)]
  | .copyTileb d _ _ f t => firstFailing [(t.toNat ≤ 2, .badFunction), (f.toNat ≤ 10, .badFormat), (d.toNat != 31, .badIndex)]
  | .copyTilec d _ _ f t => firstFailing [(t.toNat ≤ 2, .badFunction), (f.toNat ≤ 10, .badFormat), (d.toNat != 31, .badIndex)]
  | .copyFill _ _ _ f t => firstFailing [(t.toNat ≤ 2, .badFunction), (f.toNat ≤ 10, .badFormat)]
  | .copyRemote _ _ _ t => firstFailing [(t.toNat ≤ 2, .badFunction)]
  | .ckick _ => none
  | .qbindMem _ _ => none
  | .qbindCopy _ => none
  | .qbindFifo _ => none
  | .qunbind _ => none
  | .qstat _ _ => none
  | .qdrain _ => none
  | .binit _ _ => none
  | .arrive _ k => firstFailing [(k.toNat ≤ 12, .badIndex)]
  | .bwait _ _ => none
  | .bexpect _ _ => none
  | .waitc _ _ => none
  | .rdcnt _ _ => none
  | .pgate _ _ => none
  | .pwait _ _ => none
  | .ppub _ _ _ => none
  | .epochWrite _ => none
  | .mtcrFs _ _ => none
  | .mtcrPw _ _ => none
  | .mtcrPtb _ _ => none
  | .sctctlStart _ => none
  | .sctctlAbort _ => none
  | .sctctlResetcore _ => none
  | .testDrainDone _ => none
  | .testPatternEnd _ => none
  | .testAutoAbort _ => none
  | .testResetDone _ => none
  | .arbiterDecision _ _ => none
  | .queueEntryComplete _ _ _ => none
  | .pushResume _ _ => none
  | .drainEnd _ _ => none
  | .loadDataReturn _ _ => none
  | .witnessWaitEnd _ _ => none
  | .gatePass _ _ => none
  | .waitcEnd _ _ => none
  | .bwaitReturn _ _ => none
  | .arriveAction _ _ => none
  | .vlmaxNegotiation _ _ => none
  | .settileStorageClaim _ _ => none
  | .waiteTimeout _ _ => none
  | .yieldExpiry _ _ => none
  | .groupExitDrained _ _ => none
  | .arrayModeChange _ => none
  | .pageWalk _ _ _ _ => none
  | .elementPerform _ => none
  | .l1StoreUpdate _ => none
  | .entryComplete _ _ => none
  | .notifyUpdate _ _ => none
  | .ppubUpdate _ _ => none
  | .portFetch _ _ _ => none
  | .copyRequestBegin _ _ => none
  | .copySectorPerform _ _ => none
  | .trapDelivery _ _ => none
  | .taskKill _ _ => none
  | .preemption _ _ => none
  | .resume _ _ => none
  | .checkpoint _ => none
  | .rollback _ => none
  | .uncorrectableError _ => none
  | .columnMapout _ => none
  | .commandAccept _ => none
  | .queueSelection _ => none
  | .placementPass _ => none
  | .commandFinal _ => none
  | .launch _ => none
  | .copyCommand _ => none
  | .signal _ => none
  | .wait _ => none
  | .depend _ => none
  | .refill _ => none
  | .cancel _ => none
  | .mark _ => none
  | .deviceEventJournal _ _ => none
  | .chargeRead => none
  | .periodEnd _ => none
  | .powerSample _ => none
  | .thermalCap _ => none
  | .thermalRelease _ => none
  | .thermalTrip => none
  | .supplyDroop _ => none
  | .alarmExpiry _ => none
  | .memoryTrained => none
  | .deviceReset => none
  | .dbw _ _ => none
  | .mmr _ => none
  | .mmw _ _ => none
  | .dmr _ _ => none
  | .dmw _ _ => none
  | .hostCompletion _ => none
  | .qload _ => none
  | .mmioerrClear => none
  | .partitionTableWrite _ _ => none
  | .osrefuseClear => none
  | .queueSettings => none
  | .translationInvalidation => none
  | .invalidationAck => none
  | .partitionReset => none
  | .modulePowerLimit => none
  | .firmwareUpdate => none
  | .attestation => none
  | .measurementExtend => none
  | .ownershipRelease => none
  | .enrolment => none
  | .ucieModuleFail _ => none
  | .flitReceive _ => none
  | .portDown _ => none
  | .abortToken _ _ => none
  | .mtcrAsid _ _ => none
  | .mailboxRequestComplete => none
  | .firmwareCoreReturn _ => none
  | .correctedError _ => none
  | .coreLogicError _ => none
  | .qseqMsgIntervalEnd _ => none

/-- A well-formed instruction passes every decode check. -/
abbrev Instr.WellFormed (i : Instr) : Prop := i.check = none

end Sys2Proof
end

