-- ==== Sys2Proof/Decode.lean ====
section
/-! DEFINITION. Decoding of instruction words (R37 to R54) and, after it, the encoder.

A word is a natural number below 2^32, bit 31 its most significant (R37). The decoder looks at the major opcode, then at
the function fields, then at the fields that must be zero, and last at the checks of `Instr.check`. -/

namespace Sys2Proof

/-- Bits [lo + len - 1 : lo] of a word as a number. -/
def field (w lo len : Nat) : Nat := w / 2 ^ lo % 2 ^ len

/-- Bits [lo + n - 1 : lo] of a word as an operand field. -/
def bits {n : Nat} (w lo : Nat) (_len : Nat) : BitVec n := BitVec.ofNat n (field w lo n)

/-- The instruction of a word, before the checks of `Instr.check`. -/
abbrev RawDecode := Except DecodeError Instr

/-- The fields that must be zero are zero. -/
def zeros (ok : Bool) (i : Instr) : RawDecode := if ok then .ok i else .error .nonzeroField

/-- Major 0x01: ADD, SUB, AND, OR, XOR, ANDN, SHL, SHR, SAR, ROL, ROR, MUL, MULH, MULHN, DIV, DIVN and the rest of its functions. -/
def decode01 (w : Nat) : RawDecode :=
  if field w 0 10 == 0 then .ok (.add (bits w 20 5) (bits w 15 5) (bits w 10 5)) else
  if field w 0 10 == 1 then .ok (.sub (bits w 20 5) (bits w 15 5) (bits w 10 5)) else
  if field w 0 10 == 2 then .ok (.and (bits w 20 5) (bits w 15 5) (bits w 10 5)) else
  if field w 0 10 == 3 then .ok (.or (bits w 20 5) (bits w 15 5) (bits w 10 5)) else
  if field w 0 10 == 4 then .ok (.xor (bits w 20 5) (bits w 15 5) (bits w 10 5)) else
  if field w 0 10 == 5 then .ok (.andn (bits w 20 5) (bits w 15 5) (bits w 10 5)) else
  if field w 0 10 == 6 then .ok (.shl (bits w 20 5) (bits w 15 5) (bits w 10 5)) else
  if field w 0 10 == 7 then .ok (.shr (bits w 20 5) (bits w 15 5) (bits w 10 5)) else
  if field w 0 10 == 8 then .ok (.sar (bits w 20 5) (bits w 15 5) (bits w 10 5)) else
  if field w 0 10 == 9 then .ok (.rol (bits w 20 5) (bits w 15 5) (bits w 10 5)) else
  if field w 0 10 == 10 then .ok (.ror (bits w 20 5) (bits w 15 5) (bits w 10 5)) else
  if field w 0 10 == 11 then .ok (.mul (bits w 20 5) (bits w 15 5) (bits w 10 5)) else
  if field w 0 10 == 12 then .ok (.mulh (bits w 20 5) (bits w 15 5) (bits w 10 5)) else
  if field w 0 10 == 13 then .ok (.mulhn (bits w 20 5) (bits w 15 5) (bits w 10 5)) else
  if field w 0 10 == 14 then .ok (.div (bits w 20 5) (bits w 15 5) (bits w 10 5)) else
  if field w 0 10 == 15 then .ok (.divn (bits w 20 5) (bits w 15 5) (bits w 10 5)) else
  if field w 0 10 == 16 then .ok (.rem (bits w 20 5) (bits w 15 5) (bits w 10 5)) else
  if field w 0 10 == 17 then .ok (.remn (bits w 20 5) (bits w 15 5) (bits w 10 5)) else
  if field w 0 10 == 18 then .ok (.min (bits w 20 5) (bits w 15 5) (bits w 10 5)) else
  if field w 0 10 == 19 then .ok (.max (bits w 20 5) (bits w 15 5) (bits w 10 5)) else
  if field w 0 10 == 20 then .ok (.minn (bits w 20 5) (bits w 15 5) (bits w 10 5)) else
  if field w 0 10 == 21 then .ok (.maxn (bits w 20 5) (bits w 15 5) (bits w 10 5)) else
  if field w 0 10 == 22 then .ok (.slt (bits w 20 5) (bits w 15 5) (bits w 10 5)) else
  if field w 0 10 == 23 then .ok (.sltn (bits w 20 5) (bits w 15 5) (bits w 10 5)) else
  if field w 0 10 == 24 then zeros (field w 10 5 == 0) (.clz (bits w 20 5) (bits w 15 5)) else
  if field w 0 10 == 25 then zeros (field w 10 5 == 0) (.ctz (bits w 20 5) (bits w 15 5)) else
  if field w 0 10 == 26 then zeros (field w 10 5 == 0) (.popc (bits w 20 5) (bits w 15 5)) else
  if field w 0 10 == 27 then zeros (field w 10 5 == 0) (.brev (bits w 20 5) (bits w 15 5)) else
  if field w 0 10 == 28 then zeros (field w 10 5 == 0) (.bswap (bits w 20 5) (bits w 15 5)) else
  if field w 0 10 == 29 then .ok (.sext (bits w 20 5) (bits w 15 5) (bits w 10 5)) else
  if field w 0 10 == 30 then .ok (.zext (bits w 20 5) (bits w 15 5) (bits w 10 5)) else
  if field w 0 10 == 31 then .ok (.addw (bits w 20 5) (bits w 15 5) (bits w 10 5)) else
  if field w 0 10 == 32 then .ok (.subw (bits w 20 5) (bits w 15 5) (bits w 10 5)) else .error .badFunction

/-- Major 0x02: ADDI. -/
def decode02 (w : Nat) : RawDecode :=
  .ok (.addi (bits w 20 5) (bits w 15 5) (bits w 0 15))

/-- Major 0x03: ANDI. -/
def decode03 (w : Nat) : RawDecode :=
  .ok (.andi (bits w 20 5) (bits w 15 5) (bits w 0 15))

/-- Major 0x04: ORI. -/
def decode04 (w : Nat) : RawDecode :=
  .ok (.ori (bits w 20 5) (bits w 15 5) (bits w 0 15))

/-- Major 0x05: XORI. -/
def decode05 (w : Nat) : RawDecode :=
  .ok (.xori (bits w 20 5) (bits w 15 5) (bits w 0 15))

/-- Major 0x06: SHLI, SHRI, SARI, ROLI. -/
def decode06 (w : Nat) : RawDecode :=
  if field w 13 2 == 0 then zeros (field w 6 7 == 0) (.shli (bits w 20 5) (bits w 15 5) (bits w 0 6)) else
  if field w 13 2 == 1 then zeros (field w 6 7 == 0) (.shri (bits w 20 5) (bits w 15 5) (bits w 0 6)) else
  if field w 13 2 == 2 then zeros (field w 6 7 == 0) (.sari (bits w 20 5) (bits w 15 5) (bits w 0 6)) else
  if field w 13 2 == 3 then zeros (field w 6 7 == 0) (.roli (bits w 20 5) (bits w 15 5) (bits w 0 6)) else .error .badFunction

/-- Major 0x07: SLTI. -/
def decode07 (w : Nat) : RawDecode :=
  .ok (.slti (bits w 20 5) (bits w 15 5) (bits w 0 15))

/-- Major 0x08: SLTNI. -/
def decode08 (w : Nat) : RawDecode :=
  .ok (.sltni (bits w 20 5) (bits w 15 5) (bits w 0 15))

/-- Major 0x09: LUI. -/
def decode09 (w : Nat) : RawDecode :=
  .ok (.lui (bits w 20 5) (bits w 0 20))

/-- Major 0x0A: ADDPC. -/
def decode0A (w : Nat) : RawDecode :=
  .ok (.addpc (bits w 20 5) (bits w 0 20))

/-- Major 0x0B: LUIH. -/
def decode0B (w : Nat) : RawDecode :=
  .ok (.luih (bits w 20 5) (bits w 0 20))

/-- Major 0x0C: FADD, FSUB, FMUL, FDIV, FSQRT, FMIN, FMAX, FMAD, FMSB, FNMA, FCMPEQ, FCMPLT, FCMPLE and the rest of its functions. -/
def decode0C (w : Nat) : RawDecode :=
  if field w 0 8 == 0 then .ok (.fadd (bits w 20 5) (bits w 15 5) (bits w 10 5) (bits w 8 2)) else
  if field w 0 8 == 1 then .ok (.fsub (bits w 20 5) (bits w 15 5) (bits w 10 5) (bits w 8 2)) else
  if field w 0 8 == 2 then .ok (.fmul (bits w 20 5) (bits w 15 5) (bits w 10 5) (bits w 8 2)) else
  if field w 0 8 == 3 then .ok (.fdiv (bits w 20 5) (bits w 15 5) (bits w 10 5) (bits w 8 2)) else
  if field w 0 8 == 4 then zeros (field w 10 5 == 0) (.fsqrt (bits w 20 5) (bits w 15 5) (bits w 8 2)) else
  if field w 0 8 == 5 then .ok (.fmin (bits w 20 5) (bits w 15 5) (bits w 10 5) (bits w 8 2)) else
  if field w 0 8 == 6 then .ok (.fmax (bits w 20 5) (bits w 15 5) (bits w 10 5) (bits w 8 2)) else
  if field w 0 8 == 7 then .ok (.fmad (bits w 20 5) (bits w 15 5) (bits w 10 5) (bits w 8 2)) else
  if field w 0 8 == 8 then .ok (.fmsb (bits w 20 5) (bits w 15 5) (bits w 10 5) (bits w 8 2)) else
  if field w 0 8 == 9 then .ok (.fnma (bits w 20 5) (bits w 15 5) (bits w 10 5) (bits w 8 2)) else
  if field w 0 8 == 10 then .ok (.fcmpeq (bits w 20 5) (bits w 15 5) (bits w 10 5) (bits w 8 2)) else
  if field w 0 8 == 11 then .ok (.fcmplt (bits w 20 5) (bits w 15 5) (bits w 10 5) (bits w 8 2)) else
  if field w 0 8 == 12 then .ok (.fcmple (bits w 20 5) (bits w 15 5) (bits w 10 5) (bits w 8 2)) else
  if field w 0 8 == 13 then .ok (.fcmpun (bits w 20 5) (bits w 15 5) (bits w 10 5) (bits w 8 2)) else
  if field w 0 8 == 14 then zeros (field w 10 5 == 0) (.fclass (bits w 20 5) (bits w 15 5) (bits w 8 2)) else
  if field w 0 8 == 15 then zeros (field w 10 5 == 0) (.fcvti (bits w 20 5) (bits w 15 5) (bits w 8 2)) else
  if field w 0 8 == 16 then zeros (field w 10 5 == 0) (.fcvtn (bits w 20 5) (bits w 15 5) (bits w 8 2)) else
  if field w 0 8 == 17 then zeros (field w 10 5 == 0) (.fcvtf (bits w 20 5) (bits w 15 5) (bits w 8 2)) else
  if field w 0 8 == 18 then zeros (field w 10 5 == 0) (.fcvtfn (bits w 20 5) (bits w 15 5) (bits w 8 2)) else
  if field w 0 8 == 19 then zeros (field w 12 3 == 0) (.fcvtp (bits w 20 5) (bits w 15 5) (bits w 10 2) (bits w 8 2)) else
  if field w 0 8 == 20 then .ok (.fsgn (bits w 20 5) (bits w 15 5) (bits w 10 5) (bits w 8 2)) else
  if field w 0 8 == 21 then .ok (.fsgnn (bits w 20 5) (bits w 15 5) (bits w 10 5) (bits w 8 2)) else
  if field w 0 8 == 22 then .ok (.fsgnx (bits w 20 5) (bits w 15 5) (bits w 10 5) (bits w 8 2)) else
  if field w 0 8 == 23 then zeros (field w 10 5 == 0) (.fabs (bits w 20 5) (bits w 15 5) (bits w 8 2)) else
  if field w 0 8 == 24 then zeros (field w 10 5 == 0) (.fneg (bits w 20 5) (bits w 15 5) (bits w 8 2)) else .error .badFunction

/-- Major 0x10: BEQ. -/
def decode10 (w : Nat) : RawDecode :=
  .ok (.beq (bits w 20 5) (bits w 15 5) (bits w 0 15))

/-- Major 0x11: BNE. -/
def decode11 (w : Nat) : RawDecode :=
  .ok (.bne (bits w 20 5) (bits w 15 5) (bits w 0 15))

/-- Major 0x12: BLT. -/
def decode12 (w : Nat) : RawDecode :=
  .ok (.blt (bits w 20 5) (bits w 15 5) (bits w 0 15))

/-- Major 0x13: BGE. -/
def decode13 (w : Nat) : RawDecode :=
  .ok (.bge (bits w 20 5) (bits w 15 5) (bits w 0 15))

/-- Major 0x14: BLTN. -/
def decode14 (w : Nat) : RawDecode :=
  .ok (.bltn (bits w 20 5) (bits w 15 5) (bits w 0 15))

/-- Major 0x15: BGEN. -/
def decode15 (w : Nat) : RawDecode :=
  .ok (.bgen (bits w 20 5) (bits w 15 5) (bits w 0 15))

/-- Major 0x16: JAL. -/
def decode16 (w : Nat) : RawDecode :=
  .ok (.jal (bits w 0 25))

/-- Major 0x17: JALR. -/
def decode17 (w : Nat) : RawDecode :=
  .ok (.jalr (bits w 20 5) (bits w 15 5) (bits w 0 15))

/-- Major 0x18: BMZ. -/
def decode18 (w : Nat) : RawDecode :=
  zeros (field w 15 5 == 0) (.bmz (bits w 20 5) (bits w 0 15))

/-- Major 0x19: BMNZ. -/
def decode19 (w : Nat) : RawDecode :=
  zeros (field w 15 5 == 0) (.bmnz (bits w 20 5) (bits w 0 15))

/-- Major 0x1A: TRAP, RETT, WAITE, YIELD, EXIT, BRK, FENCEI. -/
def decode1A (w : Nat) : RawDecode :=
  if field w 0 10 == 0 then zeros (field w 10 5 == 0 && field w 20 5 == 0) (.trap (bits w 15 5)) else
  if field w 0 10 == 1 then zeros (field w 10 15 == 0) (.rett) else
  if field w 0 10 == 2 then zeros (field w 10 5 == 0 && field w 20 5 == 0) (.waite (bits w 15 5)) else
  if field w 0 10 == 3 then zeros (field w 10 15 == 0) (.yield) else
  if field w 0 10 == 4 then zeros (field w 10 15 == 0) (.exit) else
  if field w 0 10 == 5 then zeros (field w 10 15 == 0) (.brk) else
  if field w 0 10 == 6 then zeros (field w 10 15 == 0) (.fencei) else .error .badFunction

/-- Major 0x1B: MFCR. -/
def decode1B (w : Nat) : RawDecode :=
  zeros (field w 10 10 == 0) (.mfcr (bits w 20 5) (bits w 0 10))

/-- Major 0x1C: MTCR. -/
def decode1C (w : Nat) : RawDecode :=
  zeros (field w 10 5 == 0 && field w 20 5 == 0) (.mtcr (bits w 15 5) (bits w 0 10))

/-- Major 0x1E: SETVL. -/
def decode1E (w : Nat) : RawDecode :=
  zeros (field w 2 8 == 0) (.setvl (bits w 20 5) (bits w 15 5) (bits w 10 5) (bits w 1 1) (bits w 0 1))

/-- Major 0x1F: SETVT. -/
def decode1F (w : Nat) : RawDecode :=
  zeros (field w 0 15 == 0) (.setvt (bits w 20 5) (bits w 15 5))

/-- Major 0x20: SETVTI. -/
def decode20 (w : Nat) : RawDecode :=
  zeros (field w 15 5 == 0) (.setvti (bits w 20 5) (bits w 14 1) (bits w 11 3) (bits w 7 4) (bits w 3 4) (bits w 0 3))

/-- Major 0x21: SETBASE. -/
def decode21 (w : Nat) : RawDecode :=
  .ok (.setbase (bits w 20 5) (bits w 15 5) (bits w 0 15))

/-- Major 0x22: SETTILE. -/
def decode22 (w : Nat) : RawDecode :=
  zeros (field w 0 10 == 0) (.settile (bits w 20 5) (bits w 15 5) (bits w 10 5))

/-- Major 0x23: VLENQ. -/
def decode23 (w : Nat) : RawDecode :=
  zeros (field w 0 15 == 0) (.vlenq (bits w 20 5) (bits w 15 5))

/-- Major 0x24: TMMA, TMMA_OVR. -/
def decode24 (w : Nat) : RawDecode :=
  if field w 10 2 == 0 then zeros (field w 0 9 == 0) (.tmma (bits w 19 6) (bits w 14 5) (bits w 12 2) (bits w 9 1)) else
  if field w 10 2 == 1 then zeros (field w 0 9 == 0) (.tmmaOvr (bits w 19 6) (bits w 14 5) (bits w 12 2) (bits w 9 1)) else .error .badFunction

/-- Major 0x25: TZERO, TLDACC, TSTACC, TSAVE, TRESTORE, TTOV, TFROMV, TREL. -/
def decode25 (w : Nat) : RawDecode :=
  if field w 0 4 == 0 then zeros (field w 4 16 == 0 && field w 22 3 == 0) (.tzero (bits w 20 2)) else
  if field w 0 4 == 1 then zeros (field w 4 6 == 0 && field w 22 3 == 0) (.tldacc (bits w 20 2) (bits w 15 5) (bits w 10 5)) else
  if field w 0 4 == 2 then zeros (field w 8 2 == 0 && field w 22 3 == 0) (.tstacc (bits w 20 2) (bits w 15 5) (bits w 10 5) (bits w 4 4)) else
  if field w 0 4 == 3 then zeros (field w 4 11 == 0 && field w 22 3 == 0) (.tsave (bits w 20 2) (bits w 15 5)) else
  if field w 0 4 == 4 then zeros (field w 4 11 == 0 && field w 22 3 == 0) (.trestore (bits w 20 2) (bits w 15 5)) else
  if field w 0 4 == 5 then zeros (field w 10 10 == 0 && field w 22 3 == 0) (.ttov (bits w 20 2) (bits w 4 6)) else
  if field w 0 4 == 6 then zeros (field w 10 10 == 0 && field w 22 3 == 0) (.tfromv (bits w 20 2) (bits w 4 6)) else
  if field w 0 4 == 7 then zeros (field w 4 21 == 0) (.trel) else .error .badFunction

/-- Major 0x26: ALLRED, REDSCAT, ALLGATH, BCAST, CABORT, CATTEMPT. -/
def decode26 (w : Nat) : RawDecode :=
  if field w 0 4 == 0 then zeros (field w 20 5 == 0) (.allred (bits w 15 5) (bits w 10 5) (bits w 8 2) (bits w 4 4)) else
  if field w 0 4 == 1 then zeros (field w 20 5 == 0) (.redscat (bits w 15 5) (bits w 10 5) (bits w 8 2) (bits w 4 4)) else
  if field w 0 4 == 2 then zeros (field w 4 6 == 0 && field w 20 5 == 0) (.allgath (bits w 15 5) (bits w 10 5)) else
  if field w 0 4 == 3 then zeros (field w 4 6 == 0 && field w 20 5 == 0) (.bcast (bits w 15 5) (bits w 10 5)) else
  if field w 0 4 == 4 then zeros (field w 4 6 == 0 && field w 20 5 == 0) (.cabort (bits w 15 5) (bits w 10 5)) else
  if field w 0 4 == 5 then zeros (field w 4 6 == 0) (.cattempt (bits w 20 5) (bits w 15 5) (bits w 10 5)) else .error .badFunction

/-- Major 0x27: TLDA. -/
def decode27 (w : Nat) : RawDecode :=
  zeros (field w 0 14 == 0) (.tlda (bits w 19 6) (bits w 14 5))

/-- Major 0x28: VADD. -/
def decode28 (w : Nat) : RawDecode :=
  .ok (.vadd (bits w 23 2) (bits w 17 6) (bits w 11 6) (bits w 5 6) (bits w 1 4) (bits w 0 1))

/-- Major 0x29: VSUB. -/
def decode29 (w : Nat) : RawDecode :=
  .ok (.vsub (bits w 23 2) (bits w 17 6) (bits w 11 6) (bits w 5 6) (bits w 1 4) (bits w 0 1))

/-- Major 0x2A: VRSUB. -/
def decode2A (w : Nat) : RawDecode :=
  .ok (.vrsub (bits w 23 2) (bits w 17 6) (bits w 11 6) (bits w 5 6) (bits w 1 4) (bits w 0 1))

/-- Major 0x2B: VMUL. -/
def decode2B (w : Nat) : RawDecode :=
  .ok (.vmul (bits w 23 2) (bits w 17 6) (bits w 11 6) (bits w 5 6) (bits w 1 4) (bits w 0 1))

/-- Major 0x2C: VMULH. -/
def decode2C (w : Nat) : RawDecode :=
  .ok (.vmulh (bits w 23 2) (bits w 17 6) (bits w 11 6) (bits w 5 6) (bits w 1 4) (bits w 0 1))

/-- Major 0x2D: VDIV. -/
def decode2D (w : Nat) : RawDecode :=
  .ok (.vdiv (bits w 23 2) (bits w 17 6) (bits w 11 6) (bits w 5 6) (bits w 1 4) (bits w 0 1))

/-- Major 0x2E: VREM. -/
def decode2E (w : Nat) : RawDecode :=
  .ok (.vrem (bits w 23 2) (bits w 17 6) (bits w 11 6) (bits w 5 6) (bits w 1 4) (bits w 0 1))

/-- Major 0x2F: VMIN. -/
def decode2F (w : Nat) : RawDecode :=
  .ok (.vmin (bits w 23 2) (bits w 17 6) (bits w 11 6) (bits w 5 6) (bits w 1 4) (bits w 0 1))

/-- Major 0x30: VMAX. -/
def decode30 (w : Nat) : RawDecode :=
  .ok (.vmax (bits w 23 2) (bits w 17 6) (bits w 11 6) (bits w 5 6) (bits w 1 4) (bits w 0 1))

/-- Major 0x31: VFMA. -/
def decode31 (w : Nat) : RawDecode :=
  .ok (.vfma (bits w 23 2) (bits w 17 6) (bits w 11 6) (bits w 5 6) (bits w 1 4) (bits w 0 1))

/-- Major 0x32: VFMS. -/
def decode32 (w : Nat) : RawDecode :=
  .ok (.vfms (bits w 23 2) (bits w 17 6) (bits w 11 6) (bits w 5 6) (bits w 1 4) (bits w 0 1))

/-- Major 0x33: VFNMA. -/
def decode33 (w : Nat) : RawDecode :=
  .ok (.vfnma (bits w 23 2) (bits w 17 6) (bits w 11 6) (bits w 5 6) (bits w 1 4) (bits w 0 1))

/-- Major 0x34: VAND. -/
def decode34 (w : Nat) : RawDecode :=
  .ok (.vand (bits w 23 2) (bits w 17 6) (bits w 11 6) (bits w 5 6) (bits w 1 4) (bits w 0 1))

/-- Major 0x35: VOR. -/
def decode35 (w : Nat) : RawDecode :=
  .ok (.vor (bits w 23 2) (bits w 17 6) (bits w 11 6) (bits w 5 6) (bits w 1 4) (bits w 0 1))

/-- Major 0x36: VXOR. -/
def decode36 (w : Nat) : RawDecode :=
  .ok (.vxor (bits w 23 2) (bits w 17 6) (bits w 11 6) (bits w 5 6) (bits w 1 4) (bits w 0 1))

/-- Major 0x37: VSHL. -/
def decode37 (w : Nat) : RawDecode :=
  .ok (.vshl (bits w 23 2) (bits w 17 6) (bits w 11 6) (bits w 5 6) (bits w 1 4) (bits w 0 1))

/-- Major 0x38: VSHR. -/
def decode38 (w : Nat) : RawDecode :=
  .ok (.vshr (bits w 23 2) (bits w 17 6) (bits w 11 6) (bits w 5 6) (bits w 1 4) (bits w 0 1))

/-- Major 0x39: VSAR. -/
def decode39 (w : Nat) : RawDecode :=
  .ok (.vsar (bits w 23 2) (bits w 17 6) (bits w 11 6) (bits w 5 6) (bits w 1 4) (bits w 0 1))

/-- Major 0x3A: VADC. -/
def decode3A (w : Nat) : RawDecode :=
  .ok (.vadc (bits w 23 2) (bits w 17 6) (bits w 11 6) (bits w 5 6) (bits w 1 4) (bits w 0 1))

/-- Major 0x3B: VSBC. -/
def decode3B (w : Nat) : RawDecode :=
  .ok (.vsbc (bits w 23 2) (bits w 17 6) (bits w 11 6) (bits w 5 6) (bits w 1 4) (bits w 0 1))

/-- Major 0x3C: VCMPEQ. -/
def decode3C (w : Nat) : RawDecode :=
  .ok (.vcmpeq (bits w 23 2) (bits w 17 6) (bits w 11 6) (bits w 5 6) (bits w 1 4) (bits w 0 1))

/-- Major 0x3D: VCMPNE. -/
def decode3D (w : Nat) : RawDecode :=
  .ok (.vcmpne (bits w 23 2) (bits w 17 6) (bits w 11 6) (bits w 5 6) (bits w 1 4) (bits w 0 1))

/-- Major 0x3E: VCMPLT. -/
def decode3E (w : Nat) : RawDecode :=
  .ok (.vcmplt (bits w 23 2) (bits w 17 6) (bits w 11 6) (bits w 5 6) (bits w 1 4) (bits w 0 1))

/-- Major 0x3F: VCMPLE. -/
def decode3F (w : Nat) : RawDecode :=
  .ok (.vcmple (bits w 23 2) (bits w 17 6) (bits w 11 6) (bits w 5 6) (bits w 1 4) (bits w 0 1))

/-- Major 0x40: VCMPGT. -/
def decode40 (w : Nat) : RawDecode :=
  .ok (.vcmpgt (bits w 23 2) (bits w 17 6) (bits w 11 6) (bits w 5 6) (bits w 1 4) (bits w 0 1))

/-- Major 0x41: VCMPGE. -/
def decode41 (w : Nat) : RawDecode :=
  .ok (.vcmpge (bits w 23 2) (bits w 17 6) (bits w 11 6) (bits w 5 6) (bits w 1 4) (bits w 0 1))

/-- Major 0x42: VCMPUN. -/
def decode42 (w : Nat) : RawDecode :=
  .ok (.vcmpun (bits w 23 2) (bits w 17 6) (bits w 11 6) (bits w 5 6) (bits w 1 4) (bits w 0 1))

/-- Major 0x43: VMERGE. -/
def decode43 (w : Nat) : RawDecode :=
  .ok (.vmerge (bits w 23 2) (bits w 17 6) (bits w 11 6) (bits w 5 6) (bits w 1 4) (bits w 0 1))

/-- Major 0x44: VABS, VNEG, VNOT, VSQRT, VRSQE, VRCPE, VEXP2, VLOG2, VSIGM, VCLZ, VPOPC. -/
def decode44 (w : Nat) : RawDecode :=
  if field w 5 6 == 0 then zeros (field w 23 2 == 0) (.vabs (bits w 17 6) (bits w 11 6) (bits w 1 4) (bits w 0 1)) else
  if field w 5 6 == 1 then zeros (field w 23 2 == 0) (.vneg (bits w 17 6) (bits w 11 6) (bits w 1 4) (bits w 0 1)) else
  if field w 5 6 == 2 then zeros (field w 23 2 == 0) (.vnot (bits w 17 6) (bits w 11 6) (bits w 1 4) (bits w 0 1)) else
  if field w 5 6 == 3 then zeros (field w 23 2 == 0) (.vsqrt (bits w 17 6) (bits w 11 6) (bits w 1 4) (bits w 0 1)) else
  if field w 5 6 == 4 then zeros (field w 23 2 == 0) (.vrsqe (bits w 17 6) (bits w 11 6) (bits w 1 4) (bits w 0 1)) else
  if field w 5 6 == 5 then zeros (field w 23 2 == 0) (.vrcpe (bits w 17 6) (bits w 11 6) (bits w 1 4) (bits w 0 1)) else
  if field w 5 6 == 6 then zeros (field w 23 2 == 0) (.vexp2 (bits w 17 6) (bits w 11 6) (bits w 1 4) (bits w 0 1)) else
  if field w 5 6 == 7 then zeros (field w 23 2 == 0) (.vlog2 (bits w 17 6) (bits w 11 6) (bits w 1 4) (bits w 0 1)) else
  if field w 5 6 == 8 then zeros (field w 23 2 == 0) (.vsigm (bits w 17 6) (bits w 11 6) (bits w 1 4) (bits w 0 1)) else
  if field w 5 6 == 9 then zeros (field w 23 2 == 0) (.vclz (bits w 17 6) (bits w 11 6) (bits w 1 4) (bits w 0 1)) else
  if field w 5 6 == 10 then zeros (field w 23 2 == 0) (.vpopc (bits w 17 6) (bits w 11 6) (bits w 1 4) (bits w 0 1)) else .error .badFunction

/-- Major 0x45: VCVT. -/
def decode45 (w : Nat) : RawDecode :=
  zeros (field w 5 6 == 0 && field w 23 2 == 0) (.vcvt (bits w 17 6) (bits w 11 6) (bits w 1 4) (bits w 0 1))

/-- Major 0x46: VMV. -/
def decode46 (w : Nat) : RawDecode :=
  zeros (field w 11 6 == 0) (.vmv (bits w 23 2) (bits w 17 6) (bits w 5 6) (bits w 1 4) (bits w 0 1))

/-- Major 0x47: VID. -/
def decode47 (w : Nat) : RawDecode :=
  zeros (field w 5 12 == 0 && field w 23 2 == 0) (.vid (bits w 17 6) (bits w 1 4) (bits w 0 1))

/-- Major 0x48: VSLUP. -/
def decode48 (w : Nat) : RawDecode :=
  .ok (.vslup (bits w 23 2) (bits w 17 6) (bits w 11 6) (bits w 5 6) (bits w 1 4) (bits w 0 1))

/-- Major 0x49: VSLDN. -/
def decode49 (w : Nat) : RawDecode :=
  .ok (.vsldn (bits w 23 2) (bits w 17 6) (bits w 11 6) (bits w 5 6) (bits w 1 4) (bits w 0 1))

/-- Major 0x4A: VSL1UP. -/
def decode4A (w : Nat) : RawDecode :=
  .ok (.vsl1up (bits w 23 2) (bits w 17 6) (bits w 11 6) (bits w 5 6) (bits w 1 4) (bits w 0 1))

/-- Major 0x4B: VSL1DN. -/
def decode4B (w : Nat) : RawDecode :=
  .ok (.vsl1dn (bits w 23 2) (bits w 17 6) (bits w 11 6) (bits w 5 6) (bits w 1 4) (bits w 0 1))

/-- Major 0x4C: VPERM. -/
def decode4C (w : Nat) : RawDecode :=
  zeros (field w 23 2 == 0) (.vperm (bits w 17 6) (bits w 11 6) (bits w 5 6) (bits w 1 4) (bits w 0 1))

/-- Major 0x4D: VCOMP. -/
def decode4D (w : Nat) : RawDecode :=
  zeros (field w 5 6 == 0 && field w 23 2 == 0) (.vcomp (bits w 17 6) (bits w 11 6) (bits w 1 4) (bits w 0 1))

/-- Major 0x4E: VIOTA. -/
def decode4E (w : Nat) : RawDecode :=
  zeros (field w 5 12 == 0 && field w 23 2 == 0) (.viota (bits w 17 6) (bits w 1 4) (bits w 0 1))

/-- Major 0x4F: VDOT4. -/
def decode4F (w : Nat) : RawDecode :=
  .ok (.vdot4 (bits w 23 2) (bits w 17 6) (bits w 11 6) (bits w 5 6) (bits w 1 4) (bits w 0 1))

/-- Major 0x50: VDOT8. -/
def decode50 (w : Nat) : RawDecode :=
  .ok (.vdot8 (bits w 23 2) (bits w 17 6) (bits w 11 6) (bits w 5 6) (bits w 1 4) (bits w 0 1))

/-- Major 0x51: VREDSUM. -/
def decode51 (w : Nat) : RawDecode :=
  .ok (.vredsum (bits w 23 2) (bits w 17 6) (bits w 11 6) (bits w 5 6) (bits w 1 4) (bits w 0 1))

/-- Major 0x52: VREDMAX. -/
def decode52 (w : Nat) : RawDecode :=
  .ok (.vredmax (bits w 23 2) (bits w 17 6) (bits w 11 6) (bits w 5 6) (bits w 1 4) (bits w 0 1))

/-- Major 0x53: VREDMIN. -/
def decode53 (w : Nat) : RawDecode :=
  .ok (.vredmin (bits w 23 2) (bits w 17 6) (bits w 11 6) (bits w 5 6) (bits w 1 4) (bits w 0 1))

/-- Major 0x54: VREDAND. -/
def decode54 (w : Nat) : RawDecode :=
  .ok (.vredand (bits w 23 2) (bits w 17 6) (bits w 11 6) (bits w 5 6) (bits w 1 4) (bits w 0 1))

/-- Major 0x55: VREDOR. -/
def decode55 (w : Nat) : RawDecode :=
  .ok (.vredor (bits w 23 2) (bits w 17 6) (bits w 11 6) (bits w 5 6) (bits w 1 4) (bits w 0 1))

/-- Major 0x56: VREDXOR. -/
def decode56 (w : Nat) : RawDecode :=
  .ok (.vredxor (bits w 23 2) (bits w 17 6) (bits w 11 6) (bits w 5 6) (bits w 1 4) (bits w 0 1))

/-- Major 0x57: VTOPM. -/
def decode57 (w : Nat) : RawDecode :=
  .ok (.vtopm (bits w 23 2) (bits w 17 6) (bits w 11 6) (bits w 5 6) (bits w 1 4) (bits w 0 1))

/-- Major 0x58: VEXT. -/
def decode58 (w : Nat) : RawDecode :=
  zeros (field w 1 4 == 0 && field w 22 1 == 0) (.vext (bits w 23 2) (bits w 17 5) (bits w 11 6) (bits w 5 6) (bits w 0 1))

/-- Major 0x59: VINS. -/
def decode59 (w : Nat) : RawDecode :=
  zeros (field w 1 4 == 0 && field w 16 1 == 0) (.vins (bits w 23 2) (bits w 17 6) (bits w 11 5) (bits w 5 6) (bits w 0 1))

/-- Major 0x5A: MAND, MOR, MXOR, MANDN, MORN, MNOT, MMOV, MSET, MCLR, MSHL1, MSHR1, MFROMX. -/
def decode5A (w : Nat) : RawDecode :=
  if field w 1 4 == 0 && field w 23 1 == 0 then zeros (field w 24 1 == 0) (.mand (bits w 17 6) (bits w 11 6) (bits w 5 6) (bits w 0 1)) else
  if field w 1 4 == 1 && field w 23 1 == 0 then zeros (field w 24 1 == 0) (.mor (bits w 17 6) (bits w 11 6) (bits w 5 6) (bits w 0 1)) else
  if field w 1 4 == 2 && field w 23 1 == 0 then zeros (field w 24 1 == 0) (.mxor (bits w 17 6) (bits w 11 6) (bits w 5 6) (bits w 0 1)) else
  if field w 1 4 == 3 && field w 23 1 == 0 then zeros (field w 24 1 == 0) (.mandn (bits w 17 6) (bits w 11 6) (bits w 5 6) (bits w 0 1)) else
  if field w 1 4 == 4 && field w 23 1 == 0 then zeros (field w 24 1 == 0) (.morn (bits w 17 6) (bits w 11 6) (bits w 5 6) (bits w 0 1)) else
  if field w 1 4 == 5 && field w 23 1 == 0 then zeros (field w 5 6 == 0 && field w 24 1 == 0) (.mnot (bits w 17 6) (bits w 11 6) (bits w 0 1)) else
  if field w 1 4 == 6 && field w 23 1 == 0 then zeros (field w 5 6 == 0 && field w 24 1 == 0) (.mmov (bits w 17 6) (bits w 11 6) (bits w 0 1)) else
  if field w 1 4 == 7 && field w 23 1 == 0 then zeros (field w 5 12 == 0 && field w 24 1 == 0) (.mset (bits w 17 6) (bits w 0 1)) else
  if field w 1 4 == 8 && field w 23 1 == 0 then zeros (field w 5 12 == 0 && field w 24 1 == 0) (.mclr (bits w 17 6) (bits w 0 1)) else
  if field w 1 4 == 9 && field w 23 1 == 0 then zeros (field w 5 6 == 0 && field w 24 1 == 0) (.mshl1 (bits w 17 6) (bits w 11 6) (bits w 0 1)) else
  if field w 1 4 == 10 && field w 23 1 == 0 then zeros (field w 5 6 == 0 && field w 24 1 == 0) (.mshr1 (bits w 17 6) (bits w 11 6) (bits w 0 1)) else
  if field w 1 4 == 11 && field w 23 1 == 1 then zeros (field w 10 7 == 0 && field w 24 1 == 0) (.mfromx (bits w 17 6) (bits w 5 5) (bits w 0 1)) else .error .badFunction

/-- Major 0x5B: VMPOP. -/
def decode5B (w : Nat) : RawDecode :=
  zeros (field w 5 6 == 0 && field w 22 3 == 0) (.vmpop (bits w 17 5) (bits w 11 6) (bits w 1 4) (bits w 0 1))

/-- Major 0x5C: VMFIRST. -/
def decode5C (w : Nat) : RawDecode :=
  zeros (field w 5 6 == 0 && field w 22 3 == 0) (.vmfirst (bits w 17 5) (bits w 11 6) (bits w 1 4) (bits w 0 1))

/-- Major 0x5D: VMLAST. -/
def decode5D (w : Nat) : RawDecode :=
  zeros (field w 5 6 == 0 && field w 22 3 == 0) (.vmlast (bits w 17 5) (bits w 11 6) (bits w 1 4) (bits w 0 1))

/-- Major 0x5E: VPICK_MAX, VPICK_MIN. -/
def decode5E (w : Nat) : RawDecode :=
  if field w 5 6 == 0 then zeros (field w 22 3 == 4) (.vpickMax (bits w 17 5) (bits w 11 6) (bits w 1 4) (bits w 0 1)) else
  if field w 5 6 == 1 then zeros (field w 22 3 == 4) (.vpickMin (bits w 17 5) (bits w 11 6) (bits w 1 4) (bits w 0 1)) else .error .badFunction

/-- Major 0x5F: VPUSHQ. -/
def decode5F (w : Nat) : RawDecode :=
  zeros (field w 5 6 == 0 && field w 20 5 == 0) (.vpushq (bits w 17 3) (bits w 11 6) (bits w 1 4) (bits w 0 1))

/-- Major 0x60: VLD. -/
def decode60 (w : Nat) : RawDecode :=
  zeros (field w 5 2 == 0) (.vld (bits w 19 6) (bits w 14 5) (bits w 9 5) (bits w 7 2) (bits w 1 4) (bits w 0 1))

/-- Major 0x61: VLDS. -/
def decode61 (w : Nat) : RawDecode :=
  zeros (field w 5 2 == 0) (.vlds (bits w 19 6) (bits w 14 5) (bits w 9 5) (bits w 7 2) (bits w 1 4) (bits w 0 1))

/-- Major 0x62: VLDX. -/
def decode62 (w : Nat) : RawDecode :=
  .ok (.vldx (bits w 19 6) (bits w 14 5) (bits w 8 6) (bits w 5 3) (bits w 1 4) (bits w 0 1))

/-- Major 0x63: VLDSEG. -/
def decode63 (w : Nat) : RawDecode :=
  .ok (.vldseg (bits w 19 6) (bits w 14 5) (bits w 9 5) (bits w 5 4) (bits w 1 4) (bits w 0 1))

/-- Major 0x64: VST. -/
def decode64 (w : Nat) : RawDecode :=
  zeros (field w 5 1 == 0) (.vst (bits w 19 6) (bits w 14 5) (bits w 9 5) (bits w 8 1) (bits w 6 2) (bits w 1 4) (bits w 0 1))

/-- Major 0x65: VSTS. -/
def decode65 (w : Nat) : RawDecode :=
  zeros (field w 5 1 == 0) (.vsts (bits w 19 6) (bits w 14 5) (bits w 9 5) (bits w 8 1) (bits w 6 2) (bits w 1 4) (bits w 0 1))

/-- Major 0x66: VSTX. -/
def decode66 (w : Nat) : RawDecode :=
  .ok (.vstx (bits w 19 6) (bits w 14 5) (bits w 8 6) (bits w 5 3) (bits w 1 4) (bits w 0 1))

/-- Major 0x67: VSTSEG. -/
def decode67 (w : Nat) : RawDecode :=
  zeros (field w 8 1 == 0) (.vstseg (bits w 19 6) (bits w 14 5) (bits w 9 5) (bits w 5 3) (bits w 1 4) (bits w 0 1))

/-- Major 0x68: VAMO_ADD, VAMO_AND, VAMO_OR, VAMO_XOR, VAMO_MIN, VAMO_MAX, VAMO_SWAP. -/
def decode68 (w : Nat) : RawDecode :=
  if field w 5 3 == 0 then .ok (.vamoAdd (bits w 19 6) (bits w 14 5) (bits w 8 6) (bits w 1 4) (bits w 0 1)) else
  if field w 5 3 == 1 then .ok (.vamoAnd (bits w 19 6) (bits w 14 5) (bits w 8 6) (bits w 1 4) (bits w 0 1)) else
  if field w 5 3 == 2 then .ok (.vamoOr (bits w 19 6) (bits w 14 5) (bits w 8 6) (bits w 1 4) (bits w 0 1)) else
  if field w 5 3 == 3 then .ok (.vamoXor (bits w 19 6) (bits w 14 5) (bits w 8 6) (bits w 1 4) (bits w 0 1)) else
  if field w 5 3 == 4 then .ok (.vamoMin (bits w 19 6) (bits w 14 5) (bits w 8 6) (bits w 1 4) (bits w 0 1)) else
  if field w 5 3 == 5 then .ok (.vamoMax (bits w 19 6) (bits w 14 5) (bits w 8 6) (bits w 1 4) (bits w 0 1)) else
  if field w 5 3 == 6 then .ok (.vamoSwap (bits w 19 6) (bits w 14 5) (bits w 8 6) (bits w 1 4) (bits w 0 1)) else .error .badFunction

/-- Major 0x69: VREDM_SUM, VREDM_MAX, VREDM_MIN, VREDM_AND, VREDM_OR, VREDM_XOR. -/
def decode69 (w : Nat) : RawDecode :=
  if field w 5 3 == 0 then .ok (.vredmSum (bits w 19 6) (bits w 14 5) (bits w 8 6) (bits w 1 4) (bits w 0 1)) else
  if field w 5 3 == 1 then .ok (.vredmMax (bits w 19 6) (bits w 14 5) (bits w 8 6) (bits w 1 4) (bits w 0 1)) else
  if field w 5 3 == 2 then .ok (.vredmMin (bits w 19 6) (bits w 14 5) (bits w 8 6) (bits w 1 4) (bits w 0 1)) else
  if field w 5 3 == 3 then .ok (.vredmAnd (bits w 19 6) (bits w 14 5) (bits w 8 6) (bits w 1 4) (bits w 0 1)) else
  if field w 5 3 == 4 then .ok (.vredmOr (bits w 19 6) (bits w 14 5) (bits w 8 6) (bits w 1 4) (bits w 0 1)) else
  if field w 5 3 == 5 then .ok (.vredmXor (bits w 19 6) (bits w 14 5) (bits w 8 6) (bits w 1 4) (bits w 0 1)) else .error .badFunction

/-- Major 0x6A: VSPILL. -/
def decode6A (w : Nat) : RawDecode :=
  zeros (field w 0 4 == 0) (.vspill (bits w 20 5) (bits w 10 10) (bits w 4 6))

/-- Major 0x6B: VFILL. -/
def decode6B (w : Nat) : RawDecode :=
  zeros (field w 0 4 == 0) (.vfill (bits w 20 5) (bits w 10 10) (bits w 4 6))

/-- Major 0x6C: LDB. -/
def decode6C (w : Nat) : RawDecode :=
  .ok (.ldb (bits w 20 5) (bits w 15 5) (bits w 10 5) (bits w 0 10))

/-- Major 0x6D: LDH. -/
def decode6D (w : Nat) : RawDecode :=
  .ok (.ldh (bits w 20 5) (bits w 15 5) (bits w 10 5) (bits w 0 10))

/-- Major 0x6E: LDW. -/
def decode6E (w : Nat) : RawDecode :=
  .ok (.ldw (bits w 20 5) (bits w 15 5) (bits w 10 5) (bits w 0 10))

/-- Major 0x6F: LDD. -/
def decode6F (w : Nat) : RawDecode :=
  .ok (.ldd (bits w 20 5) (bits w 15 5) (bits w 10 5) (bits w 0 10))

/-- Major 0x70: LDBN. -/
def decode70 (w : Nat) : RawDecode :=
  .ok (.ldbn (bits w 20 5) (bits w 15 5) (bits w 10 5) (bits w 0 10))

/-- Major 0x71: LDHN. -/
def decode71 (w : Nat) : RawDecode :=
  .ok (.ldhn (bits w 20 5) (bits w 15 5) (bits w 10 5) (bits w 0 10))

/-- Major 0x72: LDWN. -/
def decode72 (w : Nat) : RawDecode :=
  .ok (.ldwn (bits w 20 5) (bits w 15 5) (bits w 10 5) (bits w 0 10))

/-- Major 0x73: STB. -/
def decode73 (w : Nat) : RawDecode :=
  .ok (.stb (bits w 20 5) (bits w 15 5) (bits w 10 5) (bits w 0 10))

/-- Major 0x74: STH. -/
def decode74 (w : Nat) : RawDecode :=
  .ok (.sth (bits w 20 5) (bits w 15 5) (bits w 10 5) (bits w 0 10))

/-- Major 0x75: STW. -/
def decode75 (w : Nat) : RawDecode :=
  .ok (.stw (bits w 20 5) (bits w 15 5) (bits w 10 5) (bits w 0 10))

/-- Major 0x76: STD. -/
def decode76 (w : Nat) : RawDecode :=
  .ok (.std (bits w 20 5) (bits w 15 5) (bits w 10 5) (bits w 0 10))

/-- Major 0x77: AMO_ADD, AMO_AND, AMO_OR, AMO_XOR, AMO_MIN, AMO_MAX, AMO_MINN, AMO_MAXN, AMO_SWAP and the rest of its functions. -/
def decode77 (w : Nat) : RawDecode :=
  if field w 0 4 == 0 then .ok (.amoAdd (bits w 20 5) (bits w 15 5) (bits w 10 5) (bits w 5 5) (bits w 4 1)) else
  if field w 0 4 == 1 then .ok (.amoAnd (bits w 20 5) (bits w 15 5) (bits w 10 5) (bits w 5 5) (bits w 4 1)) else
  if field w 0 4 == 2 then .ok (.amoOr (bits w 20 5) (bits w 15 5) (bits w 10 5) (bits w 5 5) (bits w 4 1)) else
  if field w 0 4 == 3 then .ok (.amoXor (bits w 20 5) (bits w 15 5) (bits w 10 5) (bits w 5 5) (bits w 4 1)) else
  if field w 0 4 == 4 then .ok (.amoMin (bits w 20 5) (bits w 15 5) (bits w 10 5) (bits w 5 5) (bits w 4 1)) else
  if field w 0 4 == 5 then .ok (.amoMax (bits w 20 5) (bits w 15 5) (bits w 10 5) (bits w 5 5) (bits w 4 1)) else
  if field w 0 4 == 6 then .ok (.amoMinn (bits w 20 5) (bits w 15 5) (bits w 10 5) (bits w 5 5) (bits w 4 1)) else
  if field w 0 4 == 7 then .ok (.amoMaxn (bits w 20 5) (bits w 15 5) (bits w 10 5) (bits w 5 5) (bits w 4 1)) else
  if field w 0 4 == 8 then .ok (.amoSwap (bits w 20 5) (bits w 15 5) (bits w 10 5) (bits w 5 5) (bits w 4 1)) else
  if field w 0 4 == 9 then .ok (.amoCas (bits w 20 5) (bits w 15 5) (bits w 10 5) (bits w 5 5) (bits w 4 1)) else .error .badFunction

/-- Major 0x78: WLAST, WJOIN, WMAX, WTEST, WWAIT, WSETTLE, WNULL. -/
def decode78 (w : Nat) : RawDecode :=
  if field w 0 10 == 0 then zeros (field w 10 10 == 0) (.wlast (bits w 20 5)) else
  if field w 0 10 == 1 then .ok (.wjoin (bits w 20 5) (bits w 15 5) (bits w 10 5)) else
  if field w 0 10 == 2 then .ok (.wmax (bits w 20 5) (bits w 15 5) (bits w 10 5)) else
  if field w 0 10 == 3 then zeros (field w 10 5 == 0) (.wtest (bits w 20 5) (bits w 15 5)) else
  if field w 0 10 == 4 then zeros (field w 10 5 == 0 && field w 20 5 == 0) (.wwait (bits w 15 5)) else
  if field w 0 10 == 5 then zeros (field w 10 5 == 0 && field w 20 5 == 0) (.wsettle (bits w 15 5)) else
  if field w 0 10 == 6 then zeros (field w 10 10 == 0) (.wnull (bits w 20 5)) else .error .badFunction

/-- Major 0x79: COPY_LINEAR, COPY_BOX, COPY_TILEA, COPY_TILEB, COPY_TILEC, COPY_FILL, COPY_REMOTE. -/
noncomputable def decode79 (w : Nat) : RawDecode :=
  if field w 0 4 == 0 then zeros (field w 6 4 == 0) (.copyLinear (bits w 20 5) (bits w 15 5) (bits w 10 5) (bits w 4 2)) else
  if field w 0 4 == 1 then zeros (field w 6 4 == 0) (.copyBox (bits w 20 5) (bits w 15 5) (bits w 10 5) (bits w 4 2)) else
  if field w 0 4 == 2 then .ok (.copyTilea (bits w 20 5) (bits w 15 5) (bits w 10 5) (bits w 6 4) (bits w 4 2)) else
  if field w 0 4 == 3 then .ok (.copyTileb (bits w 20 5) (bits w 15 5) (bits w 10 5) (bits w 6 4) (bits w 4 2)) else
  if field w 0 4 == 4 then .ok (.copyTilec (bits w 20 5) (bits w 15 5) (bits w 10 5) (bits w 6 4) (bits w 4 2)) else
  if field w 0 4 == 5 then .ok (.copyFill (bits w 20 5) (bits w 15 5) (bits w 10 5) (bits w 6 4) (bits w 4 2)) else
  if field w 0 4 == 6 then zeros (field w 6 4 == 0) (.copyRemote (bits w 20 5) (bits w 15 5) (bits w 10 5) (bits w 4 2)) else .error .badFunction

/-- Major 0x7A: CKICK. -/
noncomputable def decode7A (w : Nat) : RawDecode :=
  zeros (field w 0 15 == 0 && field w 20 5 == 0) (.ckick (bits w 15 5))

/-- Major 0x7B: QBIND_MEM, QBIND_COPY, QBIND_FIFO, QUNBIND, QSTAT, QDRAIN. -/
noncomputable def decode7B (w : Nat) : RawDecode :=
  if field w 0 4 == 0 && field w 7 2 == 0 then zeros (field w 9 6 == 0 && field w 20 5 == 0) (.qbindMem (bits w 15 5) (bits w 4 3)) else
  if field w 0 4 == 0 && field w 7 2 == 1 then zeros (field w 9 16 == 0) (.qbindCopy (bits w 4 3)) else
  if field w 0 4 == 0 && field w 7 2 == 2 then zeros (field w 9 16 == 0) (.qbindFifo (bits w 4 3)) else
  if field w 0 4 == 1 && field w 7 2 == 0 then zeros (field w 9 16 == 0) (.qunbind (bits w 4 3)) else
  if field w 0 4 == 2 && field w 7 2 == 0 then zeros (field w 9 11 == 0) (.qstat (bits w 20 5) (bits w 4 3)) else
  if field w 0 4 == 3 && field w 7 2 == 0 then zeros (field w 9 16 == 0) (.qdrain (bits w 4 3)) else .error .badFunction

/-- Major 0x7C: BINIT, ARRIVE, BWAIT, BEXPECT. -/
noncomputable def decode7C (w : Nat) : RawDecode :=
  if field w 0 4 == 0 then zeros (field w 4 6 == 0 && field w 20 5 == 0) (.binit (bits w 15 5) (bits w 10 5)) else
  if field w 0 4 == 1 then zeros (field w 8 7 == 0 && field w 20 5 == 0) (.arrive (bits w 15 5) (bits w 4 4)) else
  if field w 0 4 == 2 then zeros (field w 6 9 == 0 && field w 20 5 == 0) (.bwait (bits w 15 5) (bits w 4 2)) else
  if field w 0 4 == 3 then zeros (field w 4 6 == 0 && field w 20 5 == 0) (.bexpect (bits w 15 5) (bits w 10 5)) else .error .badFunction

/-- Major 0x7D: WAITC, RDCNT. -/
noncomputable def decode7D (w : Nat) : RawDecode :=
  if field w 0 4 == 0 then zeros (field w 6 9 == 0 && field w 20 5 == 0) (.waitc (bits w 15 5) (bits w 4 2)) else
  if field w 0 4 == 1 then zeros (field w 6 14 == 0) (.rdcnt (bits w 20 5) (bits w 4 2)) else .error .badFunction

/-- Major 0x7E: PGATE, PWAIT, PPUB. -/
noncomputable def decode7E (w : Nat) : RawDecode :=
  if field w 0 10 == 0 then zeros (field w 20 5 == 0) (.pgate (bits w 15 5) (bits w 10 5)) else
  if field w 0 10 == 1 then zeros (field w 20 5 == 0) (.pwait (bits w 15 5) (bits w 10 5)) else
  if field w 0 10 == 2 then .ok (.ppub (bits w 20 5) (bits w 15 5) (bits w 10 5)) else .error .badFunction

/-- The instruction of a word of the matrix, collective and vector opcodes (R43). -/
def decodeQueued (w : Nat) : RawDecode :=
  match field w 25 7 with
  | 0x24 => decode24 w
  | 0x25 => decode25 w
  | 0x26 => decode26 w
  | 0x27 => decode27 w
  | 0x28 => decode28 w
  | 0x29 => decode29 w
  | 0x2A => decode2A w
  | 0x2B => decode2B w
  | 0x2C => decode2C w
  | 0x2D => decode2D w
  | 0x2E => decode2E w
  | 0x2F => decode2F w
  | 0x30 => decode30 w
  | 0x31 => decode31 w
  | 0x32 => decode32 w
  | 0x33 => decode33 w
  | 0x34 => decode34 w
  | 0x35 => decode35 w
  | 0x36 => decode36 w
  | 0x37 => decode37 w
  | 0x38 => decode38 w
  | 0x39 => decode39 w
  | 0x3A => decode3A w
  | 0x3B => decode3B w
  | 0x3C => decode3C w
  | 0x3D => decode3D w
  | 0x3E => decode3E w
  | 0x3F => decode3F w
  | 0x40 => decode40 w
  | 0x41 => decode41 w
  | 0x42 => decode42 w
  | 0x43 => decode43 w
  | 0x44 => decode44 w
  | 0x45 => decode45 w
  | 0x46 => decode46 w
  | 0x47 => decode47 w
  | 0x48 => decode48 w
  | 0x49 => decode49 w
  | 0x4A => decode4A w
  | 0x4B => decode4B w
  | 0x4C => decode4C w
  | 0x4D => decode4D w
  | 0x4E => decode4E w
  | 0x4F => decode4F w
  | 0x50 => decode50 w
  | 0x51 => decode51 w
  | 0x52 => decode52 w
  | 0x53 => decode53 w
  | 0x54 => decode54 w
  | 0x55 => decode55 w
  | 0x56 => decode56 w
  | 0x57 => decode57 w
  | 0x58 => decode58 w
  | 0x59 => decode59 w
  | 0x5A => decode5A w
  | 0x5B => decode5B w
  | 0x5C => decode5C w
  | 0x5D => decode5D w
  | 0x5E => decode5E w
  | 0x5F => decode5F w
  | 0x60 => decode60 w
  | 0x61 => decode61 w
  | 0x62 => decode62 w
  | 0x63 => decode63 w
  | 0x64 => decode64 w
  | 0x65 => decode65 w
  | 0x66 => decode66 w
  | 0x67 => decode67 w
  | 0x68 => decode68 w
  | 0x69 => decode69 w
  | 0x6A => decode6A w
  | 0x6B => decode6B w
  | _ => .error .reservedMajor

/-- The instruction a word names, by its major opcode (R43). -/
noncomputable def decodeRaw (w : Nat) : RawDecode :=
  match field w 25 7 with
  | 0x00 | 0x7F => .error .illegalMajor
  | 0x01 => decode01 w
  | 0x02 => decode02 w
  | 0x03 => decode03 w
  | 0x04 => decode04 w
  | 0x05 => decode05 w
  | 0x06 => decode06 w
  | 0x07 => decode07 w
  | 0x08 => decode08 w
  | 0x09 => decode09 w
  | 0x0A => decode0A w
  | 0x0B => decode0B w
  | 0x0C => decode0C w
  | 0x10 => decode10 w
  | 0x11 => decode11 w
  | 0x12 => decode12 w
  | 0x13 => decode13 w
  | 0x14 => decode14 w
  | 0x15 => decode15 w
  | 0x16 => decode16 w
  | 0x17 => decode17 w
  | 0x18 => decode18 w
  | 0x19 => decode19 w
  | 0x1A => decode1A w
  | 0x1B => decode1B w
  | 0x1C => decode1C w
  | 0x1E => decode1E w
  | 0x1F => decode1F w
  | 0x20 => decode20 w
  | 0x21 => decode21 w
  | 0x22 => decode22 w
  | 0x23 => decode23 w
  | 0x6C => decode6C w
  | 0x6D => decode6D w
  | 0x6E => decode6E w
  | 0x6F => decode6F w
  | 0x70 => decode70 w
  | 0x71 => decode71 w
  | 0x72 => decode72 w
  | 0x73 => decode73 w
  | 0x74 => decode74 w
  | 0x75 => decode75 w
  | 0x76 => decode76 w
  | 0x77 => decode77 w
  | 0x78 => decode78 w
  | 0x79 => decode79 w
  | 0x7A => decode7A w
  | 0x7B => decode7B w
  | 0x7C => decode7C w
  | 0x7D => decode7D w
  | 0x7E => decode7E w
  | _ => decodeQueued w

/-- The decode checks of R54, made last. -/
def checked (i : Instr) : RawDecode :=
  match i.check with
  | none => .ok i
  | some e => .error e

/-- Decoding of one word: every word is an instruction or is refused by name. -/
noncomputable def decodeWord (w : Nat) : Except DecodeError Instr :=
  match decodeRaw w with
  | .ok i => checked i
  | .error e => .error e

/-- The word at the head of a list of bytes, little-endian (R37). -/
def wordOfBytes : List Byte → Option Nat
  | b0 :: b1 :: b2 :: b3 :: _ =>
    some (b0.toNat + b1.toNat * 2 ^ 8 + b2.toNat * 2 ^ 16 + b3.toNat * 2 ^ 24)
  | _ => none

/-- The four bytes of a word in memory order (R37). -/
def bytesOfWord (w : Nat) : List Byte :=
  [BitVec.ofNat 8 w, BitVec.ofNat 8 (w / 2 ^ 8), BitVec.ofNat 8 (w / 2 ^ 16), BitVec.ofNat 8 (w / 2 ^ 24)]

/-- Decoding of the instruction at the head of any list of bytes; `none` where there is no whole word. -/
noncomputable def decodeBytes (bs : List Byte) : Option (Except DecodeError Instr) :=
  match wordOfBytes bs with
  | some w => some (decodeWord w)
  | none => none

/-- The instruction of a word numbered as the opcode table numbers its bits: one 32-bit word, stored little-endian and
given to the decoder. -/
noncomputable def decodeTableWord (_nbits w : Nat) : Option Instr :=
  match decodeBytes (bytesOfWord w) with
  | some (.ok i) => some i
  | _ => none


/-- The word with the fixed bits `m` and the fields of ADD, SUB, AND, OR, XOR, ANDN and others. -/
def wordAdd (m : Nat) (d : BitVec 5) (a : BitVec 5) (b : BitVec 5) : Nat :=
  m + d.toNat * 2 ^ 20 + a.toNat * 2 ^ 15 + b.toNat * 2 ^ 10

/-- The word with the fixed bits `m` and the fields of CLZ, CTZ, POPC, BREV, BSWAP, SETVT and others. -/
def wordClz (m : Nat) (d : BitVec 5) (a : BitVec 5) : Nat :=
  m + d.toNat * 2 ^ 20 + a.toNat * 2 ^ 15

/-- The word with the fixed bits `m` and the fields of ADDI, ANDI, ORI, XORI, SLTI, SLTNI and others. -/
def wordAddi (m : Nat) (d : BitVec 5) (a : BitVec 5) (i : BitVec 15) : Nat :=
  m + d.toNat * 2 ^ 20 + a.toNat * 2 ^ 15 + i.toNat

/-- The word with the fixed bits `m` and the fields of SHLI, SHRI, SARI, ROLI. -/
def wordShli (m : Nat) (d : BitVec 5) (a : BitVec 5) (s : BitVec 6) : Nat :=
  m + d.toNat * 2 ^ 20 + a.toNat * 2 ^ 15 + s.toNat

/-- The word with the fixed bits `m` and the fields of LUI, ADDPC, LUIH. -/
def wordLui (m : Nat) (d : BitVec 5) (i : BitVec 20) : Nat :=
  m + d.toNat * 2 ^ 20 + i.toNat

/-- The word with the fixed bits `m` and the fields of FADD, FSUB, FMUL, FDIV, FMIN, FMAX and others. -/
def wordFadd (m : Nat) (d : BitVec 5) (a : BitVec 5) (b : BitVec 5) (p : BitVec 2) : Nat :=
  m + d.toNat * 2 ^ 20 + a.toNat * 2 ^ 15 + b.toNat * 2 ^ 10 + p.toNat * 2 ^ 8

/-- The word with the fixed bits `m` and the fields of FSQRT, FCLASS, FCVTI, FCVTN, FCVTF, FCVTFN and others. -/
def wordFsqrt (m : Nat) (d : BitVec 5) (a : BitVec 5) (p : BitVec 2) : Nat :=
  m + d.toNat * 2 ^ 20 + a.toNat * 2 ^ 15 + p.toNat * 2 ^ 8

/-- The word with the fixed bits `m` and the fields of FCVTP. -/
def wordFcvtp (m : Nat) (d : BitVec 5) (a : BitVec 5) (s : BitVec 2) (p : BitVec 2) : Nat :=
  m + d.toNat * 2 ^ 20 + a.toNat * 2 ^ 15 + s.toNat * 2 ^ 10 + p.toNat * 2 ^ 8

/-- The word with the fixed bits `m` and the fields of JAL. -/
def wordJal (m : Nat) (o : BitVec 25) : Nat :=
  m + o.toNat

/-- The word with the fixed bits `base` and the fields of BMZ, BMNZ. -/
def wordBmz (base : Nat) (m : BitVec 5) (o : BitVec 15) : Nat :=
  base + m.toNat * 2 ^ 20 + o.toNat

/-- The word with the fixed bits `m` and the fields of TRAP, WAITE, WWAIT, WSETTLE, CKICK. -/
def wordTrap (m : Nat) (a : BitVec 5) : Nat :=
  m + a.toNat * 2 ^ 15

/-- The word with the fixed bits `m` and the fields of MFCR. -/
def wordMfcr (m : Nat) (d : BitVec 5) (n : BitVec 10) : Nat :=
  m + d.toNat * 2 ^ 20 + n.toNat

/-- The word with the fixed bits `m` and the fields of MTCR. -/
def wordMtcr (m : Nat) (a : BitVec 5) (n : BitVec 10) : Nat :=
  m + a.toNat * 2 ^ 15 + n.toNat

/-- The word with the fixed bits `m` and the fields of SETVL. -/
def wordSetvl (m : Nat) (d : BitVec 5) (a : BitVec 5) (b : BitVec 5) (k : BitVec 1) (g : BitVec 1) : Nat :=
  m + d.toNat * 2 ^ 20 + a.toNat * 2 ^ 15 + b.toNat * 2 ^ 10 + k.toNat * 2 ^ 1 + g.toNat

/-- The word with the fixed bits `m` and the fields of SETVTI. -/
def wordSetvti (m : Nat) (d : BitVec 5) (z : BitVec 1) (r : BitVec 3) (s : BitVec 4) (e : BitVec 4) (c : BitVec 3) : Nat :=
  m + d.toNat * 2 ^ 20 + z.toNat * 2 ^ 14 + r.toNat * 2 ^ 11 + s.toNat * 2 ^ 7 + e.toNat * 2 ^ 3 + c.toNat

/-- The word with the fixed bits `m` and the fields of TMMA, TMMA_OVR. -/
def wordTmma (m : Nat) (n : BitVec 6) (x : BitVec 5) (t : BitVec 2) (r : BitVec 1) : Nat :=
  m + n.toNat * 2 ^ 19 + x.toNat * 2 ^ 14 + t.toNat * 2 ^ 12 + r.toNat * 2 ^ 9

/-- The word with the fixed bits `m` and the fields of TZERO. -/
def wordTzero (m : Nat) (t : BitVec 2) : Nat :=
  m + t.toNat * 2 ^ 20

/-- The word with the fixed bits `m` and the fields of TLDACC. -/
def wordTldacc (m : Nat) (t : BitVec 2) (a : BitVec 5) (b : BitVec 5) : Nat :=
  m + t.toNat * 2 ^ 20 + a.toNat * 2 ^ 15 + b.toNat * 2 ^ 10

/-- The word with the fixed bits `m` and the fields of TSTACC. -/
def wordTstacc (m : Nat) (t : BitVec 2) (a : BitVec 5) (b : BitVec 5) (f : BitVec 4) : Nat :=
  m + t.toNat * 2 ^ 20 + a.toNat * 2 ^ 15 + b.toNat * 2 ^ 10 + f.toNat * 2 ^ 4

/-- The word with the fixed bits `m` and the fields of TSAVE, TRESTORE. -/
def wordTsave (m : Nat) (t : BitVec 2) (a : BitVec 5) : Nat :=
  m + t.toNat * 2 ^ 20 + a.toNat * 2 ^ 15

/-- The word with the fixed bits `m` and the fields of TTOV, TFROMV. -/
def wordTtov (m : Nat) (t : BitVec 2) (n : BitVec 6) : Nat :=
  m + t.toNat * 2 ^ 20 + n.toNat * 2 ^ 4

/-- The word with the fixed bits `m` and the fields of ALLRED, REDSCAT. -/
def wordAllred (m : Nat) (a : BitVec 5) (b : BitVec 5) (o : BitVec 2) (f : BitVec 4) : Nat :=
  m + a.toNat * 2 ^ 15 + b.toNat * 2 ^ 10 + o.toNat * 2 ^ 8 + f.toNat * 2 ^ 4

/-- The word with the fixed bits `m` and the fields of ALLGATH, BCAST, CABORT, BINIT, BEXPECT, PGATE and others. -/
def wordAllgath (m : Nat) (a : BitVec 5) (b : BitVec 5) : Nat :=
  m + a.toNat * 2 ^ 15 + b.toNat * 2 ^ 10

/-- The word with the fixed bits `m` and the fields of TLDA. -/
def wordTlda (m : Nat) (n : BitVec 6) (x : BitVec 5) : Nat :=
  m + n.toNat * 2 ^ 19 + x.toNat * 2 ^ 14

/-- The word with the fixed bits `m` and the fields of VADD, VSUB, VRSUB, VMUL, VMULH, VDIV and others. -/
def wordVadd (m : Nat) (f : BitVec 2) (d : BitVec 6) (a : BitVec 6) (b : BitVec 6) (k : BitVec 4) (c : BitVec 1) : Nat :=
  m + f.toNat * 2 ^ 23 + d.toNat * 2 ^ 17 + a.toNat * 2 ^ 11 + b.toNat * 2 ^ 5 + k.toNat * 2 ^ 1 + c.toNat

/-- The word with the fixed bits `m` and the fields of VABS, VNEG, VNOT, VSQRT, VRSQE, VRCPE and others. -/
def wordVabs (m : Nat) (d : BitVec 6) (a : BitVec 6) (k : BitVec 4) (c : BitVec 1) : Nat :=
  m + d.toNat * 2 ^ 17 + a.toNat * 2 ^ 11 + k.toNat * 2 ^ 1 + c.toNat

/-- The word with the fixed bits `m` and the fields of VMV. -/
def wordVmv (m : Nat) (f : BitVec 2) (d : BitVec 6) (b : BitVec 6) (k : BitVec 4) (c : BitVec 1) : Nat :=
  m + f.toNat * 2 ^ 23 + d.toNat * 2 ^ 17 + b.toNat * 2 ^ 5 + k.toNat * 2 ^ 1 + c.toNat

/-- The word with the fixed bits `m` and the fields of VID, VIOTA. -/
def wordVid (m : Nat) (d : BitVec 6) (k : BitVec 4) (c : BitVec 1) : Nat :=
  m + d.toNat * 2 ^ 17 + k.toNat * 2 ^ 1 + c.toNat

/-- The word with the fixed bits `m` and the fields of VPERM. -/
def wordVperm (m : Nat) (d : BitVec 6) (a : BitVec 6) (i : BitVec 6) (k : BitVec 4) (c : BitVec 1) : Nat :=
  m + d.toNat * 2 ^ 17 + a.toNat * 2 ^ 11 + i.toNat * 2 ^ 5 + k.toNat * 2 ^ 1 + c.toNat

/-- The word with the fixed bits `m` and the fields of VEXT. -/
def wordVext (m : Nat) (f : BitVec 2) (d : BitVec 5) (a : BitVec 6) (b : BitVec 6) (c : BitVec 1) : Nat :=
  m + f.toNat * 2 ^ 23 + d.toNat * 2 ^ 17 + a.toNat * 2 ^ 11 + b.toNat * 2 ^ 5 + c.toNat

/-- The word with the fixed bits `m` and the fields of VINS. -/
def wordVins (m : Nat) (f : BitVec 2) (d : BitVec 6) (a : BitVec 5) (b : BitVec 6) (c : BitVec 1) : Nat :=
  m + f.toNat * 2 ^ 23 + d.toNat * 2 ^ 17 + a.toNat * 2 ^ 11 + b.toNat * 2 ^ 5 + c.toNat

/-- The word with the fixed bits `m` and the fields of MAND, MOR, MXOR, MANDN, MORN. -/
def wordMand (m : Nat) (d : BitVec 6) (a : BitVec 6) (b : BitVec 6) (c : BitVec 1) : Nat :=
  m + d.toNat * 2 ^ 17 + a.toNat * 2 ^ 11 + b.toNat * 2 ^ 5 + c.toNat

/-- The word with the fixed bits `m` and the fields of MNOT, MMOV, MSHL1, MSHR1. -/
def wordMnot (m : Nat) (d : BitVec 6) (a : BitVec 6) (c : BitVec 1) : Nat :=
  m + d.toNat * 2 ^ 17 + a.toNat * 2 ^ 11 + c.toNat

/-- The word with the fixed bits `m` and the fields of MSET, MCLR. -/
def wordMset (m : Nat) (d : BitVec 6) (c : BitVec 1) : Nat :=
  m + d.toNat * 2 ^ 17 + c.toNat

/-- The word with the fixed bits `m` and the fields of MFROMX. -/
def wordMfromx (m : Nat) (d : BitVec 6) (b : BitVec 5) (c : BitVec 1) : Nat :=
  m + d.toNat * 2 ^ 17 + b.toNat * 2 ^ 5 + c.toNat

/-- The word with the fixed bits `m` and the fields of VMPOP, VMFIRST, VMLAST, VPICK_MAX, VPICK_MIN. -/
def wordVmpop (m : Nat) (d : BitVec 5) (a : BitVec 6) (k : BitVec 4) (c : BitVec 1) : Nat :=
  m + d.toNat * 2 ^ 17 + a.toNat * 2 ^ 11 + k.toNat * 2 ^ 1 + c.toNat

/-- The word with the fixed bits `m` and the fields of VPUSHQ. -/
def wordVpushq (m : Nat) (p : BitVec 3) (a : BitVec 6) (k : BitVec 4) (c : BitVec 1) : Nat :=
  m + p.toNat * 2 ^ 17 + a.toNat * 2 ^ 11 + k.toNat * 2 ^ 1 + c.toNat

/-- The word with the fixed bits `m` and the fields of VLD, VLDS. -/
def wordVld (m : Nat) (d : BitVec 6) (b : BitVec 5) (w : BitVec 5) (p : BitVec 2) (k : BitVec 4) (c : BitVec 1) : Nat :=
  m + d.toNat * 2 ^ 19 + b.toNat * 2 ^ 14 + w.toNat * 2 ^ 9 + p.toNat * 2 ^ 7 + k.toNat * 2 ^ 1 + c.toNat

/-- The word with the fixed bits `m` and the fields of VLDX, VSTX. -/
def wordVldx (m : Nat) (d : BitVec 6) (b : BitVec 5) (i : BitVec 6) (w : BitVec 3) (k : BitVec 4) (c : BitVec 1) : Nat :=
  m + d.toNat * 2 ^ 19 + b.toNat * 2 ^ 14 + i.toNat * 2 ^ 8 + w.toNat * 2 ^ 5 + k.toNat * 2 ^ 1 + c.toNat

/-- The word with the fixed bits `m` and the fields of VLDSEG. -/
def wordVldseg (m : Nat) (d : BitVec 6) (b : BitVec 5) (w : BitVec 5) (h : BitVec 4) (k : BitVec 4) (c : BitVec 1) : Nat :=
  m + d.toNat * 2 ^ 19 + b.toNat * 2 ^ 14 + w.toNat * 2 ^ 9 + h.toNat * 2 ^ 5 + k.toNat * 2 ^ 1 + c.toNat

/-- The word with the fixed bits `m` and the fields of VST, VSTS. -/
def wordVst (m : Nat) (v : BitVec 6) (b : BitVec 5) (w : BitVec 5) (n : BitVec 1) (p : BitVec 2) (k : BitVec 4) (c : BitVec 1) : Nat :=
  m + v.toNat * 2 ^ 19 + b.toNat * 2 ^ 14 + w.toNat * 2 ^ 9 + n.toNat * 2 ^ 8 + p.toNat * 2 ^ 6 + k.toNat * 2 ^ 1 + c.toNat

/-- The word with the fixed bits `m` and the fields of VSTSEG. -/
def wordVstseg (m : Nat) (v : BitVec 6) (b : BitVec 5) (w : BitVec 5) (h : BitVec 3) (k : BitVec 4) (c : BitVec 1) : Nat :=
  m + v.toNat * 2 ^ 19 + b.toNat * 2 ^ 14 + w.toNat * 2 ^ 9 + h.toNat * 2 ^ 5 + k.toNat * 2 ^ 1 + c.toNat

/-- The word with the fixed bits `m` and the fields of VAMO_ADD, VAMO_AND, VAMO_OR, VAMO_XOR, VAMO_MIN, VAMO_MAX and others. -/
def wordVamoAdd (m : Nat) (v : BitVec 6) (b : BitVec 5) (i : BitVec 6) (k : BitVec 4) (c : BitVec 1) : Nat :=
  m + v.toNat * 2 ^ 19 + b.toNat * 2 ^ 14 + i.toNat * 2 ^ 8 + k.toNat * 2 ^ 1 + c.toNat

/-- The word with the fixed bits `m` and the fields of VSPILL, VFILL. -/
def wordVspill (m : Nat) (b : BitVec 5) (s : BitVec 10) (n : BitVec 6) : Nat :=
  m + b.toNat * 2 ^ 20 + s.toNat * 2 ^ 10 + n.toNat * 2 ^ 4

/-- The word with the fixed bits `m` and the fields of LDB, LDH, LDW, LDD, LDBN, LDHN and others. -/
def wordLdb (m : Nat) (d : BitVec 5) (b : BitVec 5) (w : BitVec 5) (i : BitVec 10) : Nat :=
  m + d.toNat * 2 ^ 20 + b.toNat * 2 ^ 15 + w.toNat * 2 ^ 10 + i.toNat

/-- The word with the fixed bits `m` and the fields of AMO_ADD, AMO_AND, AMO_OR, AMO_XOR, AMO_MIN, AMO_MAX and others. -/
def wordAmoAdd (m : Nat) (d : BitVec 5) (a : BitVec 5) (b : BitVec 5) (w : BitVec 5) (z : BitVec 1) : Nat :=
  m + d.toNat * 2 ^ 20 + a.toNat * 2 ^ 15 + b.toNat * 2 ^ 10 + w.toNat * 2 ^ 5 + z.toNat * 2 ^ 4

/-- The word with the fixed bits `m` and the fields of WLAST, WNULL. -/
def wordWlast (m : Nat) (d : BitVec 5) : Nat :=
  m + d.toNat * 2 ^ 20

/-- The word with the fixed bits `m` and the fields of COPY_LINEAR, COPY_BOX, COPY_REMOTE. -/
def wordCopyLinear (m : Nat) (d : BitVec 5) (a : BitVec 5) (b : BitVec 5) (t : BitVec 2) : Nat :=
  m + d.toNat * 2 ^ 20 + a.toNat * 2 ^ 15 + b.toNat * 2 ^ 10 + t.toNat * 2 ^ 4

/-- The word with the fixed bits `m` and the fields of COPY_TILEA, COPY_TILEB, COPY_TILEC, COPY_FILL. -/
def wordCopyTilea (m : Nat) (d : BitVec 5) (a : BitVec 5) (b : BitVec 5) (f : BitVec 4) (t : BitVec 2) : Nat :=
  m + d.toNat * 2 ^ 20 + a.toNat * 2 ^ 15 + b.toNat * 2 ^ 10 + f.toNat * 2 ^ 6 + t.toNat * 2 ^ 4

/-- The word with the fixed bits `m` and the fields of QBIND_MEM. -/
def wordQbindMem (m : Nat) (a : BitVec 5) (p : BitVec 3) : Nat :=
  m + a.toNat * 2 ^ 15 + p.toNat * 2 ^ 4

/-- The word with the fixed bits `m` and the fields of QBIND_COPY, QBIND_FIFO, QUNBIND, QDRAIN. -/
def wordQbindCopy (m : Nat) (p : BitVec 3) : Nat :=
  m + p.toNat * 2 ^ 4

/-- The word with the fixed bits `m` and the fields of QSTAT. -/
def wordQstat (m : Nat) (d : BitVec 5) (p : BitVec 3) : Nat :=
  m + d.toNat * 2 ^ 20 + p.toNat * 2 ^ 4

/-- The word with the fixed bits `m` and the fields of ARRIVE. -/
def wordArrive (m : Nat) (a : BitVec 5) (k : BitVec 4) : Nat :=
  m + a.toNat * 2 ^ 15 + k.toNat * 2 ^ 4

/-- The word with the fixed bits `m` and the fields of BWAIT, WAITC. -/
def wordBwait (m : Nat) (a : BitVec 5) (d : BitVec 2) : Nat :=
  m + a.toNat * 2 ^ 15 + d.toNat * 2 ^ 4

/-- The word with the fixed bits `m` and the fields of RDCNT. -/
def wordRdcnt (m : Nat) (d : BitVec 5) (c : BitVec 2) : Nat :=
  m + d.toNat * 2 ^ 20 + c.toNat * 2 ^ 4

/-- The word of an instruction from its format and fields (R38 to R53); `none` for the steps that have no word. -/
def encode : Instr → Option Nat
  | .add d a b => some (wordAdd 0x02000000 d a b)
  | .sub d a b => some (wordAdd 0x02000001 d a b)
  | .and d a b => some (wordAdd 0x02000002 d a b)
  | .or d a b => some (wordAdd 0x02000003 d a b)
  | .xor d a b => some (wordAdd 0x02000004 d a b)
  | .andn d a b => some (wordAdd 0x02000005 d a b)
  | .shl d a b => some (wordAdd 0x02000006 d a b)
  | .shr d a b => some (wordAdd 0x02000007 d a b)
  | .sar d a b => some (wordAdd 0x02000008 d a b)
  | .rol d a b => some (wordAdd 0x02000009 d a b)
  | .ror d a b => some (wordAdd 0x0200000A d a b)
  | .mul d a b => some (wordAdd 0x0200000B d a b)
  | .mulh d a b => some (wordAdd 0x0200000C d a b)
  | .mulhn d a b => some (wordAdd 0x0200000D d a b)
  | .div d a b => some (wordAdd 0x0200000E d a b)
  | .divn d a b => some (wordAdd 0x0200000F d a b)
  | .rem d a b => some (wordAdd 0x02000010 d a b)
  | .remn d a b => some (wordAdd 0x02000011 d a b)
  | .min d a b => some (wordAdd 0x02000012 d a b)
  | .max d a b => some (wordAdd 0x02000013 d a b)
  | .minn d a b => some (wordAdd 0x02000014 d a b)
  | .maxn d a b => some (wordAdd 0x02000015 d a b)
  | .slt d a b => some (wordAdd 0x02000016 d a b)
  | .sltn d a b => some (wordAdd 0x02000017 d a b)
  | .clz d a => some (wordClz 0x02000018 d a)
  | .ctz d a => some (wordClz 0x02000019 d a)
  | .popc d a => some (wordClz 0x0200001A d a)
  | .brev d a => some (wordClz 0x0200001B d a)
  | .bswap d a => some (wordClz 0x0200001C d a)
  | .sext d a b => some (wordAdd 0x0200001D d a b)
  | .zext d a b => some (wordAdd 0x0200001E d a b)
  | .addw d a b => some (wordAdd 0x0200001F d a b)
  | .subw d a b => some (wordAdd 0x02000020 d a b)
  | .addi d a i => some (wordAddi 0x04000000 d a i)
  | .andi d a i => some (wordAddi 0x06000000 d a i)
  | .ori d a i => some (wordAddi 0x08000000 d a i)
  | .xori d a i => some (wordAddi 0x0A000000 d a i)
  | .shli d a s => some (wordShli 0x0C000000 d a s)
  | .shri d a s => some (wordShli 0x0C002000 d a s)
  | .sari d a s => some (wordShli 0x0C004000 d a s)
  | .roli d a s => some (wordShli 0x0C006000 d a s)
  | .slti d a i => some (wordAddi 0x0E000000 d a i)
  | .sltni d a i => some (wordAddi 0x10000000 d a i)
  | .lui d i => some (wordLui 0x12000000 d i)
  | .addpc d i => some (wordLui 0x14000000 d i)
  | .luih d i => some (wordLui 0x16000000 d i)
  | .fadd d a b p => some (wordFadd 0x18000000 d a b p)
  | .fsub d a b p => some (wordFadd 0x18000001 d a b p)
  | .fmul d a b p => some (wordFadd 0x18000002 d a b p)
  | .fdiv d a b p => some (wordFadd 0x18000003 d a b p)
  | .fsqrt d a p => some (wordFsqrt 0x18000004 d a p)
  | .fmin d a b p => some (wordFadd 0x18000005 d a b p)
  | .fmax d a b p => some (wordFadd 0x18000006 d a b p)
  | .fmad d a b p => some (wordFadd 0x18000007 d a b p)
  | .fmsb d a b p => some (wordFadd 0x18000008 d a b p)
  | .fnma d a b p => some (wordFadd 0x18000009 d a b p)
  | .fcmpeq d a b p => some (wordFadd 0x1800000A d a b p)
  | .fcmplt d a b p => some (wordFadd 0x1800000B d a b p)
  | .fcmple d a b p => some (wordFadd 0x1800000C d a b p)
  | .fcmpun d a b p => some (wordFadd 0x1800000D d a b p)
  | .fclass d a p => some (wordFsqrt 0x1800000E d a p)
  | .fcvti d a p => some (wordFsqrt 0x1800000F d a p)
  | .fcvtn d a p => some (wordFsqrt 0x18000010 d a p)
  | .fcvtf d a p => some (wordFsqrt 0x18000011 d a p)
  | .fcvtfn d a p => some (wordFsqrt 0x18000012 d a p)
  | .fcvtp d a s p => some (wordFcvtp 0x18000013 d a s p)
  | .fsgn d a b p => some (wordFadd 0x18000014 d a b p)
  | .fsgnn d a b p => some (wordFadd 0x18000015 d a b p)
  | .fsgnx d a b p => some (wordFadd 0x18000016 d a b p)
  | .fabs d a p => some (wordFsqrt 0x18000017 d a p)
  | .fneg d a p => some (wordFsqrt 0x18000018 d a p)
  | .beq a b o => some (wordAddi 0x20000000 a b o)
  | .bne a b o => some (wordAddi 0x22000000 a b o)
  | .blt a b o => some (wordAddi 0x24000000 a b o)
  | .bge a b o => some (wordAddi 0x26000000 a b o)
  | .bltn a b o => some (wordAddi 0x28000000 a b o)
  | .bgen a b o => some (wordAddi 0x2A000000 a b o)
  | .jal o => some (wordJal 0x2C000000 o)
  | .jalr d a i => some (wordAddi 0x2E000000 d a i)
  | .bmz m o => some (wordBmz 0x30000000 m o)
  | .bmnz m o => some (wordBmz 0x32000000 m o)
  | .trap a => some (wordTrap 0x34000000 a)
  | .rett => some 0x34000001
  | .waite a => some (wordTrap 0x34000002 a)
  | .yield => some 0x34000003
  | .exit => some 0x34000004
  | .brk => some 0x34000005
  | .fencei => some 0x34000006
  | .mfcr d n => some (wordMfcr 0x36000000 d n)
  | .mtcr a n => some (wordMtcr 0x38000000 a n)
  | .setvl d a b k g => some (wordSetvl 0x3C000000 d a b k g)
  | .setvt d a => some (wordClz 0x3E000000 d a)
  | .setvti d z r s e c => some (wordSetvti 0x40000000 d z r s e c)
  | .setbase d a i => some (wordAddi 0x42000000 d a i)
  | .settile d a b => some (wordAdd 0x44000000 d a b)
  | .vlenq d a => some (wordClz 0x46000000 d a)
  | .tmma n x t r => some (wordTmma 0x48000000 n x t r)
  | .tmmaOvr n x t r => some (wordTmma 0x48000400 n x t r)
  | .tzero t => some (wordTzero 0x4A000000 t)
  | .tldacc t a b => some (wordTldacc 0x4A000001 t a b)
  | .tstacc t a b f => some (wordTstacc 0x4A000002 t a b f)
  | .tsave t a => some (wordTsave 0x4A000003 t a)
  | .trestore t a => some (wordTsave 0x4A000004 t a)
  | .ttov t n => some (wordTtov 0x4A000005 t n)
  | .tfromv t n => some (wordTtov 0x4A000006 t n)
  | .trel => some 0x4A000007
  | .allred a b o f => some (wordAllred 0x4C000000 a b o f)
  | .redscat a b o f => some (wordAllred 0x4C000001 a b o f)
  | .allgath a b => some (wordAllgath 0x4C000002 a b)
  | .bcast a b => some (wordAllgath 0x4C000003 a b)
  | .cabort a b => some (wordAllgath 0x4C000004 a b)
  | .cattempt d a b => some (wordAdd 0x4C000005 d a b)
  | .tlda n x => some (wordTlda 0x4E000000 n x)
  | .vadd f d a b k c => some (wordVadd 0x50000000 f d a b k c)
  | .vsub f d a b k c => some (wordVadd 0x52000000 f d a b k c)
  | .vrsub f d a b k c => some (wordVadd 0x54000000 f d a b k c)
  | .vmul f d a b k c => some (wordVadd 0x56000000 f d a b k c)
  | .vmulh f d a b k c => some (wordVadd 0x58000000 f d a b k c)
  | .vdiv f d a b k c => some (wordVadd 0x5A000000 f d a b k c)
  | .vrem f d a b k c => some (wordVadd 0x5C000000 f d a b k c)
  | .vmin f d a b k c => some (wordVadd 0x5E000000 f d a b k c)
  | .vmax f d a b k c => some (wordVadd 0x60000000 f d a b k c)
  | .vfma f d a b k c => some (wordVadd 0x62000000 f d a b k c)
  | .vfms f d a b k c => some (wordVadd 0x64000000 f d a b k c)
  | .vfnma f d a b k c => some (wordVadd 0x66000000 f d a b k c)
  | .vand f d a b k c => some (wordVadd 0x68000000 f d a b k c)
  | .vor f d a b k c => some (wordVadd 0x6A000000 f d a b k c)
  | .vxor f d a b k c => some (wordVadd 0x6C000000 f d a b k c)
  | .vshl f d a b k c => some (wordVadd 0x6E000000 f d a b k c)
  | .vshr f d a b k c => some (wordVadd 0x70000000 f d a b k c)
  | .vsar f d a b k c => some (wordVadd 0x72000000 f d a b k c)
  | .vadc f d a b k c => some (wordVadd 0x74000000 f d a b k c)
  | .vsbc f d a b k c => some (wordVadd 0x76000000 f d a b k c)
  | .vcmpeq f m a b k c => some (wordVadd 0x78000000 f m a b k c)
  | .vcmpne f m a b k c => some (wordVadd 0x7A000000 f m a b k c)
  | .vcmplt f m a b k c => some (wordVadd 0x7C000000 f m a b k c)
  | .vcmple f m a b k c => some (wordVadd 0x7E000000 f m a b k c)
  | .vcmpgt f m a b k c => some (wordVadd 0x80000000 f m a b k c)
  | .vcmpge f m a b k c => some (wordVadd 0x82000000 f m a b k c)
  | .vcmpun f m a b k c => some (wordVadd 0x84000000 f m a b k c)
  | .vmerge f d a b k c => some (wordVadd 0x86000000 f d a b k c)
  | .vabs d a k c => some (wordVabs 0x88000000 d a k c)
  | .vneg d a k c => some (wordVabs 0x88000020 d a k c)
  | .vnot d a k c => some (wordVabs 0x88000040 d a k c)
  | .vsqrt d a k c => some (wordVabs 0x88000060 d a k c)
  | .vrsqe d a k c => some (wordVabs 0x88000080 d a k c)
  | .vrcpe d a k c => some (wordVabs 0x880000A0 d a k c)
  | .vexp2 d a k c => some (wordVabs 0x880000C0 d a k c)
  | .vlog2 d a k c => some (wordVabs 0x880000E0 d a k c)
  | .vsigm d a k c => some (wordVabs 0x88000100 d a k c)
  | .vclz d a k c => some (wordVabs 0x88000120 d a k c)
  | .vpopc d a k c => some (wordVabs 0x88000140 d a k c)
  | .vcvt d a k c => some (wordVabs 0x8A000000 d a k c)
  | .vmv f d b k c => some (wordVmv 0x8C000000 f d b k c)
  | .vid d k c => some (wordVid 0x8E000000 d k c)
  | .vslup f d a b k c => some (wordVadd 0x90000000 f d a b k c)
  | .vsldn f d a b k c => some (wordVadd 0x92000000 f d a b k c)
  | .vsl1up f d a b k c => some (wordVadd 0x94000000 f d a b k c)
  | .vsl1dn f d a b k c => some (wordVadd 0x96000000 f d a b k c)
  | .vperm d a i k c => some (wordVperm 0x98000000 d a i k c)
  | .vcomp d a k c => some (wordVabs 0x9A000000 d a k c)
  | .viota d k c => some (wordVid 0x9C000000 d k c)
  | .vdot4 f d a b k c => some (wordVadd 0x9E000000 f d a b k c)
  | .vdot8 f d a b k c => some (wordVadd 0xA0000000 f d a b k c)
  | .vredsum f d a b k c => some (wordVadd 0xA2000000 f d a b k c)
  | .vredmax f d a b k c => some (wordVadd 0xA4000000 f d a b k c)
  | .vredmin f d a b k c => some (wordVadd 0xA6000000 f d a b k c)
  | .vredand f d a b k c => some (wordVadd 0xA8000000 f d a b k c)
  | .vredor f d a b k c => some (wordVadd 0xAA000000 f d a b k c)
  | .vredxor f d a b k c => some (wordVadd 0xAC000000 f d a b k c)
  | .vtopm f m a b k c => some (wordVadd 0xAE000000 f m a b k c)
  | .vext f d a b c => some (wordVext 0xB0000000 f d a b c)
  | .vins f d a b c => some (wordVins 0xB2000000 f d a b c)
  | .mand d a b c => some (wordMand 0xB4000000 d a b c)
  | .mor d a b c => some (wordMand 0xB4000002 d a b c)
  | .mxor d a b c => some (wordMand 0xB4000004 d a b c)
  | .mandn d a b c => some (wordMand 0xB4000006 d a b c)
  | .morn d a b c => some (wordMand 0xB4000008 d a b c)
  | .mnot d a c => some (wordMnot 0xB400000A d a c)
  | .mmov d a c => some (wordMnot 0xB400000C d a c)
  | .mset d c => some (wordMset 0xB400000E d c)
  | .mclr d c => some (wordMset 0xB4000010 d c)
  | .mshl1 d a c => some (wordMnot 0xB4000012 d a c)
  | .mshr1 d a c => some (wordMnot 0xB4000014 d a c)
  | .mfromx d b c => some (wordMfromx 0xB4800016 d b c)
  | .vmpop d a k c => some (wordVmpop 0xB6000000 d a k c)
  | .vmfirst d a k c => some (wordVmpop 0xB8000000 d a k c)
  | .vmlast d a k c => some (wordVmpop 0xBA000000 d a k c)
  | .vpickMax d a k c => some (wordVmpop 0xBD000000 d a k c)
  | .vpickMin d a k c => some (wordVmpop 0xBD000020 d a k c)
  | .vpushq p a k c => some (wordVpushq 0xBE000000 p a k c)
  | .vld d b w p k c => some (wordVld 0xC0000000 d b w p k c)
  | .vlds d b w p k c => some (wordVld 0xC2000000 d b w p k c)
  | .vldx d b i w k c => some (wordVldx 0xC4000000 d b i w k c)
  | .vldseg d b w h k c => some (wordVldseg 0xC6000000 d b w h k c)
  | .vst v b w n p k c => some (wordVst 0xC8000000 v b w n p k c)
  | .vsts v b w n p k c => some (wordVst 0xCA000000 v b w n p k c)
  | .vstx v b i w k c => some (wordVldx 0xCC000000 v b i w k c)
  | .vstseg v b w h k c => some (wordVstseg 0xCE000000 v b w h k c)
  | .vamoAdd v b i k c => some (wordVamoAdd 0xD0000000 v b i k c)
  | .vamoAnd v b i k c => some (wordVamoAdd 0xD0000020 v b i k c)
  | .vamoOr v b i k c => some (wordVamoAdd 0xD0000040 v b i k c)
  | .vamoXor v b i k c => some (wordVamoAdd 0xD0000060 v b i k c)
  | .vamoMin v b i k c => some (wordVamoAdd 0xD0000080 v b i k c)
  | .vamoMax v b i k c => some (wordVamoAdd 0xD00000A0 v b i k c)
  | .vamoSwap v b i k c => some (wordVamoAdd 0xD00000C0 v b i k c)
  | .vredmSum v b i k c => some (wordVamoAdd 0xD2000000 v b i k c)
  | .vredmMax v b i k c => some (wordVamoAdd 0xD2000020 v b i k c)
  | .vredmMin v b i k c => some (wordVamoAdd 0xD2000040 v b i k c)
  | .vredmAnd v b i k c => some (wordVamoAdd 0xD2000060 v b i k c)
  | .vredmOr v b i k c => some (wordVamoAdd 0xD2000080 v b i k c)
  | .vredmXor v b i k c => some (wordVamoAdd 0xD20000A0 v b i k c)
  | .vspill b s n => some (wordVspill 0xD4000000 b s n)
  | .vfill b s n => some (wordVspill 0xD6000000 b s n)
  | .ldb d b w i => some (wordLdb 0xD8000000 d b w i)
  | .ldh d b w i => some (wordLdb 0xDA000000 d b w i)
  | .ldw d b w i => some (wordLdb 0xDC000000 d b w i)
  | .ldd d b w i => some (wordLdb 0xDE000000 d b w i)
  | .ldbn d b w i => some (wordLdb 0xE0000000 d b w i)
  | .ldhn d b w i => some (wordLdb 0xE2000000 d b w i)
  | .ldwn d b w i => some (wordLdb 0xE4000000 d b w i)
  | .stb s b w i => some (wordLdb 0xE6000000 s b w i)
  | .sth s b w i => some (wordLdb 0xE8000000 s b w i)
  | .stw s b w i => some (wordLdb 0xEA000000 s b w i)
  | .std s b w i => some (wordLdb 0xEC000000 s b w i)
  | .amoAdd d a b w z => some (wordAmoAdd 0xEE000000 d a b w z)
  | .amoAnd d a b w z => some (wordAmoAdd 0xEE000001 d a b w z)
  | .amoOr d a b w z => some (wordAmoAdd 0xEE000002 d a b w z)
  | .amoXor d a b w z => some (wordAmoAdd 0xEE000003 d a b w z)
  | .amoMin d a b w z => some (wordAmoAdd 0xEE000004 d a b w z)
  | .amoMax d a b w z => some (wordAmoAdd 0xEE000005 d a b w z)
  | .amoMinn d a b w z => some (wordAmoAdd 0xEE000006 d a b w z)
  | .amoMaxn d a b w z => some (wordAmoAdd 0xEE000007 d a b w z)
  | .amoSwap d a b w z => some (wordAmoAdd 0xEE000008 d a b w z)
  | .amoCas d a b w z => some (wordAmoAdd 0xEE000009 d a b w z)
  | .wlast d => some (wordWlast 0xF0000000 d)
  | .wjoin d a b => some (wordAdd 0xF0000001 d a b)
  | .wmax d a b => some (wordAdd 0xF0000002 d a b)
  | .wtest d a => some (wordClz 0xF0000003 d a)
  | .wwait a => some (wordTrap 0xF0000004 a)
  | .wsettle a => some (wordTrap 0xF0000005 a)
  | .wnull d => some (wordWlast 0xF0000006 d)
  | .copyLinear d a b t => some (wordCopyLinear 0xF2000000 d a b t)
  | .copyBox d a b t => some (wordCopyLinear 0xF2000001 d a b t)
  | .copyTilea d a b f t => some (wordCopyTilea 0xF2000002 d a b f t)
  | .copyTileb d a b f t => some (wordCopyTilea 0xF2000003 d a b f t)
  | .copyTilec d a b f t => some (wordCopyTilea 0xF2000004 d a b f t)
  | .copyFill d a b f t => some (wordCopyTilea 0xF2000005 d a b f t)
  | .copyRemote d a b t => some (wordCopyLinear 0xF2000006 d a b t)
  | .ckick a => some (wordTrap 0xF4000000 a)
  | .qbindMem a p => some (wordQbindMem 0xF6000000 a p)
  | .qbindCopy p => some (wordQbindCopy 0xF6000080 p)
  | .qbindFifo p => some (wordQbindCopy 0xF6000100 p)
  | .qunbind p => some (wordQbindCopy 0xF6000001 p)
  | .qstat d p => some (wordQstat 0xF6000002 d p)
  | .qdrain p => some (wordQbindCopy 0xF6000003 p)
  | .binit a b => some (wordAllgath 0xF8000000 a b)
  | .arrive a k => some (wordArrive 0xF8000001 a k)
  | .bwait a d => some (wordBwait 0xF8000002 a d)
  | .bexpect a b => some (wordAllgath 0xF8000003 a b)
  | .waitc a c => some (wordBwait 0xFA000000 a c)
  | .rdcnt d c => some (wordRdcnt 0xFA000001 d c)
  | .pgate a b => some (wordAllgath 0xFC000000 a b)
  | .pwait a b => some (wordAllgath 0xFC000001 a b)
  | .ppub d a b => some (wordAdd 0xFC000002 d a b)
  | .epochWrite _ => none
  | .mtcrFs _ _ => none
  | .mtcrPw _ _ => none
  | .mtcrPtb _ _ => none
  | .sctctlStart _ => none
  | .sctctlAbort _ => none
  | .sctctlResetcore _ => none
  | .testDrainDone _ => none
  | .testPatternEnd _ => none
  | .testAutoAbort _ => none
  | .testResetDone _ => none
  | .arbiterDecision _ _ => none
  | .queueEntryComplete _ _ _ => none
  | .pushResume _ _ => none
  | .drainEnd _ _ => none
  | .loadDataReturn _ _ => none
  | .witnessWaitEnd _ _ => none
  | .gatePass _ _ => none
  | .waitcEnd _ _ => none
  | .bwaitReturn _ _ => none
  | .arriveAction _ _ => none
  | .vlmaxNegotiation _ _ => none
  | .settileStorageClaim _ _ => none
  | .waiteTimeout _ _ => none
  | .yieldExpiry _ _ => none
  | .groupExitDrained _ _ => none
  | .arrayModeChange _ => none
  | .pageWalk _ _ _ _ => none
  | .elementPerform _ => none
  | .l1StoreUpdate _ => none
  | .entryComplete _ _ => none
  | .notifyUpdate _ _ => none
  | .ppubUpdate _ _ => none
  | .portFetch _ _ _ => none
  | .copyRequestBegin _ _ => none
  | .copySectorPerform _ _ => none
  | .trapDelivery _ _ => none
  | .taskKill _ _ => none
  | .preemption _ _ => none
  | .resume _ _ => none
  | .checkpoint _ => none
  | .rollback _ => none
  | .uncorrectableError _ => none
  | .columnMapout _ => none
  | .commandAccept _ => none
  | .queueSelection _ => none
  | .placementPass _ => none
  | .commandFinal _ => none
  | .launch _ => none
  | .copyCommand _ => none
  | .signal _ => none
  | .wait _ => none
  | .depend _ => none
  | .refill _ => none
  | .cancel _ => none
  | .mark _ => none
  | .deviceEventJournal _ _ => none
  | .chargeRead => none
  | .periodEnd _ => none
  | .powerSample _ => none
  | .thermalCap _ => none
  | .thermalRelease _ => none
  | .thermalTrip => none
  | .supplyDroop _ => none
  | .alarmExpiry _ => none
  | .memoryTrained => none
  | .deviceReset => none
  | .dbw _ _ => none
  | .mmr _ => none
  | .mmw _ _ => none
  | .dmr _ _ => none
  | .dmw _ _ => none
  | .hostCompletion _ => none
  | .qload _ => none
  | .mmioerrClear => none
  | .partitionTableWrite _ _ => none
  | .osrefuseClear => none
  | .queueSettings => none
  | .translationInvalidation => none
  | .invalidationAck => none
  | .partitionReset => none
  | .modulePowerLimit => none
  | .firmwareUpdate => none
  | .attestation => none
  | .measurementExtend => none
  | .ownershipRelease => none
  | .enrolment => none
  | .ucieModuleFail _ => none
  | .flitReceive _ => none
  | .portDown _ => none
  | .abortToken _ _ => none
  | .mtcrAsid _ _ => none
  | .mailboxRequestComplete => none
  | .firmwareCoreReturn _ => none
  | .correctedError _ => none
  | .coreLogicError _ => none
  | .qseqMsgIntervalEnd _ => none

end Sys2Proof
end

