-- ==== Sys2Proof/Machine/Map.lean ====
section
/-! DEFINITION. Finite maps from numbers to values, as plain data in one canonical form: keys strictly rising, and no
entry equal to what an unlisted key reads as. -/

namespace Sys2Proof.Machine

/-- A finite map: a list of keys and values. -/
abbrev FMap (α : Type) := List (Nat × α)

/-- The value at a key, `d` where the key is not listed. -/
def FMap.get {α : Type} (d : α) : FMap α → Nat → α
  | [], _ => d
  | (k', v) :: m, k => if k == k' then v else FMap.get d m k

/-- The list without the entry of a key. -/
def FMap.erase {α : Type} : FMap α → Nat → FMap α
  | [], _ => []
  | (k', v) :: m, k => if k == k' then m else (k', v) :: FMap.erase m k

/-- The list with a value put in its place at a key. -/
def FMap.put {α : Type} : FMap α → Nat → α → FMap α
  | [], k, v => [(k, v)]
  | (k', v') :: m, k, v =>
    if k == k' then (k, v) :: m else if k < k' then (k, v) :: (k', v') :: m else (k', v') :: FMap.put m k v

/-- The map with a value at a key; writing the value of an unlisted key removes the entry. -/
def FMap.set {α : Type} [DecidableEq α] (d : α) (m : FMap α) (k : Nat) (v : α) : FMap α :=
  if v = d then FMap.erase m k else FMap.put m k v

/-- The canonical form over the keys above `lo`: keys strictly rising, no entry equal to the unlisted value. -/
def FMap.wfFrom {α : Type} [DecidableEq α] (d : α) (lo : Nat) : FMap α → Bool
  | [] => true
  | (k, v) :: m => decide (lo ≤ k) && decide (v ≠ d) && FMap.wfFrom d (k + 1) m

/-- The canonical form. -/
def FMap.wf {α : Type} [DecidableEq α] (d : α) (m : FMap α) : Bool := FMap.wfFrom d 0 m

end Sys2Proof.Machine
end

