-- ==== Sys2Proof/Machine/State.lean ====
section
/-! DEFINITION. The state of the device as plain data, its stops, and the state after reset.

Every structure below is what one chapter of the manual gives one kind of thing. A field that is the model's own and
not the manual's says so. -/

namespace Sys2Proof.Machine

/-! ## Stops -/

/-- Why a step stops with a fault. The faults of R4 are no stops: they are delivered, or they end the task. -/
inductive Fault where
  /-- Raised by every instruction word executed where the step's slot holds no group. Safe: no such step exists. -/
  | noGroup
  /-- Raised by every step once the module has no power (R392). Safe: the machine does nothing then. -/
  | poweredOff
  deriving DecidableEq, Repr

/-- Why a step is refused. -/
inductive Refusal where
  /-- The instruction named has no meaning yet. Safe. -/
  | notModelled (mnemonic : String)
  /-- The step named cannot happen in this state: what it needs is not there. Raised by the events of
  95_what_each_step_holds.md, never by an instruction word. Safe. -/
  | notEnabled (what : String)
  deriving DecidableEq, Repr

/-! ## The device's own pace -/

/-- How far the units lag behind the streams (the model's own, log 1). -/
inductive Pace where
  /-- Each access performs in the step that sends it, and units go before streams. -/
  | prompt
  /-- Each access performs in a step of its own, and any part of the device may go next. -/
  | lagged
  deriving DecidableEq, Repr

/-- Privilege levels (R63). -/
inductive Level where
  | u | s | f
  deriving DecidableEq, Repr

/-! ## Memory -/

/-- Integer operations of AMO (R52, R243) and operations of VAMO and VREDM (R51). -/
inductive AtomicFn where
  | add | and | or | xor | min | max | minn | maxn | swap | cas
  deriving DecidableEq, Repr

/-- What a sent access does at its home (R251). -/
inductive Update where
  /-- The bytes of one part of an element, each with the mask of the bits written (R232, R233). -/
  | store (bytes : List (Nat × Byte × Byte))
  /-- A scalar atomic of `size` bytes at a key (R243). -/
  | atomic (key size : Nat) (fn : AtomicFn) (arg arg2 : Nat)
  /-- The updates of one VREDM to one line (R241): keys and operands, with the class, width in slices and rounding. -/
  | reduce (ops : List (Nat × Nat)) (fn : AtomicFn) (cls w rm fz : Nat) (sat : Bool)
  /-- An update of the progress word at a key: an addition to its count, or the maximum and OR of a publication (R238,
  R339). -/
  | progress (key : Nat) (adds : Bool) (v : Nat)
  /-- A whole sector moved by a copy with its own check value and mark (R227). -/
  | move (sector : Nat) (data : BitVec 384) (delta : BitVec 32) (bad : Bool)
  deriving DecidableEq, Repr

/-- What a copy reports as one of its sectors performs (R275, R284, R346): the bytes counted at the barrier object whose key is
`place` in a phase, or the values that arrive at port `place` for a request. -/
inductive Report where
  | barrier (place phase bytes : Nat)
  | port (place serial idx : Nat) (nibbles : List (BitVec 4)) (last : Bool)
  deriving DecidableEq, Repr

/-- A write sent to its home and not yet performed (R251). -/
structure Flight where
  core : Nat
  slot : Nat
  epoch : Nat
  /-- 0 scalar, 1 vector, 2 matrix, 3 copy (R253). -/
  path : Nat
  /-- Store-sequence entry, or 0. -/
  seq : Nat
  /-- Serial of the queue entry or scalar instruction that sent it. -/
  serial : Nat
  upd : Update
  /-- The storing core's L1 takes the bytes on acknowledgement (R224). -/
  l1 : Bool
  /-- Held until the commit of the resilient team with this number, or 0 (R266, R359). -/
  held : Nat
  /-- The team that issued it, or 0. -/
  team : Nat
  /-- The host has to complete it (R372). -/
  host : Bool
  /-- It has performed, and the acknowledgement has not reached the L1 (R224). -/
  performed : Bool
  /-- What it reports as it performs. -/
  report : Option Report := none
  deriving DecidableEq, Repr

/-- Bytes that one path of an incarnation has stored at the home while the L1 held their sector and left it as it was (R224): the
path's own loads of the sector still find them (R253). -/
structure PathBytes where
  slot : Nat
  epoch : Nat
  path : Nat
  upd : Update
  deriving DecidableEq, Repr

/-- One valid sector of a core's L1 (R221): the way its line stands in, its bytes as one number, its check value as a
difference (R226), its poisoned mark, and the resilient team that holds it dirty, or 0 (R224). -/
structure L1Sector where
  sector : Nat
  way : Nat
  data : BitVec 384
  delta : BitVec 32
  bad : Bool
  dirty : Nat
  past : List PathBytes := []
  deriving DecidableEq, Repr

/-- A TLB entry (R218): its tag and the leaf it holds. -/
structure TlbEntry where
  asid : Nat
  base : Nat
  size : Nat
  leaf : BitVec 64
  /-- Physical address of the leaf entry. -/
  pte : Nat
  deriving DecidableEq, Repr

/-- A byte that an access may use: its key, the bytes that follow it under the same check, and the page's attributes. -/
structure Ref where
  key : Nat
  room : Nat
  local_ : Bool
  tier : Nat
  cache : Nat
  chk : Bool
  entry : Option TlbEntry
  deriving DecidableEq, Repr

/-! ## Groups -/

/-- A fault recorded for a group: where it stands in program order, and what its delivery writes (R77, R350). -/
structure FaultInfo where
  serial : Nat
  code : Nat
  src : Nat
  pc : Word
  addr : Word
  elem : Nat
  deriving DecidableEq, Repr

/-- What a scalar read of register state waits for (R18). -/
inductive Drain where
  /-- Tags on x registers. -/
  | regs (rs : List Nat)
  /-- Writers of a mask. -/
  | mask (m : Nat)
  /-- Writers of any mask. -/
  | masks
  /-- The vector and matrix queues, for fs. -/
  | flags
  /-- The vector queue, for vst. -/
  | vst
  deriving DecidableEq, Repr

/-- What a push or a store waits for (R19, R331, R359). -/
inductive Room where
  | queue (q : QueueKind)
  | counter (cls : Nat)
  /-- The checkpoint of the own team. -/
  | commit
  deriving DecidableEq, Repr

/-- The stream's reason to wait, with what the instruction that waits still needs. -/
inductive Wait where
  /-- A drain to a producer (R18); the instruction executes again. -/
  | drain (d : Drain)
  /-- Room in a queue or counter (R19, R331); the instruction executes again. -/
  | push (r : Room)
  /-- A scalar load's witness and data (R242). -/
  | load (d : Nat) (addr : Word) (size : Nat) (signed : Bool) (wit : Word)
  /-- An atomic that is not performed yet: a returning one, or one that performs inside a checkpoint (R243, R267). -/
  | atomic (d : Nat) (addr : Word) (size : Nat) (fn : AtomicFn) (arg arg2 : Nat) (w : Nat)
  /-- WWAIT, or WSETTLE when `settle` is true (R246). -/
  | witness (w : Word) (settle : Bool)
  /-- A gated SETVL (R145): the requested elements and the keep-sc bit. -/
  | gate (d : Nat) (n : Word) (keep : Bool)
  /-- PWAIT (R338). -/
  | pwait (addr value : Word)
  /-- WAITC of a class (R333). -/
  | waitc (cls : Nat) (n : Word)
  /-- BWAIT for a phase (R344). -/
  | bwait (addr : Word) (phase : Nat)
  /-- BINIT of an object of another team that is resilient (R359). -/
  | binit (addr value : Word)
  /-- BEXPECT while its phase is more than four ahead (R344). -/
  | bexpect (addr value : Word)
  /-- ARRIVE of c workers before its two stalls end (R345). -/
  | arrive (addr : Word) (c : Nat)
  /-- SETVL that negotiates (R100): the request and what follows it. -/
  | vlmax (d : Nat) (n req : Word) (gated keep : Bool)
  /-- SETVL whose growth to a VLMAX waits for the checkpoints of teams with dirty sectors in the banks it claims (R101, R103,
  R225). -/
  | claim (d : Nat) (n : Word) (v : Nat) (gated keep : Bool)
  /-- SETTILE that changes the geometry (R191). -/
  | settile (d : Nat) (a b : Word)
  /-- WAITE for latch bits, until a cycle of the core, or for ever (R140). -/
  | waite (sel : BitVec 3) (until_ : Option Nat)
  /-- MTCR of fs, pw, ptb or asid (R65). -/
  | mtcr (num : Nat) (v : Word)
  /-- FENCEI (R143). -/
  | fencei
  /-- A scalar store that performs inside a checkpoint of its team (R267). -/
  | store (addr : Word) (size : Nat) (v : Word) (w : Nat)
  deriving DecidableEq, Repr

/-- What a group's scalar stream does. -/
inductive Status where
  | running
  | waiting (w : Wait)
  /-- Stopped by a fault that is not yet delivered (R30). -/
  | stopped
  /-- Draining after EXIT (R142). -/
  | exiting
  deriving DecidableEq, Repr

/-- Results of an entry that has executed and has not yet left its queue: flags to fold and an x register to write. -/
structure Done where
  flags : BitVec 17
  xreg : Option (Nat × Word)
  deriving DecidableEq, Repr

/-- What one element of the slice file and of the masks held (R85, R68), with the marks of poisoned words (R366): slice s at
bits 4s to 4s + 3, mask m at bit m, register j of the element at bit j. -/
structure Row where
  slices : BitVec 3072
  masks : BitVec 12
  badSlices : BitVec 48
  badMasks : BitVec 12
  deriving DecidableEq, Repr

/-- What a convoy that has stopped before its end needs when it goes on (the model's own). Members are named by their place in the
convoy. -/
structure Progress where
  /-- Members found dropped (true) or not (R26). -/
  judged : FMap (Option Bool)
  /-- Elements as members that read other elements found them, before any write of theirs or of a younger member: key
  member × 2^16 + element (R90, R91). -/
  rows : FMap (Option Row)
  /-- The port whose next value the entry waits for (R272). -/
  short : Option Nat
  /-- Members not judged yet, whose mask an earlier member has written only in part: the elements below which that mask is false, and
  for how many elements the member has still to take its port values (R26, R150). -/
  late : FMap (Option (Nat × Nat))
  /-- Elements below vst that a member still has to perform: the first, and the one after the last (R171). -/
  owed : FMap (Option (Nat × Nat))
  /-- Updates of a reduction at memory not merged yet: key, page, operand (R241). -/
  pend : List (Nat × Ref × Nat)
  /-- The store of element 0 has been sent ahead of a load that waits for its witness (R235). -/
  ahead : Bool
  deriving DecidableEq, Repr

/-- A convoy that has not begun. -/
def Progress.fresh : Progress := { judged := [], rows := [], short := none, late := [], owed := [], pend := [], ahead := false }

/-- A vector-queue entry: one convoy and what it captured (R268). -/
structure VEntry where
  /-- Place in the group's program order (the model's own). -/
  serial : Nat
  pc : Word
  members : List Instr
  /-- Captured scalar values of each member. -/
  caps : List (List Word)
  vl : Nat
  vt : BitVec 64
  sc : Nat
  vlmax : Nat
  pw : BitVec 64
  gate : BitVec 64
  det : Bool
  /-- Store-sequence number of the store-unit member, or 0. -/
  seq : Nat
  /-- A notifying store took a second entry (R248). -/
  notify : Bool
  /-- Witness registers' values given to loads (R255), for the floor. -/
  wits : List Word
  begun : Bool
  prog : Progress
  done : Option Done
  deriving DecidableEq, Repr

/-- A matrix-queue entry (R268). -/
structure MEntry where
  serial : Nat
  pc : Word
  instr : Instr
  x : Word
  y : Word
  vl : Nat
  vt : BitVec 64
  gm : BitVec 32
  gn : BitVec 32
  gk : BitVec 32
  gf : BitVec 12
  begun : Bool
  done : Option Done
  deriving DecidableEq, Repr

/-- Kinds of COPY (R283). -/
inductive CopyFn where
  | linear | box | tilea | tileb | tilec | fill | remote
  deriving DecidableEq, Repr

/-- Collective operations (R379 to R383). -/
inductive CollFn where
  | allred | redscat | allgath | bcast | cabort | cattempt
  deriving DecidableEq, Repr

/-- What a copy-queue word does (R278, R281, R288, R379). -/
inductive CopyOp where
  /-- COPY of a kind, with its format code and target. -/
  | copy (fn : CopyFn) (fmt target : Nat)
  | kick
  | bindMem (port : Nat)
  | bindCopy (port : Nat)
  | bindFifo (port : Nat)
  | unbind (port : Nat)
  | stat (d port : Nat)
  | drain (port : Nat)
  /-- COLL with its format code, operation, and destination register. -/
  | coll (fn : CollFn) (fmt op d : Nat)
  deriving DecidableEq, Repr

/-- A copy-queue entry (R268). -/
structure CEntry where
  serial : Nat
  pc : Word
  /-- The instruction word. -/
  word : Word
  op : CopyOp
  xd : Word
  xd1 : Word
  xa : Word
  xb : Word
  gm : BitVec 32
  gn : BitVec 32
  gk : BitVec 32
  gf : BitVec 12
  seq : Nat
  begun : Bool
  /-- Next record of a CKICK list (R288). -/
  next : Nat
  /-- Every record of the list has been begun, or the copy has. -/
  allBegun : Bool
  done : Option Done
  deriving DecidableEq, Repr

/-- One destination byte of a copy (R283): its key, the bits written, the value where the byte is built, and the key and
address of the source byte where it is moved. -/
structure CopyByte where
  key : Nat
  mask : Byte
  val : Byte
  src : Option (Nat × Word)
  /-- The source sector is checked when read (R229). -/
  chk : Bool
  /-- The copy has itself written the source byte since: `val` is what the byte held before, in a sector with that check difference
  and mark. -/
  saved : Bool
  delta : BitVec 32 := 0
  bad : Bool := false
  deriving DecidableEq, Repr

/-- A request begun by the request engine and not complete (R287): the destination sectors still to perform. -/
structure CopyJob where
  serial : Nat
  /-- Number of the record in a list, 0 for a COPY. -/
  idx : Nat
  pieces : List (List CopyByte)
  /-- The resilient team that holds its global writes, or 0 (R266). -/
  hold : Nat
  /-- Counted bytes (R284). -/
  bytes : Nat
  /-- 0 counter, 1 barrier object, 2 port. -/
  target : Nat
  /-- Key of the barrier object, or port number. -/
  place : Nat
  phase : Nat
  /-- Its destination is in the local space. -/
  toLocal : Bool
  /-- Address of the list record, or of the copy's instruction. -/
  record : Word
  /-- A request of a CKICK list. -/
  listed : Bool
  /-- The fault that ends the request after its pieces (R285 step 5). -/
  fault : Option FaultInfo
  deriving DecidableEq, Repr

/-- States of a stream port (R271). -/
inductive PortKind where
  | unbound | record | copy | fifo
  deriving DecidableEq, Repr

/-- The fields of a binding record that a port keeps (R273, R312). -/
structure Binding where
  base : Word
  stride : Word
  sbase : Word
  count : Nat
  fmt : Nat
  sfmt : Nat
  sblock : Nat
  deriving DecidableEq, Repr

/-- A value that a record port has fetched: its bits, its scale's bits, and the fault the fetch found (R274). -/
structure Fetched where
  val : Nat
  scale : Nat
  fault : Option (Nat × Word)
  deriving DecidableEq, Repr

/-- The arrivals of one copy at a port, as 4-bit pieces in stream order (R275). -/
structure Arrival where
  serial : Nat
  idx : Nat
  complete : Bool
  nibbles : List (BitVec 4)
  deriving DecidableEq, Repr

/-- A stream port (R271 to R276). -/
structure Port where
  kind : PortKind
  bind : Binding
  /-- Values taken since the binding. -/
  pos : Nat
  fetched : List Fetched
  arrivals : List Arrival
  /-- The piece of the arrived stream taken or discarded last, and whether it was the low half of a byte of the stream (R326). -/
  half : BitVec 4
  odd : Bool
  /-- Patterns with their widths in slices. -/
  fifo : List (Nat × Nat)
  deriving DecidableEq, Repr

/-- What a store-sequence entry waits for (R248). -/
inductive SeqKind where
  /-- Its elements, sent in full when `sent` is true. -/
  | plain (sent : Bool)
  /-- Both inputs of a knot (R247). -/
  | knot (a b : Word)
  /-- A notify update of vl on a progress word (R238). -/
  | notify (pw : Word) (vl : Nat)
  /-- A PPUB update (R339). -/
  | ppub (addr value : Word) (serial : Nat)
  deriving DecidableEq, Repr

/-- A store-sequence entry that has been pushed and is not yet below wdone (R248, R255). -/
structure SeqEntry where
  seq : Nat
  kind : SeqKind
  floor : List Word
  complete : Bool
  deriving DecidableEq, Repr

/-- An entry counted in cc, mc, ac or oc, in push order (R75). -/
structure Counted where
  cls : Nat
  serial : Nat
  complete : Bool
  deriving DecidableEq, Repr

/-- The reuse latch (R196): its tag and its A operand, keyed by row and column. -/
structure Latch where
  start : Nat
  gm : Nat
  gk : Nat
  ifmt : Nat
  vals : FMap Nat
  deriving DecidableEq, Repr

/-- The scalar part of a group (R66). -/
structure Scalar where
  /-- x1 to x31. -/
  x : FMap Word
  pc : Word
  level : Level
  status : Status
  /-- Words of a convoy whose last member is not yet decoded, and the address of the first (R24). -/
  openWords : List Instr
  openPc : Word
  /-- Event latch (R140). -/
  latch : BitVec 3
  /-- x registers tagged by queued members: the serials of the members whose tag stands, oldest first (R173). -/
  tags : FMap (List Nat)
  /-- Next place in program order (the model's own). -/
  serial : Nat
  /-- Cycle of the core until which the slot is not ready (R141). -/
  yieldUntil : Nat
  deriving DecidableEq, Repr

/-- Vector control and flags (R67 to R69). -/
structure VCtl where
  vl : Nat
  vlmax : Nat
  vst : Nat
  sc : Nat
  vt : BitVec 64
  fs : BitVec 64
  deriving DecidableEq, Repr

/-- Grants (R70, R71). -/
structure Grant where
  gm : BitVec 32
  gn : BitVec 32
  gk : BitVec 32
  gf : BitVec 12
  deriving DecidableEq, Repr

/-- Ordering state (R74 to R76). -/
structure Order where
  wseq : Nat
  wdone : Nat
  entries : List SeqEntry
  counted : List Counted
  /-- Witnesses given to vector loads of this incarnation, for floors (R255). -/
  floor : List Word
  pw : BitVec 64
  gate : BitVec 64
  gcons : BitVec 64
  deriving DecidableEq, Repr

/-- Trap registers and translation (R77, R78), and faults not yet delivered (R30, R289). -/
structure Trap where
  trpc : Word
  tres : Word
  tcause : Word
  taddr : Word
  telem : Word
  tvec : Word
  tsv0 : Word
  tsv1 : Word
  ptb : Word
  asid : Word
  frozen : Bool
  pending : List FaultInfo
  /-- A held CKICK or PPUB fault: record address and code (R289, R339). -/
  held : Option (Word × Nat)
  deriving DecidableEq, Repr

/-- Who a group is (R72, R73): the high fields of cls but the epoch, gpri, the low fields of gid, tattr. -/
structure Ident where
  /-- Team number, 0 for a firmware core's group (the model's own). -/
  team : Nat
  cluster : Nat
  cidx : Nat
  gidx : Nat
  share : Nat
  gpri : Nat
  tattr : BitVec 4
  alloc : Nat
  deriving DecidableEq, Repr

/-- The register files (R66), with the marks of poisoned words (R366). -/
structure Files where
  /-- Each element's 768 slices as one bit vector, slice s at bits 4s to 4s + 3. -/
  slices : FMap (BitVec 3072)
  /-- m0 to m11, bit e for element e. -/
  masks : FMap (BitVec 1024)
  /-- Tile elements: key ((t × 2^16 + i) × 2^16 + j). -/
  tiles : FMap Nat
  latch : Option Latch
  ports : FMap Port
  /-- Poisoned 64-bit words (R366): register j of element e at key e × 48 + j; word w of mask m at 16 m + w; word w of row i of
  a tile at the tile's key of (i, w); word w of row i of the latch at i × 2^16 + w. -/
  badSlices : FMap Bool
  badMasks : FMap Bool
  badTiles : FMap Bool
  badLatch : FMap Bool
  deriving DecidableEq, Repr

/-- Storage that a group holds on its core (R84, R100, R192, R204). -/
structure Storage where
  baseUnits : Nat
  /-- Units held in each swing bank. -/
  swing : FMap Nat
  /-- Units of the shared accumulator pool. -/
  accUnits : Nat
  /-- Scratchpad bytes reserved for an honoured grant, as offset and size. -/
  honoured : Option (Nat × Nat)
  deriving DecidableEq, Repr

/-- The dispatch queues of a group and the copies begun (R19, R287). -/
structure Queues where
  vq : List VEntry
  mq : List MEntry
  cq : List CEntry
  jobs : List CopyJob
  /-- Serials of the queue entries with a word marked poisoned (R366). -/
  bad : List Nat
  deriving DecidableEq, Repr

/-- A group in a slot (R8, R66). -/
structure Group where
  sca : Scalar
  vec : VCtl
  gra : Grant
  ord : Order
  trp : Trap
  idn : Ident
  fil : Files
  sto : Storage
  que : Queues
  deriving DecidableEq, Repr

/-- A slot of a core: its epoch and bitmaps (R259), its activity counts since they were last read (R303; at key 16 the time of
that read), and its group. -/
structure Slot where
  epoch : Nat
  killed : BitVec 2048
  away : BitVec 2048
  activity : FMap Nat
  group : Option Group
  deriving DecidableEq, Repr

/-! ## Cores -/

/-- Array modes (R202). -/
inductive ArrayMode where
  | whole | halves | quarters
  deriving DecidableEq, Repr

/-- Test block of a firmware core (R80). -/
structure TestBlock where
  sel : Nat
  abtpri : Nat
  abten : Bool
  stat : Nat
  cnt : Nat
  sig : Word
  exp : Word
  gen : Word
  /-- Core cycle of the device at which the pattern began to run. -/
  started : Nat
  /-- Core cycle of the device at which an aborted pattern stops (R414). -/
  stopAt : Option Nat := none
  deriving DecidableEq, Repr

/-- A core (R66). -/
structure Core where
  slots : FMap Slot
  /-- Core cycle of the device at which the core was last reset; cyc counts from it (R79). -/
  resetAt : Nat
  tlb : List TlbEntry
  /-- Sectors of the L1, most recently used first. -/
  l1 : List L1Sector
  /-- Words of the instruction cache, the last used first, by the key asid × 2^46 + address / 4: at most 16,384, which is 64 KiB
  (R221). -/
  icache : List (Nat × BitVec 32)
  /-- Deficits: key arbiter × 16 + slot (R21). -/
  deficits : FMap Nat
  /-- Slot that each scalar pipeline served last, plus 1 (R14). -/
  served : FMap Nat
  mode : ArrayMode
  /-- Consecutive cycles with a ready head of another mode (R202). -/
  modeWait : Nat
  /-- The kick register, one entry for each slot (R288). -/
  kick : FMap Word
  /-- Handler-active flag of a firmware core (R352). -/
  handler : Bool
  /-- A firmware core under reset (R352, R384). -/
  down : Bool
  test : TestBlock
  deriving DecidableEq, Repr

/-! ## Teams, tasks and queues -/

/-- A resilient team's shadow and interval (R358, R359). -/
structure Resilient where
  /-- The groups' state at the last checkpoint, by group index. -/
  shadow : List Group
  /-- Sectors of the team region whose old bytes and check values stand in the undo log, newest first, each with its mark. -/
  undo : List (Nat × Bool)
  /-- Failure count. -/
  failed : Bool
  /-- The checkpoint area reserved in the context pool: address and bytes (R358). -/
  area : Nat
  areaSize : Nat
  deriving DecidableEq, Repr

/-- The first failure event of a task (R321). -/
structure FailRecord where
  gid : Word
  trpc : Word
  taddr : Word
  telem : Nat
  code : Nat
  src : Nat
  plev : Nat
  orig : Nat
  ending : Nat
  stamp : Nat
  deriving DecidableEq, Repr

/-- A team on a core (R8, R209). -/
structure Team where
  task : Nat
  cluster : Nat
  cidx : Nat
  core : Nat
  slots : List Nat
  /-- Offset of the team region in the core's scratchpad. -/
  region : Nat
  size : Nat
  frame : Nat
  /-- Groups that the task descriptor gives each team: their private frames (R209). -/
  groups : Nat
  /-- Cores of the cluster, in order of core index. -/
  cores : List Nat
  resilient : Option Resilient
  /-- A checkpoint is due, asked for by a slot or by the device. -/
  cut : Bool
  /-- A rollback is due, for that failure (R363). -/
  roll : Option FailRecord
  /-- The team stands between the commit and the shadow copy of a checkpoint, where other teams' accesses to its region
  perform (R361 step 4). -/
  inside : Bool
  deriving DecidableEq, Repr

/-- An incarnation that is away (R259): its slot and epoch, its last entry, the group that held it, and that group's
wdone when it was saved. -/
structure Away where
  core : Nat
  slot : Nat
  epoch : Nat
  last : Nat
  task : Nat
  cluster : Nat
  cidx : Nat
  gidx : Nat
  wdone : Nat
  deriving DecidableEq, Repr

/-- A pre-empted team in the context pool (R322): whose it is, where its image lies, and the shape it needs. -/
structure SavedTeam where
  task : Nat
  cluster : Nat
  cidx : Nat
  addr : Nat
  size : Nat
  klass : Nat
  width : Nat
  height : Nat
  /-- The groups, for what the image does not carry: entries and counts not complete, floors, marks (the model's own). -/
  groups : List Group
  /-- Sectors of the team region that are marked poisoned, counted from its start (R366). -/
  marks : List Nat
  deriving DecidableEq, Repr

/-- A task descriptor as the Trowel keeps it (R314). -/
structure Descr where
  entry : Word
  args : Word
  tvec : Word
  clusters : Nat
  vlmax : Nat
  slices : Nat
  region : Nat
  frame : Nat
  groups : Nat
  width : Nat
  height : Nat
  klass : Nat
  attr : BitVec 4
  addr : Word
  deriving DecidableEq, Repr

/-- A launched task (R8, R293). -/
structure Task where
  queue : Nat
  /-- Journal index of its LAUNCH. -/
  jidx : Nat
  descr : Descr
  argp : Word
  cword : Word
  gate : Word
  faultrec : Word
  /-- Next cluster to place. -/
  next : Nat
  /-- Clusters that run, with the time of their start plus 1. -/
  live : FMap Nat
  /-- Clusters whose groups have all exited. -/
  finished : Nat
  fail : Option FailRecord
  /-- Later failure events (R321). -/
  more : Nat
  /-- A kill is due, with the REASON of the final state: 3 for a fault, 6 or 7 for a cancel (R294, R369). -/
  kill : Option Nat
  /-- Priority of the queue when the LAUNCH was last selected (R300). -/
  pri : Nat
  /-- The LAUNCH has been selected, and its placement is still to be tried (R300, R301). -/
  placing : Bool
  /-- A placement pass is due (R301). -/
  due : Bool
  /-- Clusters whose pre-emption has been asked for and waits for a boundary (R354). -/
  asked : List Nat
  /-- Cores that the placement of its next cluster has found and has still to commit: their OCC bits are set (R301, R413). -/
  claim : List Nat := []
  deriving DecidableEq, Repr

/-- States of a journal entry (R298). -/
inductive CmdState where
  | accepted | started | done | failed | cancelled | abandoned
  deriving DecidableEq, Repr

/-- A command accepted and not final (R292, R295): its 64 bytes as doublewords. -/
structure Command where
  seq : Nat
  kind : Nat
  flags : Nat
  words : List Word
  jidx : Nat
  jgen : Nat
  ring : Nat
  state : CmdState
  /-- Every effect has performed: the final state it reached, its REASON and TAG. -/
  result : Option (CmdState × Nat × Word)
  /-- Number of its task, or 0. -/
  task : Nat
  deriving DecidableEq, Repr

/-- A command queue: its descriptor (R291, R316), state (R292) and account (R304). -/
structure CmdQueue where
  enable : Bool
  haltfail : Bool
  /-- A QLOAD has taken a descriptor since reset (R81). -/
  loaded : Bool
  ringbase : Word
  ringlog : Nat
  ptb : Word
  asid : Nat
  priority : Nat
  share : Nat
  part : Nat
  budget : Nat
  period : Nat
  tail : Nat
  qhead : Nat
  pendingBit : Bool
  nextSeq : Nat
  qseq : Nat
  commands : List Command
  charge : Nat
  remainder : Nat
  periodStart : Nat
  descheduled : Bool
  /-- Sequence numbers whose commands became final other than DONE since ENABLE was set (R294). -/
  failedSeqs : List Nat
  /-- Time after which a QSEQ message may be sent, and a held advance (R374). -/
  msgAt : Nat
  msgHeld : Bool
  deriving DecidableEq, Repr

/-! ## The Trowel, the dies and the fabric -/

/-- A mailbox request under way (R385, R386). -/
structure Mailbox where
  req : FMap Word
  busy : Bool
  result : Nat
  number : Nat
  /-- The request has acted and waits for its completion, or for the acknowledgement of an invalidation. -/
  acted : Bool
  /-- The invalidation has been acknowledged (R219). -/
  acked : Bool
  deriving DecidableEq, Repr

/-- Ownership and firmware (R387 to R389). -/
structure Owner where
  owned : Bool
  keys : List (List Byte)
  releases : Nat
  secver : Nat
  staged : Option (List Byte)
  enrolled : Option (List (List Byte))
  deriving DecidableEq, Repr

/-- Where one die's firmware keeps the structures of its Weeder, by physical address of tier 0, and the threshold priority
(R412, R413; log 19). -/
structure WeederArea where
  due : Nat
  occ : Nat
  lpend : Nat
  pri : Nat
  door : Nat
  thr : Nat
  deriving DecidableEq, Repr

/-- State of the Trowel (R82, R300, R307, R310, R376, R385, R388). -/
structure Trowel where
  mmioerr : Word
  qdtbase : Word
  qdtcount : Word
  jbase : Word
  jlog : Nat
  jhead : Nat
  jgen : Nat
  ectbase : Word
  ectSet : Bool
  ctxbase : Word
  ctxsize : Word
  commbase : Word
  commcount : Word
  expbase : Word
  osid : Word
  rtbase : Word
  osrefuse : Word
  parts : FMap Word
  hostctl : Word
  /-- last[p] of each partition: key part × 16 + p. -/
  last : FMap Nat
  /-- Device events whose journal entries are still to be written: reason and tag (R320). -/
  events : List (Nat × Nat)
  /-- Cores being cleared for a map-out (false) or a removal (true) (R368). -/
  removals : List (Nat × Bool)
  /-- The Weeder's structures, where the firmware has any (R413). -/
  weeder : List WeederArea
  mail : Mailbox
  ms : FMap (BitVec 384)
  owner : Owner
  /-- Reference tick of the last charge read. -/
  lastCharge : Nat
  lastSample : Nat
  /-- The last reset followed a thermal trip (R392). -/
  tripped : Bool
  /-- Corrected errors counted (R366). -/
  corrected : Nat
  deriving DecidableEq, Repr

/-- A die (R390 to R392): its cap level, the hold of R392, the tick at which a droop's narrowing ends, and the alarm
from reset to the training of memory. -/
structure Die where
  level : Nat
  hold : Bool
  droopEnd : Option Nat
  untrained : Bool
  deriving DecidableEq, Repr

/-- A contribution of a peer that has arrived (R382): communicator, attempt, sequence, rank, offset, bytes, and what its header says of
the collective. -/
structure Contribution where
  comm : Nat
  attempt : BitVec 32
  seq : BitVec 32
  rank : Nat
  offset : Nat
  head : CollHead
  data : List Byte
  /-- The port that it came by, or 64 for the device's own (R375). -/
  port : Nat
  deriving DecidableEq, Repr

/-- A collective begun by a group's copy queue and not complete (R380, R382): its entry, what its descriptor and its
communicator said, and the address of the descriptor. -/
structure CollRun where
  core : Nat
  slot : Nat
  serial : Nat
  fn : CollFn
  fmt : Nat
  op : Nat
  comm : Nat
  n : Nat
  rank : Nat
  attempt : BitVec 32
  seq : BitVec 32
  root : Nat
  count : Nat
  dst : Word
  desc : Word
  /-- Keys that its result and its status word are written at, as runs: younger copies of the group wait for them (R253, R290). -/
  writes : List (Nat × Nat)
  deriving DecidableEq, Repr

/-- A flit of a contribution that this device has sent and that has not been acknowledged (R375, R382): the collective, the peer, the
offset of its line, and the port that carries it. -/
structure SentFlit where
  comm : Nat
  attempt : BitVec 32
  seq : BitVec 32
  dev : Nat
  offset : Nat
  port : Nat
  deriving DecidableEq, Repr

/-- The fabric as this device sees it (R375 to R383). -/
structure Fabric where
  ports : BitVec 64
  /-- Consecutive replays of a port, of what it receives, and at the port's number plus 64 of what it sends (R375). -/
  replays : FMap Nat
  attempts : FMap (BitVec 32)
  inbox : List Contribution
  sent : List SentFlit
  runs : List CollRun
  /-- Abort tokens sent, for the outside to see. -/
  tokens : List (Nat × BitVec 32)
  deriving DecidableEq, Repr

/-- A message to the host (R374). -/
structure Msg where
  kind : Nat
  queue : Nat
  value : Word
  deriving DecidableEq, Repr

/-- What the device answers to a read from outside (R371, R377). -/
inductive Reply where
  /-- The value of an MMR at an offset. -/
  | value (off : Nat) (v : Word)
  /-- The bytes of a DMR or of a remote read at an address, and the sectors that carry the link's error marker. -/
  | data (pa : Nat) (bytes : List Byte) (marked : List Nat)
  /-- An error completion. -/
  | error (pa : Nat)
  deriving DecidableEq, Repr

/-! ## The machine -/

/-- The state of the device. -/
structure State where
  pace : Pace
  tick : Nat
  now : Nat
  curCore : Nat
  curSlot : Nat
  agenda : List Instr
  mem : List Host.Cell
  chk : FMap (BitVec 32)
  bad : FMap Bool
  flights : List Flight
  cores : FMap Core
  teams : FMap (Option Team)
  nextTeam : Nat
  tasks : FMap (Option Task)
  nextTask : Nat
  saved : List SavedTeam
  aways : List Away
  queues : FMap CmdQueue
  trowel : Trowel
  fabric : Fabric
  dies : FMap Die
  belowCount : Nat
  powerLimit : Nat
  powered : Bool
  ucie : BitVec 4
  msgs : List Msg
  replies : List Reply
  deriving DecidableEq, Repr

/-! ## Values at reset -/

/-- A slot that has never held a group (R259). -/
def Slot.empty : Slot := { epoch := 0, killed := 0, away := 0, activity := [], group := none }

/-- The test block at reset (R80). -/
def TestBlock.empty : TestBlock :=
  { sel := 0, abtpri := 0, abten := false, stat := 0, cnt := 0, sig := 0, exp := 0, gen := 0, started := 0 }

/-- A map core at reset (R79, R202, R221). -/
def Core.empty : Core :=
  { slots := [], resetAt := 0, tlb := [], l1 := [], icache := [], deficits := [], served := [], mode := .whole, modeWait := 0,
    kick := [], handler := false, down := false, test := .empty }

/-- An unbound port (R271). -/
def Port.empty : Port :=
  { kind := .unbound, bind := { base := 0, stride := 0, sbase := 0, count := 0, fmt := 0, sfmt := 0, sblock := 0 },
    pos := 0, fetched := [], arrivals := [], half := 0, odd := false, fifo := [] }

/-- A queue without a descriptor (R81, R291, R292). -/
def CmdQueue.empty : CmdQueue :=
  { enable := false, haltfail := false, loaded := false, ringbase := 0, ringlog := 0, ptb := 0, asid := 0,
    priority := 0, share := 0, part := 0, budget := 0, period := 0, tail := 0, qhead := 0, pendingBit := false,
    nextSeq := 1, qseq := 0, commands := [], charge := 0, remainder := 0, periodStart := 0, descheduled := false,
    failedSeqs := [], msgAt := 0, msgHeld := false }

/-- A die at reset: no cap, and the power alarm until memory is trained (R390, R391). -/
def Die.empty : Die := { level := 0, hold := false, droopEnd := none, untrained := true }

/-- The mailbox at reset. -/
def Mailbox.empty : Mailbox := { req := [], busy := false, result := 0, number := 0, acted := false, acked := false }

/-- Ownership at reset: an owned device with no recorded key digests (log 29). -/
def Owner.empty : Owner :=
  { owned := true, keys := [], releases := 0, secver := 0, staged := none, enrolled := none }

/-- The Trowel at reset: partition 0 enabled with all 24 columns, host access permitted (R307); last[p] = 4,095 is the
unlisted value (R300); JLOG 12 (log 8); measurements zero (R388). -/
def Trowel.empty : Trowel :=
  { mmioerr := 0, qdtbase := 0, qdtcount := 0, jbase := 0, jlog := 12, jhead := 0, jgen := 0, ectbase := 0,
    ectSet := false, ctxbase := 0, ctxsize := 0, commbase := 0, commcount := 0, expbase := 0, osid := 0, rtbase := 0,
    osrefuse := 0, parts := [(0, 0x1FF_FFFF#64)], hostctl := 1, last := [], events := [], removals := [], weeder := [], mail := .empty, ms := [],
    owner := .empty, lastCharge := 0, lastSample := 0, tripped := false,
    corrected := 0 }

/-- The fabric at reset: every port up, every attempt 0, nothing received. -/
def Fabric.empty : Fabric := { ports := BitVec.allOnes 64, replays := [], attempts := [], inbox := [], sent := [], runs := [], tokens := [] }

/-- The machine right after device reset. Memory lists nothing; no slot holds a group, and each firmware core is under its reset, from
which it returns with its group (R384; log 19); each register holds the value the manual gives, or the one that log 8 names. -/
def State.reset : State :=
  { pace := .prompt, tick := 0, now := 0, curCore := 0, curSlot := 0, agenda := [], mem := [], chk := [], bad := [],
    flights := [], cores := [288, 289, 290, 291].map fun c => (c, { Core.empty with down := true }), teams := [], nextTeam := 1, tasks := [], nextTask := 1, saved := [], aways := [], queues := [],
    trowel := .empty, fabric := .empty, dies := [], belowCount := 0, powerLimit := 3000, powered := true,
    ucie := BitVec.allOnes 4, msgs := [], replies := [] }

end Sys2Proof.Machine
end

