-- ==== Sys2Proof/Machine/Memory.lean ====
section
/-! DEFINITION. Memory: the one space of keys that all bytes live in, reads and writes of bytes and sectors, check values
(R226 to R228), poisoned marks (R366), SHA-384 (R388).

A key is a number. Physical addresses are their own keys; the scratchpads, host memory and remote apertures follow
above them, each part a multiple of 48 bytes so that sector = key / 48 everywhere (log 7). -/

namespace Sys2Proof.Machine

/-! ## The core map's geometry (R1, R73, R79, R384) -/

/-- Number of map cores; firmware core i is core 288 + i. -/
def mapCores : Nat := 288

def isFirmware (core : Nat) : Bool := 288 ≤ core

def coreRow (core : Nat) : Nat := core / 24

def coreCol (core : Nat) : Nat := core % 24

/-- Whether a column holds E-cores (R1). -/
def isEColumn (col : Nat) : Bool := col == 0 || col == 11 || col == 12 || col == 23

/-- Class of a core: 0 M-core, 1 E-core; a firmware core reads 1 (R72, R384). -/
def coreClass (core : Nat) : Nat := if isFirmware core || isEColumn (coreCol core) then 1 else 0

/-- Die of a core (R1, R384). -/
def coreDie (core : Nat) : Nat :=
  if isFirmware core then (core - 288) / 2 else if coreCol core < 12 then 0 else 1

/-- Slots of a core (R14, R384). -/
def coreSlots (core : Nat) : Nat := if isFirmware core then 1 else if coreClass core == 0 then 16 else 8

/-- Datapath lanes (R72, R384). -/
def coreLanes (core : Nat) : Nat := if coreClass core == 0 then 32 else 8

/-- The coreid image of a core (R79). -/
def coreidImage (core : Nat) : Nat :=
  let row := if isFirmware core then 15 else coreRow core
  let col := if isFirmware core then 24 + (core - 288) else coreCol core
  core % 512 + col * 2 ^ 9 + row * 2 ^ 14 + coreDie core * 2 ^ 18 + coreClass core * 2 ^ 19

/-! ## Keys -/

/-- Key of byte `off` of a core's scratchpad (R209). -/
def padKey (core off : Nat) : Nat := 48 * 2 ^ 47 + core * 786432 + off

/-- Key of a byte of host memory (R373). -/
def hostKey (addr : Nat) : Nat := 48 * 2 ^ 48 + addr

/-- Whether a key is a byte of host memory. -/
def isHostKey (key : Nat) : Bool := decide (hostKey 0 ≤ key) && decide (key < 48 * 2 ^ 50)

/-- Key of a byte of a remote device's aperture (R377). -/
def remoteKey (dev off : Nat) : Nat := 48 * 2 ^ 50 + dev * (48 * 2 ^ 38) + off

/-- Installed DDR-5 bytes of a die (R211). -/
def ddrOf (die : Nat) : Nat := min (Config.ddrBytes die) (3 * 2 ^ 40)

/-- Whether n bytes at a physical address lie in one run of installed memory of tiers 0 and 1 (R211). -/
def installed (pa n : Nat) : Bool :=
  let ends := pa + n
  decide (ends ≤ 0x80_0000_0000)
    || (decide (0x1000_0000_0000 ≤ pa) && decide (ends ≤ 0x1000_0000_0000 + ddrOf 0))
    || (decide (0x1400_0000_0000 ≤ pa) && decide (ends ≤ 0x1400_0000_0000 + ddrOf 1))

/-- Tier of a physical address: 0 HBM4, 1 DDR-5 (R211). -/
def tierOf (pa : Nat) : Nat := if pa < 0x80_0000_0000 then 0 else 1

/-! ## Bytes -/

/-- A core's map entry at reset: in service with nothing mapped out, unless the part's fused record says otherwise (R328). -/
def bornEntry (core : Nat) : Nat :=
  let f := Config.fusedState core % 3
  coreidImage core + (if f == 0 then 0 else f + 1) * 2 ^ 21
    + Config.fusedMapout core % (if coreClass core == 0 then 8 else 2) * 2 ^ 28

/-- What an unlisted byte reads as: the core map at reset (R328), zero elsewhere (log 5). -/
def bornByte (key : Nat) : Byte :=
  if Config.cmapBase ≤ key && key < Config.cmapBase + 8 * mapCores then
    let off := key - Config.cmapBase
    BitVec.ofNat 8 (bornEntry (off / 8) / 2 ^ (8 * (off % 8)))
  else 0

/-- The byte at a key. -/
def memGet (m : List Host.Cell) (key : Nat) : Byte := FMap.get (bornByte key) m key

/-- Memory with a byte written. -/
def memSet (m : List Host.Cell) (key : Nat) (v : Byte) : List Host.Cell := FMap.set (bornByte key) m key v

/-- The canonical form of memory over the keys from `lo`: keys strictly rising, no byte equal to what is unlisted. -/
def Memory.wfFrom (lo : Nat) : List Host.Cell → Bool
  | [] => true
  | (k, v) :: m => decide (lo ≤ k) && decide (v ≠ bornByte k) && Memory.wfFrom (k + 1) m

/-- The canonical form of memory. -/
def Memory.wf (m : List Host.Cell) : Bool := Memory.wfFrom 0 m

/-- Little-endian value of bytes (R309). -/
def leBytes : List Byte → Nat
  | [] => 0
  | b :: bs => b.toNat + 256 * leBytes bs

/-- The n low bytes of a value, little-endian. -/
def toBytes : Nat → Nat → List Byte
  | 0, _ => []
  | n + 1, v => BitVec.ofNat 8 v :: toBytes n (v / 256)

/-- The bytes at n keys from `key`. -/
def memBytes (m : List Host.Cell) (key : Nat) : Nat → List Byte
  | 0 => []
  | n + 1 => memGet m key :: memBytes m (key + 1) n

/-- Little-endian value of n bytes. -/
def memNat (m : List Host.Cell) (key n : Nat) : Nat := leBytes (memBytes m key n)

/-- Bytes as cells from a key. -/
def cellsAt (key : Nat) : List Byte → List Host.Cell
  | [] => []
  | b :: bs => (key, b) :: cellsAt (key + 1) bs

/-- Memory with cells written in order. -/
def memWrite (m : List Host.Cell) : List Host.Cell → List Host.Cell
  | [] => m
  | (k, v) :: cs => memWrite (memSet m k v) cs

/-! ## Check values -/

/-- One byte of CRC-32C, bit by bit (R226). -/
def crcBits : Nat → BitVec 32 → BitVec 32
  | 0, c => c
  | n + 1, c => crcBits n (if c.getLsbD 0 then (c >>> 1) ^^^ 0x82F63B78#32 else c >>> 1)

def crcByte (c : BitVec 32) (b : Byte) : BitVec 32 := crcBits 8 (c ^^^ b.zeroExtend 32)

/-- CRC-32C of bytes in increasing address order (R226). -/
def crc32c (bs : List Byte) : BitVec 32 := (bs.foldl crcByte 0xFFFF_FFFF#32) ^^^ 0xFFFF_FFFF#32

/-- Stored check value of a sector: the CRC of its bytes and the difference recorded for it (R226). -/
def storedCheck (m : List Host.Cell) (chk : FMap (BitVec 32)) (sector : Nat) : BitVec 32 :=
  crc32c (memBytes m (48 * sector) 48) ^^^ FMap.get 0 chk sector

/-- Whether the check value of a sector fails (R229). -/
def mismatched (s : State) (sector : Nat) : Bool := FMap.get 0 s.chk sector != 0

/-- Whether a sector is marked poisoned (R366). -/
def poisoned (s : State) (sector : Nat) : Bool := FMap.get false s.bad sector

/-- The sectors of cells, without repeats next to each other. -/
def sectorsOf : List Host.Cell → List Nat
  | [] => []
  | (k, _) :: cs =>
    match sectorsOf cs with
    | [] => [k / 48]
    | x :: xs => if x == k / 48 then x :: xs else k / 48 :: x :: xs

/-- A multiple of `align` at or above n. -/
def alignUp (align n : Nat) : Nat := (n + align - 1) / align * align

/-- A list without repeats, first places kept. -/
def dedup : List Nat → List Nat
  | [] => []
  | x :: xs => x :: (dedup xs).filter (· != x)

/-- Whether bytes written whole, their keys without repeats, are all of a sector. -/
def coversSector (keys : List Nat) (sector : Nat) : Bool := 48 ≤ (keys.filter fun k => k / 48 == sector).length

/-- A whole-sector write takes the check value made at entry and clears the mark (R227, R228, R366). -/
def freshSectors (s : State) (keys : List Nat) : List Nat → State
  | [] => s
  | x :: xs =>
    if coversSector keys x then
      freshSectors { s with chk := FMap.set 0 s.chk x 0, bad := FMap.set false s.bad x false } keys xs
    else freshSectors s keys xs

/-- A write of cells at their homes, of which those at some keys, which do not repeat, write their whole byte: bytes, check values,
marks (R228, R251). -/
def writePartly (s : State) (cs : List Host.Cell) (whole : List Nat) : State :=
  freshSectors { s with mem := memWrite s.mem cs } whole (sectorsOf cs)

/-- A write of whole bytes, at keys that do not repeat. -/
def writeCells (s : State) (cs : List Host.Cell) : State := writePartly s cs (cs.map (·.1))

/-- A write of bytes from a key. -/
def writeBytes (s : State) (key : Nat) (bs : List Byte) : State := writeCells s (cellsAt key bs)

/-- A write of the n low bytes of a value. -/
def writeNat (s : State) (key n v : Nat) : State := writeBytes s key (toBytes n v)

/-- A sector moved whole with its check difference and mark (R227, R366). -/
def writeSector (s : State) (sector : Nat) (data : BitVec 384) (delta : BitVec 32) (bad : Bool) : State :=
  { s with
    mem := memWrite s.mem (cellsAt (48 * sector) (toBytes 48 data.toNat))
    chk := FMap.set 0 s.chk sector delta
    bad := FMap.set false s.bad sector bad }

/-- The bytes of a sector as one number. -/
def sectorData (s : State) (sector : Nat) : BitVec 384 := BitVec.ofNat 384 (memNat s.mem (48 * sector) 48)

end Sys2Proof.Machine
end

