-- ==== Sys2Proof/Machine/Ops.lean ====
section
/-! DEFINITION. Named operations over the state: cores, slots, groups and teams, scalar registers, the stream's moves,
recording a fault, taking one and returning from one (R30, R139, R352). -/

namespace Sys2Proof.Machine

/-- What a meaning answers. -/
abbrev Out := Host.Outcome State Fault Refusal

/-! ## Cores, slots, groups -/

def State.core (s : State) (c : Nat) : Core := FMap.get .empty s.cores c

def State.setCore (s : State) (c : Nat) (v : Core) : State := { s with cores := FMap.set .empty s.cores c v }

def State.slot (s : State) (c k : Nat) : Slot := FMap.get .empty (s.core c).slots k

def State.setSlot (s : State) (c k : Nat) (v : Slot) : State :=
  let co := s.core c
  s.setCore c { co with slots := FMap.set .empty co.slots k v }

/-- The group in a slot. -/
def State.group? (s : State) (c k : Nat) : Option Group := (s.slot c k).group

def State.setGroup (s : State) (c k : Nat) (g : Group) : State :=
  s.setSlot c k { s.slot c k with group := some g }

/-- Change of the group in a slot, if there is one. -/
def State.modGroup (s : State) (c k : Nat) (f : Group → Group) : State :=
  match s.group? c k with
  | some g => s.setGroup c k (f g)
  | none => s

def State.team (s : State) (t : Nat) : Option Team := FMap.get none s.teams t

def State.setTeam (s : State) (t : Nat) (v : Option Team) : State := { s with teams := FMap.set none s.teams t v }

def State.task (s : State) (t : Nat) : Option Task := FMap.get none s.tasks t

def State.setTask (s : State) (t : Nat) (v : Option Task) : State := { s with tasks := FMap.set none s.tasks t v }

def State.queue (s : State) (q : Nat) : CmdQueue := FMap.get .empty s.queues q

def State.setQueue (s : State) (q : Nat) (v : CmdQueue) : State := { s with queues := FMap.set .empty s.queues q v }

def State.die (s : State) (d : Nat) : Die := FMap.get .empty s.dies d

def State.setDie (s : State) (d : Nat) (v : Die) : State := { s with dies := FMap.set .empty s.dies d v }

/-- The cycle counter of a core (R79). -/
def State.cyc (s : State) (c : Nat) : Nat := s.now - (s.core c).resetAt

/-- The Trowel's reference count: 100 MHz beside 1.25 GHz (R332). -/
def State.refTicks (s : State) : Nat := s.now * 2 / 25

/-- Slots of a core that hold a group, from slot n - 1 down to 0 in increasing order. -/
def liveSlots (co : Core) : List Nat :=
  co.slots.filterMap fun e => if e.2.group.isSome then some e.1 else none

/-- Every group of the device with its core and slot. -/
def State.liveGroups (s : State) : List (Nat × Nat × Group) :=
  s.cores.flatMap fun c => c.2.slots.filterMap fun e => e.2.group.map fun g => (c.1, e.1, g)

/-- Events of an activity class counted for a slot (R303). -/
def State.tally (s : State) (c k cls n : Nat) : State :=
  let sl := s.slot c k
  s.setSlot c k { sl with activity := FMap.set 0 sl.activity cls (FMap.get 0 sl.activity cls + n) }

/-- Events counted for a slot that holds a group. -/
def State.count (s : State) (c k cls n : Nat) : State := if (s.group? c k).isSome && n != 0 then s.tally c k cls n else s

/-! ## Scalar registers -/

/-- A read of an x register; x0 reads 0 (R39, R125). -/
def Group.x (g : Group) (r : Nat) : Word := if r == 0 then 0 else FMap.get 0 g.sca.x r

/-- A write of an x register by the scalar stream: x0 discards it, and a tag on the register goes (R39, R173). -/
def Group.setX (g : Group) (r : Nat) (v : Word) : Group :=
  if r == 0 then g
  else { g with sca := { g.sca with x := FMap.set 0 g.sca.x r v, tags := FMap.set [] g.sca.tags r [] } }

/-- Serials of the queued members whose tag on a register stands, oldest first (R173). -/
def Group.tagsOf (g : Group) (r : Nat) : List Nat := FMap.get [] g.sca.tags r

/-- A queued member's write of an x register, made only while its tag stands. The tags of younger members stay; those of older ones, in
another queue, go, so that the youngest writer's value stands (R173). -/
def Group.tagWrite (g : Group) (serial r : Nat) (v : Word) : Group :=
  if r != 0 && (g.tagsOf r).contains serial then
    { g with sca := { g.sca with
        x := FMap.set 0 g.sca.x r v
        tags := FMap.set [] g.sca.tags r ((g.tagsOf r).filter fun n => decide (serial ≤ n)) } }
  else g

/-- The tag that a queued member puts on the register it will write (R173). -/
def Group.setTag (g : Group) (r serial : Nat) : Group :=
  if r == 0 then g else { g with sca := { g.sca with tags := FMap.set [] g.sca.tags r (g.tagsOf r ++ [serial]) } }

/-- The tags of a member that has left its queue go (R173). -/
def Group.dropTags (g : Group) (serial : Nat) : Group :=
  { g with sca := { g.sca with
      tags := g.sca.tags.foldl (fun m e => FMap.set [] m e.1 (e.2.filter (· != serial))) [] } }

/-- Whether a scalar read of a register waits for a queued member (R18, R173, R420). -/
def Group.tagged (g : Group) (r : Nat) : Bool := r != 0 && !g.trp.frozen && !(g.tagsOf r).isEmpty

def Group.setPc (g : Group) (pc : Word) : Group := { g with sca := { g.sca with pc := pc } }

/-- The next instruction in address order. -/
def Group.advance (g : Group) : Group := g.setPc (g.sca.pc + 4)

def Group.setStatus (g : Group) (st : Status) : Group := { g with sca := { g.sca with status := st } }

def Group.wait (g : Group) (w : Wait) : Group := g.setStatus (.waiting w)

def Group.run (g : Group) : Group := g.setStatus .running

/-- Sets bits of the event latch (R140). -/
def Group.latchEvent (g : Group) (b : BitVec 3) : Group := { g with sca := { g.sca with latch := g.sca.latch ||| b } }

/-- ORs flags into fs (R69, R116). -/
def Group.fold (g : Group) (f : BitVec 17) : Group :=
  { g with vec := { g.vec with fs := g.vec.fs ||| f.zeroExtend 64 } }

/-- Flags that are raised and enabled (R117): the enables stand five places above the flags. -/
def enabledFlags (fs : BitVec 64) (f : BitVec 17) : Bool := ((fs >>> 5).truncate 5 &&& f.truncate 5) != (0 : BitVec 5)

/-! ## The vector type (R42, R67) -/

def vtDcls (vt : BitVec 64) : Nat := (vt.extractLsb' 0 3).toNat
def vtEwd (vt : BitVec 64) : Nat := (vt.extractLsb' 3 4).toNat + 1
def vtEws (vt : BitVec 64) : Nat := (vt.extractLsb' 7 4).toNat + 1
def vtScls (vt : BitVec 64) : Nat := (vt.extractLsb' 11 3).toNat
def vtBase (vt : BitVec 64) : Nat := (vt.extractLsb' 14 10).toNat
def vtRm (vt : BitVec 64) : Nat := (vt.extractLsb' 24 3).toNat
def vtFz (vt : BitVec 64) : Nat := (vt.extractLsb' 27 2).toNat
def vtSat (vt : BitVec 64) : Bool := vt.getLsbD 29

/-- Validity of a vector type (R42). -/
def vtValid (vt : BitVec 64) : Bool :=
  classWidthOk (vtDcls vt) (vtEwd vt) && classWidthOk (vtScls vt) (vtEws vt) && decide (vtRm vt ≤ 4)
    && decide (vtFz vt ≤ 2) && decide (vtBase vt ≤ 767) && vt >>> 30 == 0

/-- The start of a vector type's fields put together. -/
def vtMake (dcls ewd ews scls base rm fz : Nat) (sat : Bool) : BitVec 64 :=
  BitVec.ofNat 64 (dcls + (ewd - 1) * 2 ^ 3 + (ews - 1) * 2 ^ 7 + scls * 2 ^ 11 + base * 2 ^ 14 + rm * 2 ^ 24
    + fz * 2 ^ 27 + (if sat then 2 ^ 29 else 0))

/-! ## Grant fields (R70, R71) -/

def grantOf (r : BitVec 32) : Nat := (r.extractLsb' 0 16).toNat
def validOf (r : BitVec 32) : Nat := (r.extractLsb' 16 16).toNat
def gfIfmt (f : BitVec 12) : Nat := (f.extractLsb' 0 4).toNat
def gfAcc (f : BitVec 12) : Nat := (f.extractLsb' 4 4).toNat
def gfPart (f : BitVec 12) : Nat := (f.extractLsb' 8 2).toNat
def gfNarrowed (f : BitVec 12) : Bool := f.getLsbD 10
def gfHonoured (f : BitVec 12) : Bool := f.getLsbD 11

/-! ## Masks and slices (R68, R85, R170) -/

/-- Bits below n. -/
def lowMask (n : Nat) : BitVec 1024 := BitVec.ofNat 1024 (2 ^ n - 1)

def Group.mask (g : Group) (m : Nat) : BitVec 1024 := FMap.get 0 g.fil.masks m

/-- A write of a mask: bits at or above vlmax stay zero (R102). -/
def Group.setMask (g : Group) (m : Nat) (v : BitVec 1024) : Group :=
  { g with fil := { g.fil with masks := FMap.set 0 g.fil.masks m (v &&& lowMask g.vec.vlmax) } }

/-- The all-false flag of a mask (R68). -/
def Group.allFalse (g : Group) (m : Nat) : Bool := g.mask m &&& lowMask g.vec.vlmax == 0

/-- The register mzf (R68). -/
def Group.mzf (g : Group) : Nat :=
  (List.range 12).foldl (fun a i => if g.allFalse i then a + 2 ^ i else a) 0

/-- The w slices of an element from slice `start`, as one number (R85). -/
def Group.slices (g : Group) (e start w : Nat) : Nat :=
  (FMap.get 0 g.fil.slices e).toNat / 2 ^ (4 * start) % 2 ^ (4 * w)

/-- A write of w slices of an element from slice `start` (R88). -/
def Group.setSlices (g : Group) (e start w v : Nat) : Group :=
  let old := (FMap.get 0 g.fil.slices e).toNat
  let low := old % 2 ^ (4 * start)
  let high := old / 2 ^ (4 * (start + w))
  let new := low + (v % 2 ^ (4 * w)) * 2 ^ (4 * start) + high * 2 ^ (4 * (start + w))
  { g with fil := { g.fil with slices := FMap.set 0 g.fil.slices e (BitVec.ofNat 3072 new) } }

def Group.port (g : Group) (q : Nat) : Port := FMap.get .empty g.fil.ports q

def Group.setPort (g : Group) (q : Nat) (p : Port) : Group :=
  { g with fil := { g.fil with ports := FMap.set .empty g.fil.ports q p } }

/-- Key of a tile element (log 23). -/
def tileKey (t i j : Nat) : Nat := (t * 65536 + i) * 65536 + j

def Group.tile (g : Group) (t i j : Nat) : Nat := FMap.get 0 g.fil.tiles (tileKey t i j)

/-! ## Identity -/

/-- The gid register (R73). -/
def gidImage (core slot : Nat) (d : Ident) : Word :=
  BitVec.ofNat 64 (d.gidx % 16 + d.cidx % 16 * 2 ^ 4 + d.cluster % 2 ^ 20 * 2 ^ 8 + core % 512 * 2 ^ 28 + slot % 16 * 2 ^ 37)

/-- The team of a group. -/
def State.teamOf (s : State) (g : Group) : Option Team := if g.idn.team == 0 then none else s.team g.idn.team

def Group.protected_ (g : Group) : Bool := g.idn.tattr.getLsbD 2
def Group.resilient (g : Group) : Bool := g.idn.tattr.getLsbD 1
def Group.deterministic (g : Group) : Bool := g.idn.tattr.getLsbD 0

/-- A test block at a cycle: a pattern that an abort has stopped by then is in state 5, with the CYCLES and SIG that it reached (R80,
R414). -/
def TestBlock.settled (t : TestBlock) (now : Nat) : TestBlock :=
  match t.stopAt with
  | some u =>
    if u ≤ now then { t with stat := 5, cnt := min (u - t.started) 249999, sig := Config.partialSignature u, stopAt := none } else t
  | none => t

/-- The test block of firmware core i. -/
def State.test (s : State) (fw : Nat) : TestBlock := (s.core (288 + fw)).test.settled s.now

/-- Whether a power alarm narrows a die (R391): memory not trained, a pattern running there, or a droop. -/
def State.narrowed (s : State) (d : Nat) : Bool :=
  let di := s.die d
  di.untrained || di.droopEnd.isSome
    || (List.range 4).any fun i =>
      (s.test i).stat == 2 && coreDie (s.test i).sel == d

/-- (3/4)^l × 1024 in units of 4^-12, so that the cap of a level is exact. -/
def capElements (level lanes : Nat) : Nat :=
  let v := 3 ^ level * 1024 / 4 ^ level
  max lanes (v / lanes * lanes)

/-- The power cap in elements of a core, 0 without one (R390). -/
def State.cap (s : State) (core : Nat) : Nat :=
  let l := (s.die (coreDie core)).level
  if l == 0 then 0 else capElements l (coreLanes core)

/-- Swing banks that hold a group's units (R72). -/
def Group.swingBanks (g : Group) : Nat := g.sto.swing.length

/-- The cls register in the privileged view (R72). -/
def clsImage (s : State) (core slot : Nat) (g : Group) : Word :=
  let cap := s.cap core
  BitVec.ofNat 64
    (coreLanes core + coreClass core * 2 ^ 8 + (if cap == 0 then 0 else 2 ^ 9) + cap * 2 ^ 10
      + (if s.narrowed (coreDie core) then 2 ^ 21 else 0) + g.idn.share % 32 * 2 ^ 32
      + (s.slot core slot).epoch % 2048 * 2 ^ 37 + g.idn.alloc % 1024 * 2 ^ 48 + g.swingBanks % 16 * 2 ^ 58)

/-! ## Traps -/

/-- The fault codes of R4. -/
def cUndefined : Nat := 0x01
def cPrivileged : Nat := 0x02
def cConvoy : Nat := 0x03
def cSliceBound : Nat := 0x04
def cMisaligned : Nat := 0x05
def cTranslation : Nat := 0x06
def cAccess : Nat := 0x07
def cWitPoisoned : Nat := 0x08
def cWitFormat : Nat := 0x09
def cCheck : Nat := 0x0A
def cArithmetic : Nat := 0x0B
def cStreamPort : Nat := 0x0C
def cBarrier : Nat := 0x0D
def cGatePoisoned : Nat := 0x0E
def cTile : Nat := 0x0F
def cTrap : Nat := 0x10
def cBreak : Nat := 0x11
def cSequence : Nat := 0x12
def cRegister : Nat := 0x13
def cAsync : Nat := 0x14
def cMachine : Nat := 0x20
def cProtected : Nat := 0x21

/-- The stream of a group whose WAITE ends otherwise than by its limit or its latch: the selected bits are cleared and the
stream stands at the next word (R140). -/
def Group.endWaite (g : Group) : Group :=
  match g.sca.status with
  | .waiting (.waite sel _) => { g with sca := { g.sca with pc := g.sca.pc + 4, latch := g.sca.latch &&& ~~~sel, status := .running } }
  | _ => g

/-- Records a fault for a group and stops its scalar stream (R30 step 1). -/
def Group.raise (g : Group) (f : FaultInfo) : Group :=
  let g := g.endWaite
  { g with
    trp := { g.trp with pending := g.trp.pending ++ [f] }
    sca := { g.sca with status := if g.sca.status = .exiting then .exiting else .stopped } }

/-- A fault of the instruction at the pc: trpc and tres are its own address (R125). -/
def Group.raiseScalar (g : Group) (code : Nat) (addr : Word) : Group :=
  { g with sca := { g.sca with openWords := [] } }.raise
    { serial := g.sca.serial, code := code, src := 0, pc := g.sca.pc, addr := addr, elem := 0 }

/-- A fault found at decode inside a convoy stands at the convoy's first word, and nothing of the convoy is pushed
(R24, R54). DEDUCED (log 20): so does one found at a word of another queue that follows a word with C = 1, for which R54 can be read to
give that word itself. -/
def Group.raiseConvoy (g : Group) (code : Nat) (addr : Word) : Group :=
  (if g.sca.openWords.isEmpty then g else g.setPc g.sca.openPc).raiseScalar code addr

/-- Whether any entry of the queues has begun (R30 step 2). -/
def Group.quiet (g : Group) : Bool :=
  !(g.que.vq.any (·.begun)) && !(g.que.mq.any (·.begun)) && !(g.que.cq.any (·.begun)) && g.que.jobs.isEmpty

/-- The fault that is oldest in program order (R30 step 3). -/
def oldestFault : List FaultInfo → Option FaultInfo
  | [] => none
  | f :: fs =>
    match oldestFault fs with
    | none => some f
    | some g => if f.serial ≤ g.serial then some f else some g

def Level.code : Level → Nat
  | .u => 0
  | .s => 1
  | .f => 2

def Level.ofCode (n : Nat) : Level := if n == 0 then .u else if n == 1 then .s else .f

/-- Where the stream resumes: the start of a convoy whose last word it has not reached, else the pc. -/
def Group.resumePc (g : Group) : Word := if g.sca.openWords.isEmpty then g.sca.pc else g.sca.openPc

/-- Taking a trap: what delivery writes, once the handler's address is known (R77, R352). The saved pc is the fault's, the
resume address the stream's, or the word after a TRAP (R138); a map core's level becomes S, a firmware core's stays F. -/
def Group.enterTrap (g : Group) (f : FaultInfo) (handler : Word) : Group :=
  let lev : Level := if g.sca.level = .f then .f else .s
  { g with
    sca := { g.sca with pc := handler, level := lev, status := .running, openWords := [] }
    trp := { g.trp with
      trpc := f.pc, tres := if f.code == cTrap && f.src == 0 then f.pc + 4 else g.resumePc
      tcause := BitVec.ofNat 64 (f.code + f.src * 2 ^ 8 + g.sca.level.code * 2 ^ 12)
      taddr := f.addr, telem := BitVec.ofNat 64 f.elem, frozen := true, pending := []
      -- a held fault is taken with its delivery (R289)
      held := if f.code == cAsync && f.src == 3 then none else g.trp.held } }

/-- Returning from a trap (R139): the level of tcause.PLEV, the stream at tres, the queues unfrozen. -/
def Group.leaveTrap (g : Group) : Group :=
  let lev := Level.ofCode ((g.trp.tcause.extractLsb' 12 2).toNat)
  { g with
    sca := { g.sca with pc := g.trp.tres, level := lev, status := .running }
    trp := { g.trp with frozen := false } }

/-! ## Running an instruction in the current slot -/

/-- The group whose word executes, or the stop that there is none. -/
def withGroup (s : State) (f : Group → Out) : Out :=
  if !s.powered then .fault .poweredOff
  else
    match s.group? s.curCore s.curSlot with
    | some g => f g.run
    | none => .fault .noGroup

/-- The state with the current group replaced. -/
def State.put (s : State) (g : Group) : State := s.setGroup s.curCore s.curSlot g

/-- A scalar, matrix or copy word after a word with C = 1 is convoy-composition at the convoy's first word (R24). -/
def withBoundary (s : State) (f : Group → Out) : Out :=
  withGroup s fun g =>
    if g.sca.openWords.isEmpty then f g else .next (s.put (g.raiseConvoy cConvoy 0))

/-- A scalar instruction that reads the registers `rs`: it waits while one of them is tagged by a queued member (R18). -/
def withRegs (s : State) (rs : List Nat) (f : Group → Out) : Out :=
  withBoundary s fun g => if rs.any g.tagged then .next (s.put (g.wait (.drain (.regs rs)))) else f g

/-- Ends an instruction: the group's new state, with the pc at the next word. -/
def finish (s : State) (g : Group) : Out := .next (s.put g.advance)

/-- Ends an instruction with a fault of its own. -/
def trapHere (s : State) (g : Group) (code : Nat) (addr : Word) : Out := .next (s.put (g.raiseScalar code addr))

/-- Ends an instruction in a wait. -/
def waitHere (s : State) (g : Group) (w : Wait) : Out := .next (s.put (g.wait w))

end Sys2Proof.Machine
end

