-- ==== Sys2Proof/Machine/Translate.lean ====
section
/-! DEFINITION. Address forms, the local space, translation and access checks (R208, R209, R213 to R220). -/

namespace Sys2Proof.Machine

/-- For whom an access is translated: a group of a core, or the Trowel under a queue's address space. -/
structure Ctx where
  core : Nat
  slot : Nat
  ptb : Word
  asid : Nat
  level : Level
  teamId : Nat
  team : Option Team
  gidx : Nat
  /-- The core's TLB serves the access; the Trowel walks each time. -/
  tlb : Bool
  deriving DecidableEq, Repr

/-- The accesses of a group. -/
def ctxOf (s : State) (c k : Nat) (g : Group) : Ctx :=
  { core := c, slot := k, ptb := g.trp.ptb, asid := (g.trp.asid.truncate 12 : BitVec 12).toNat, level := g.sca.level,
    teamId := g.idn.team, team := s.teamOf g, gidx := g.idn.gidx, tlb := true }

/-- The accesses of the Trowel under a queue's address space, at level U (R216). -/
def trowelCtx (q : CmdQueue) : Ctx :=
  { core := 0, slot := 0, ptb := q.ptb, asid := q.asid, level := .u, teamId := 0, team := none, gidx := 0, tlb := false }

/-! ## Page-table entries (R214, R215) -/

def pteBit (e : Word) (i : Nat) : Bool := e.getLsbD i
def pteTier (e : Word) : Nat := (e.extractLsb' 61 2).toNat
def pteCache (e : Word) : Nat := (e.extractLsb' 58 2).toNat
def pteChk (e : Word) : Bool := e.getLsbD 60
def pteBase (e : Word) : Nat := (e.extractLsb' 12 40).toNat * 4096

/-- Bytes that an entry of a level maps (R213). -/
def pageSize (level : Nat) : Nat := if level == 4 then 206158430208 else 49152 * 64 ^ (level - 1)

/-- Device number and aperture offset of a tier 3 leaf (R377). -/
def leafDevice (e : Word) : Nat := (e.extractLsb' 42 10).toNat
def leafAperture (e : Word) : Nat := (e.extractLsb' 12 30).toNat * 4096

/-- Whether a leaf at a level passes the walk (R215). -/
def leafOk (level : Nat) (e : Word) : Bool :=
  let size := pageSize level
  let tier := pteTier e
  e.extractLsb' 52 6 == 0 && e.extractLsb' 8 4 == 0 && !pteBit e 63 && decide (level ≠ 4) && decide (pteCache e ≠ 3)
    && (if tier == 3 then leafAperture e % size == 0 else pteBase e % size == 0)
    && (if tier ≤ 1 then installed (pteBase e) size && tierOf (pteBase e) == tier else pteCache e == 2)

/-- Whether a table entry passes the walk (R215); `level` is that of the table it stands in. DEDUCED (log 45): the next table lies in
installed memory with all of its bytes. -/
def tableOk (level : Nat) (e : Word) : Bool :=
  e.extractLsb' 52 12 == 0 && e.extractLsb' 6 2 == 0 && e.extractLsb' 8 4 == 0
    && installed (pteBase e) (if level == 4 then 8192 else 512)

/-- The walk from a level down (R213): the leaf it ends at, with the base of the virtual page and its size. DEDUCED (log 45): a valid
entry of level 1 that is no leaf translates nothing. -/
def walk (m : List Host.Cell) (va : Nat) : Nat → Nat → Option TlbEntry
  | 0, _ => none
  | level + 1, table =>
    let lv := level + 1
    let size := pageSize lv
    let idx := va / size % (if lv == 3 then 1024 else if lv == 4 then 2048 else 64)
    let pte := table + 8 * idx
    let e := BitVec.ofNat 64 (memNat m pte 8)
    if !pteBit e 0 then none
    else if pteBit e 1 then
      if leafOk lv e then some { asid := 0, base := va / size * size, size := size, leaf := e, pte := pte } else none
    else if lv == 1 then none
    else if tableOk lv e then walk m va level (pteBase e)
    else none

/-- A whole walk under a top table (R213). DEDUCED (log 45): a top table that does not lie in installed memory translates nothing. -/
def walkTop (s : State) (ctx : Ctx) (va : Nat) : Option TlbEntry :=
  let top := (ctx.ptb.extractLsb' 14 38).toNat * 16384
  if installed top 16384 then (walk s.mem va 4 top).map fun e => { e with asid := ctx.asid } else none

/-- What an access needs of a page (R216). -/
def accWrites : Access → Bool
  | .store | .atomic => true
  | _ => false

def pageAllows (acc : Access) (lev : Level) (e : Word) : Bool :=
  (match acc with
    | .load => pteBit e 2
    | .store => pteBit e 3
    | .atomic => pteBit e 2 && pteBit e 3
    | .fetch => pteBit e 4)
    && (decide (lev ≠ .u) || pteBit e 5)

/-- The translation that an access uses: a TLB entry that covers it, or a walk; a write under an entry whose DF is 0 and
which memory no longer holds walks again (R217, R218). -/
def lookup (s : State) (ctx : Ctx) (acc : Access) (va : Nat) : Option TlbEntry :=
  let hits := if ctx.tlb then
      (s.core ctx.core).tlb.filter fun e => e.asid == ctx.asid && decide (e.base ≤ va) && decide (va < e.base + e.size)
    else []
  match hits with
  | [] => walkTop s ctx va
  | e :: es =>
    let e := (e :: es).getD (if es.isEmpty then 0 else Config.tlbChoice (s.tick + va) % (es.length + 1)) e
    if accWrites acc && !pteBit e.leaf 7 && BitVec.ofNat 64 (memNat s.mem e.pte 8) != e.leaf then walkTop s ctx va
    else some e

/-- Bytes from an address that the same TLB entries cover, 1 where several do: each byte then takes either (R218). -/
def sameHits (s : State) (ctx : Ctx) (va : Nat) : Nat :=
  if !ctx.tlb then pageSize 4
  else
    let mine := (s.core ctx.core).tlb.filter fun e => e.asid == ctx.asid
    if 1 < (mine.filter fun e => decide (e.base ≤ va) && decide (va < e.base + e.size)).length then 1
    else mine.foldl (fun n e => if va < e.base then min n (e.base - va) else n) (pageSize 4)

/-- Translation and access check of one global byte (R213 to R216, R377). -/
def translateGlobal (s : State) (ctx : Ctx) (acc : Access) (va : Nat) : Except Nat Ref :=
  match lookup s ctx acc va with
  | none => .error cTranslation
  | some e =>
    if !pageAllows acc ctx.level e.leaf then .error cAccess
    else
      let off := va - e.base
      let tier := pteTier e.leaf
      let key :=
        if tier == 3 then remoteKey (leafDevice e.leaf) (leafAperture e.leaf + off)
        else if tier == 2 then hostKey (pteBase e.leaf + off) else pteBase e.leaf + off
      let aperture := leafAperture e.leaf + off
      if tier == 3 && !Config.remoteWindow (leafDevice e.leaf) (aperture / 2 ^ 36) (accWrites acc) then .error cAccess
      else
        -- a run ends with its page, with the global form, and with its window (R208, R377)
        let room := min (min (e.size - off) (2 ^ 48 - va)) (if tier == 3 then 2 ^ 36 - aperture % 2 ^ 36 else e.size)
        .ok { key := key, room := min room (sameHits s ctx va), local_ := false, tier := tier, cache := pteCache e.leaf,
              chk := pteChk e.leaf, entry := some e }

/-- The local space (R209): member index, offset, and the private frames at the top of the region. -/
def translateLocal (s : State) (ctx : Ctx) (addr : Word) : Except Nat Ref :=
  match ctx.team with
  | none => .error cAccess
  | some t =>
    if addr.extractLsb' 23 25 != 0 then .error cAccess
    else
      let m := (addr.extractLsb' 19 4).toNat
      let off := (addr.extractLsb' 0 19).toNat
      let own := m == 15 || m == t.cidx
      let core := if m == 15 then ctx.core else t.cores.getD m 0
      if m != 15 && t.cores.length ≤ m then .error cAccess
      else
        -- the member's own team region
        let home := if own then some t
          else (s.teams.filterMap (·.2)).find? fun u => u.task == t.task && u.cluster == t.cluster && u.cidx == m
        match home with
        | none => .error cAccess
        | some u =>
          let frames := u.size - u.groups * u.frame
          if u.size ≤ off then .error cAccess
          else
            let mine := (u.size - 1 - off) / u.frame
            if frames ≤ off && !(own && mine == ctx.gidx) then .error cAccess
            else
              .ok { key := padKey core (u.region + off)
                    room := if off < frames then frames - off else u.size - mine * u.frame - off
                    local_ := true, tier := 0, cache := 2, chk := true, entry := none }

/-- Translation and access check of one byte (R208). -/
def translate (s : State) (ctx : Ctx) (acc : Access) (addr : Word) : Except Nat Ref :=
  let top := addr.extractLsb' 48 16
  if top == 0 then translateGlobal s ctx acc addr.toNat
  else if top == 0xFFFF#16 then
    if acc = .fetch then .error cAccess else translateLocal s ctx addr
  else .error cTranslation

/-- A run of bytes under one translation. -/
structure Span where
  addr : Word
  len : Nat
  ref : Except Nat Ref

/-- Bytes after which a failing byte's neighbour is looked at again. -/
def failStep (addr : Word) : Nat := 64 - addr.toNat % 64

/-- The spans of n bytes from an address; `fuel` bounds their number. -/
def spansGo (s : State) (ctx : Ctx) (acc : Access) : Nat → Word → Nat → List Span
  | 0, _, _ => []
  | fuel + 1, addr, n =>
    if n == 0 then []
    else
      let r := translate s ctx acc addr
      let len := max 1 (min n (match r with | .ok x => x.room | .error _ => failStep addr))
      { addr := addr, len := len, ref := r } :: spansGo s ctx acc fuel (addr + BitVec.ofNat 64 len) (n - len)

def spans (s : State) (ctx : Ctx) (acc : Access) (addr : Word) (n : Nat) : List Span := spansGo s ctx acc n addr n

/-- The first span that fails with a code. -/
def spanFault (code : Nat) : List Span → Option Word
  | [] => none
  | sp :: sps =>
    match sp.ref with
    | .error c => if c == code then some sp.addr else spanFault code sps
    | .ok _ => spanFault code sps

/-- The fault of an access: translation-not-valid, then access-violation, at the lowest byte that raises it (R220). -/
def accessFault (sps : List Span) : Option (Nat × Word) :=
  match spanFault cTranslation sps with
  | some a => some (cTranslation, a)
  | none => (spanFault cAccess sps).map fun a => (cAccess, a)

/-- Keys of the spans, each with its length. -/
def spanRefs : List Span → List (Nat × Nat × Ref × Word)
  | [] => []
  | sp :: sps =>
    match sp.ref with
    | .ok r => (r.key, sp.len, r, sp.addr) :: spanRefs sps
    | .error _ => spanRefs sps

/-- The walker's work for an entry that an access uses: AF, and DF for a write, set in memory and in the TLB (R217,
R218; log 17). -/
def touchEntry (s : State) (ctx : Ctx) (write : Bool) (e : TlbEntry) : State :=
  let leaf := e.leaf ||| 0x40#64 ||| (if write then 0x80#64 else 0)
  let s1 := if leaf == e.leaf then s else writeNat s e.pte 8 leaf.toNat
  if ctx.tlb then
    let co := s1.core ctx.core
    let rest := co.tlb.filter fun x => !(x.asid == e.asid && x.base == e.base && x.size == e.size)
    s1.setCore ctx.core { co with tlb := ({ e with leaf := leaf } :: rest).take 1024 }
  else s1

/-- The walker's work for a whole access. -/
def touchSpans (s : State) (ctx : Ctx) (write : Bool) : List Span → State
  | [] => s
  | sp :: sps =>
    match sp.ref with
    | .ok { entry := some e, .. } => touchSpans (touchEntry s ctx write e) ctx write sps
    | _ => touchSpans s ctx write sps

end Sys2Proof.Machine
end

