-- ==== Sys2Proof/Machine/Cache.lean ====
section
/-! DEFINITION. Reads and writes of memory by a core: the L1 (R221 to R224), writes under way and at their homes (R251,
R253), check values and poisoned marks where they are consumed (R229, R366, R367), the undo log of a resilient team's
region (R359). -/

namespace Sys2Proof.Machine

/-! ## The L1's sets -/

/-- Swing banks of a core in which some group holds units (R79). -/
def claimedBanks (s : State) (core : Nat) : List Nat :=
  (List.range 8).filter fun b =>
    (s.core core).slots.any fun e => match e.2.group with
      | some g => FMap.get 0 g.sto.swing b != 0
      | none => false

/-- Ways of each set that may hold lines: ways 0 to 15, and way 16 + b of swing bank b while no group holds units of it (R79,
R221; log 41). -/
def l1Ways (s : State) (core : Nat) : List Nat :=
  List.range 16 ++ ((List.range 8).filter fun b => !(claimedBanks s core).contains b).map (16 + ·)

/-- Line of a sector, and its set (R221). -/
def lineOf (sector : Nat) : Nat := sector / 4
def setOf (sector : Nat) : Nat := sector / 4 % 256

/-- Lines of a set, most recently used first. -/
def linesIn (l1 : List L1Sector) (set : Nat) : List Nat :=
  dedup ((l1.filter fun x => setOf x.sector == set).map fun x => lineOf x.sector)

/-- Lines of a set that hold a dirty sector. -/
def dirtyLines (l1 : List L1Sector) (set : Nat) : List Nat :=
  dedup ((l1.filter fun x => setOf x.sector == set && x.dirty != 0).map fun x => lineOf x.sector)

/-- Lines of a set without a dirty sector, most recently used first. -/
def cleanLines (l1 : List L1Sector) (set : Nat) : List Nat :=
  let d := dirtyLines l1 set
  (linesIn l1 set).filter fun x => !d.contains x

/-- The way that a line stands in. -/
def wayOf (l1 : List L1Sector) (line : Nat) : Option Nat := (l1.find? fun x => lineOf x.sector == line).map (·.way)

/-- The way that a line is given: its own, else the lowest free one, else that of the least recently used line without a dirty
sector (R221, R224; log 41). -/
def pickWay (s : State) (core line : Nat) : Option Nat :=
  let l1 := (s.core core).l1
  let used := (linesIn l1 (line % 256)).filterMap (wayOf l1)
  (wayOf l1 line).orElse fun _ =>
    ((l1Ways s core).find? fun w => !used.contains w).orElse fun _ => (cleanLines l1 (line % 256)).getLast?.bind (wayOf l1)

/-- Whether a set has a way for a sector's line, without the replacement of a dirty one (R224). -/
def hasWay (s : State) (core sector : Nat) : Bool := (pickWay s core (lineOf sector)).isSome

/-- Whether lines can all be held at once without the replacement of a dirty one (R224). -/
def waysFor (s : State) (core : Nat) (lines : List Nat) : Bool :=
  lines.all fun l =>
    decide ((dedup (dirtyLines (s.core core).l1 (l % 256) ++ lines.filter fun x => x % 256 == l % 256)).length ≤ (l1Ways s core).length)

def State.setL1 (s : State) (core : Nat) (l1 : List L1Sector) : State := s.setCore core { s.core core with l1 := l1 }

/-- The sector as a reader of a team sees it: its own dirty copy first, else the clean one. -/
def findSector (l1 : List L1Sector) (sector team : Nat) : Option L1Sector :=
  match if team == 0 then none else l1.find? fun x => x.sector == sector && x.dirty == team with
  | some x => some x
  | none => l1.find? fun x => x.sector == sector && x.dirty == 0

/-- A sector put at the front of the L1 in place of its older copy, in the way of its line; a line that stood there is
replaced. -/
def putSector (s : State) (core : Nat) (x : L1Sector) : State :=
  match pickWay s core (lineOf x.sector) with
  | none => s
  | some w =>
    let stays (y : L1Sector) : Bool :=
      if lineOf y.sector == lineOf x.sector then !(y.sector == x.sector && (y.dirty == x.dirty || y.dirty == 0))
      else !(setOf y.sector == setOf x.sector && y.way == w)
    s.setL1 core ({ x with way := w } :: (s.core core).l1.filter stays)

/-- The sector as it stands at its home. -/
def homeSector (s : State) (sector : Nat) : L1Sector :=
  { sector := sector, way := 0, data := sectorData s sector, delta := FMap.get 0 s.chk sector, bad := poisoned s sector, dirty := 0 }

/-- Invalidation of the clean copies of the sectors that cells lie in (R254). -/
def dropSectors (s : State) (core : Nat) (sectors : List Nat) : State :=
  s.setL1 core ((s.core core).l1.filter fun x => x.dirty != 0 || !sectors.contains x.sector)

/-! ## Views of bytes with cells laid over them -/

/-- The byte at a key under newer cells. -/
def patched (rd : Nat → Byte) (cells : List Host.Cell) (key : Nat) : Byte :=
  match cells.reverse.find? fun c => c.1 == key with
  | some c => c.2
  | none => rd key

/-- A little-endian number read through a byte view. -/
def viewNat (rd : Nat → Byte) (key : Nat) : Nat → Nat
  | 0 => 0
  | n + 1 => (rd key).toNat + 256 * viewNat rd (key + 1) n

/-- Operation of an atomic on integers of class 0 (signed) or 1 and w bits, wrapping or saturating (R240, R243). -/
def atomicInt (fn : AtomicFn) (cls w : Nat) (env : RoundEnv) (old arg arg2 : Nat) : Nat × FlagSet :=
  let less (a b : Nat) : Bool := if cls == 0 then decide (signedOf w a < signedOf w b) else decide (a < b)
  match fn with
  | .add =>
    narrowInt env cls (w / 4) (if cls == 0 then signedOf w old + signedOf w arg else (old : Int) + arg)
  | .and => (old &&& arg, 0)
  | .or => (old ||| arg, 0)
  | .xor => (old ^^^ arg, 0)
  | .min => (if less arg old then arg else old, 0)
  | .max => (if less old arg then arg else old, 0)
  | .minn => (if arg < old then arg else old, 0)
  | .maxn => (if old < arg then arg else old, 0)
  | .swap => (arg % 2 ^ w, 0)
  | .cas => (if old == arg then arg2 % 2 ^ w else old, 0)

/-- A float operation of two patterns, delivered by narrow. -/
def floatOp (env : RoundEnv) (cls w : Nat) (f : Val → Val → Val × FlagSet) (old arg : Nat) : Nat × FlagSet :=
  let r := f (extend env cls w old) (extend env cls w arg)
  let d := narrow env cls w r.1
  (d.1, r.2 ||| d.2)

/-- One operation of VAMO or VREDM on a location of a class and width in slices (R181, R240, R241). -/
def atomicClass (fn : AtomicFn) (cls w : Nat) (env : RoundEnv) (old arg : Nat) : Nat × FlagSet :=
  if isIntClass cls then atomicInt fn cls (4 * w) env old arg 0
  else
    match fn with
    | .add => floatOp env cls w (addVal env) old arg
    | .min => floatOp env cls w (minMaxVal false) old arg
    | .max => floatOp env cls w (minMaxVal true) old arg
    | .swap => (arg, 0)
    | _ => (old, 0)

/-- Cells that an update writes over what a view holds, its old value (for an atomic) and the flags it raises. -/
def updateCells (rd : Nat → Byte) : Update → List Host.Cell × Nat × FlagSet
  | .store bytes => (bytes.map fun b => (b.1, (rd b.1 &&& ~~~b.2.2) ||| (b.2.1 &&& b.2.2)), 0, 0)
  | .atomic key size fn arg arg2 =>
    let old := viewNat rd key size
    let r := atomicInt fn 0 (8 * size) RoundEnv.plain old arg arg2
    (cellsAt key (toBytes size r.1), old, 0)
  | .reduce ops fn cls w rm fz sat =>
    let one (acc : List Host.Cell × FlagSet) (op : Nat × Nat) : List Host.Cell × FlagSet :=
      let old := viewNat (patched rd acc.1) op.1 (w / 2)
      let r := atomicClass fn cls w { rm := rm, fz := fz, sat := sat } old op.2
      (acc.1 ++ cellsAt op.1 (toBytes (w / 2) r.1), acc.2 ||| r.2)
    let r := ops.foldl one ([], 0)
    (r.1, 0, r.2)
  | .progress key adds v =>
    let old := viewNat rd key 8
    let count := old % 2 ^ 62
    let new := if adds then old / 2 ^ 62 * 2 ^ 62 + (count + v) % 2 ^ 62
      else ((old / 2 ^ 62) ||| (v / 2 ^ 62 % 4)) * 2 ^ 62 + max count (v % 2 ^ 62)
    (cellsAt key (toBytes 8 new), old, 0)
  | .move sector data _ _ => (cellsAt (48 * sector) (toBytes 48 data.toNat), 0, 0)

/-- Keys at which an update writes. -/
def updateKeys : Update → List Nat
  | .store bytes => bytes.map (·.1)
  | .atomic key size _ _ _ => (List.range size).map (key + ·)
  | .reduce ops _ _ w _ _ _ => ops.flatMap fun op => (List.range (w / 2)).map (op.1 + ·)
  | .progress key _ _ => (List.range 8).map (key + ·)
  | .move sector _ _ _ => (List.range 48).map (48 * sector + ·)

/-- Sectors that an update writes. -/
def updateSectors (u : Update) : List Nat := dedup ((updateKeys u).map (· / 48))

/-- Keys of the bytes that an update writes whole, without repeats (R228). -/
def wholeKeys : Update → List Nat
  | .store bytes =>
    (dedup (bytes.map (·.1))).filter fun k =>
      (bytes.foldl (fun (a : Byte) b => if b.1 == k then a ||| b.2.2 else a) 0) == 0xFF#8
  | u => dedup (updateKeys u)

/-! ## Team regions and the undo log -/

/-- The team whose region holds a scratchpad byte. -/
def regionTeam (s : State) (key : Nat) : Option (Nat × Team) :=
  if key < padKey 0 0 || padKey 292 0 ≤ key then none
  else
    (s.teams.filterMap fun e => e.2.map fun t => (e.1, t)).find? fun e =>
      decide (padKey e.2.core e.2.region ≤ key) && decide (key < padKey e.2.core (e.2.region + e.2.size))

/-- Whether a sector is in a team's undo log (R359). -/
def logged (t : Team) (sector : Nat) : Bool :=
  match t.resilient with
  | some r => r.undo.any fun u => u.1 == sector
  | none => false

/-- The team asked to take a checkpoint. -/
def askCut (s : State) (team : Nat) : State :=
  match s.team team with
  | some t => s.setTeam team (some { t with cut := true })
  | none => s

/-- Address of entry i of a team's undo log, oldest first: the log stands at the end of the checkpoint area (R358, R359). -/
def Resilient.undoAt (r : Resilient) (i : Nat) : Nat := r.area + r.areaSize - 196608 + 52 * i

/-- Before a resilient team first writes a sector of its region in an interval, the old sector and its check value are appended to the
undo log, which notes which sector it was (R359). -/
def logSector (s : State) (sector : Nat) : State :=
  match regionTeam s (48 * sector) with
  | some (n, t) =>
    match t.resilient with
    | some r =>
      if logged t sector then s
      else
        let r1 := { r with undo := (sector, poisoned s sector) :: r.undo }
        let entry := memBytes s.mem (48 * sector) 48 ++ toBytes 4 (storedCheck s.mem s.chk sector).toNat
        (writeBytes s (r.undoAt r.undo.length) entry).setTeam n (some { t with resilient := some r1 })
    | none => s
  | none => s

/-- A flight into the region of another team that is resilient waits for that team's checkpoint (R266, R359). -/
def blockedBy (s : State) (f : Flight) : Option Nat :=
  match (updateKeys f.upd).head? with
  | none => none
  | some k =>
    match regionTeam s k with
    | some (n, t) => if t.resilient.isSome && n != f.team && !t.inside then some n else none
    | none => none

/-! ## Writes -/

/-- Whether a byte lies in the region of another team that is resilient: an access of this kind waits for that team's
checkpoint (R266, R359). -/
def foreignRegion (s : State) (team key : Nat) : Option Nat :=
  match regionTeam s key with
  | some (n, t) => if t.resilient.isSome && n != team && !t.inside then some n else none
  | none => none

/-- An update performs at its home (R251); the undo log is kept unless the write is another team's. -/
def performUpdate (s : State) (team : Nat) (u : Update) : State × Nat × FlagSet :=
  let r := updateCells (memGet s.mem) u
  let own (x : Nat) : Bool := match regionTeam s (48 * x) with
    | some (n, _) => n == team
    | none => false
  let s1 := (updateSectors u).foldl (fun a x => if own x then logSector a x else a) s
  -- a window of a remote device that is closed discards a write (R377)
  if (updateKeys u).any fun k => decide (remoteKey 0 0 ≤ k) && Config.remoteClosed (s.tick + k) then (s1, r.2)
  else
    match u with
    | .move sector data delta bad => (writeSector s1 sector data delta bad, r.2)
    | _ => (writePartly s1 r.1 (wholeKeys u), r.2)

/-- The bytes of a sector under an update. -/
def patchSector (x : L1Sector) (u : Update) : L1Sector :=
  match u with
  | .move _ data delta bad => { x with data := data, delta := delta, bad := bad }
  | _ =>
  let rd (k : Nat) : Byte := BitVec.ofNat 8 (x.data.toNat / 2 ^ (8 * (k - 48 * x.sector)))
  let cells := (updateCells rd u).1
  let whole := coversSector (wholeKeys u) x.sector
  let bytes := (List.range 48).map fun i => patched rd cells (48 * x.sector + i)
  { x with data := BitVec.ofNat 384 (leBytes bytes), bad := x.bad && !whole, delta := if whole then 0 else x.delta }

/-- A sector that keeps in mind what a path has stored past it (R253). -/
def L1Sector.keep (x : L1Sector) (f : Flight) : L1Sector :=
  { x with past := x.past ++ [{ slot := f.slot, epoch := f.epoch, path := f.path, upd := f.upd }] }

/-- Whether a sector keeps something that a path has stored past it. -/
def L1Sector.keeps (x : L1Sector) (f : Flight) : Bool :=
  x.past.any fun p => p.slot == f.slot && p.epoch == f.epoch && p.path == f.path

/-- A clean sector of the storing core on the acknowledgement of a store: it takes the bytes, or stays as it is where the store's policy
says so; the path's own loads see the store all the same (R224, R253; log 42). -/
def L1Sector.acknowledged (x : L1Sector) (f : Flight) : L1Sector :=
  if f.l1 then (let y := patchSector x f.upd; if x.keeps f then y.keep f else y) else x.keep f

/-- The storing core's L1 on the acknowledgement of a store, or without the sectors of any other write (R224, R254). -/
def acknowledge (s : State) (f : Flight) : State :=
  let sectors := updateSectors f.upd
  match f.upd with
  | .store _ =>
    s.setL1 f.core ((s.core f.core).l1.map fun x =>
      if x.dirty == 0 && sectors.contains x.sector then x.acknowledged f else x)
  | _ => dropSectors s f.core sectors

/-- A flight performs and, without waiting, is acknowledged. -/
def performNow (s : State) (f : Flight) : State := acknowledge (performUpdate s f.team f.upd).1 f

/-- Whether two flights are of one path of one incarnation. -/
def samePath (a b : Flight) : Bool := a.core == b.core && a.slot == b.slot && a.epoch == b.epoch && a.path == b.path

/-- Whether a flight is an element of a convoy of a deterministic group: these perform in the order of the program (R28). -/
def inOrder (s : State) (f : Flight) : Bool :=
  f.path == 1 && (s.group? f.core f.slot).any (·.deterministic)

/-- Whether a flight can perform as soon as it is let: nothing holds it, no checkpoint stands before it, and no host has to complete
it, unless `host` says that it does. -/
def Flight.free (f : Flight) (s : State) (host : Bool) : Bool :=
  f.held == 0 && !f.performed && (host || !f.host) && (blockedBy s f).isNone

/-- Which flights perform where some are wanted: these, and in a deterministic group the ones of its convoys that stand before them; one
that cannot perform stops its followers (R28). -/
def pickFlights (s : State) (host : Bool) (wanted : Flight → Bool) : List Flight → List Flight → List (Bool × Flight)
  | _, [] => []
  | older, f :: fs =>
    let rest := pickFlights s host wanted (older ++ [f]) fs
    let stuck := inOrder s f && older.any fun o => samePath o f && o.held == 0 && !o.performed && !o.free s host
    let due := wanted f && !stuck || inOrder s f && rest.any fun r => r.1 && samePath r.2 f
    (due && f.free s host, f) :: rest

/-- Wanted flights perform, with those that have to go before them. -/
def landWanted (s : State) (host : Bool) (wanted : Flight → Bool) (perform : State → Flight → State) : State :=
  let ps := pickFlights s host wanted [] s.flights
  (ps.filter (·.1)).foldl (fun a p => perform a p.2) { s with flights := (ps.filter (!·.1)).map (·.2) }

/-- Flights of a core to a sector perform before a fill of the sector, which then holds them (R253, R254; log 10). -/
def flushSector (s : State) (core sector : Nat) : State :=
  landWanted s false (fun f => f.core == core && (updateSectors f.upd).contains sector) fun a f => (performUpdate a f.team f.upd).1

/-- Acknowledgements under way to a core for sectors that are refilled are ignored (R254). -/
def ignoreAcks (s : State) (core : Nat) (sectors : List Nat) : State :=
  { s with flights := s.flights.filter fun f =>
      !(f.core == core && f.performed && (updateSectors f.upd).any sectors.contains) }

/-- Fill of a sector from its home (R221, R223). -/
def fillSector (s : State) (core sector : Nat) : State :=
  let s1 := ignoreAcks (flushSector s core sector) core [sector]
  if hasWay s1 core sector then putSector s1 core (homeSector s1 sector) else s1

/-- A sector as a resilient team has it: its home under the team's uncommitted writes (R224, R258, R264). -/
def heldSector (s : State) (team sector : Nat) : L1Sector :=
  (s.flights.filter fun f => f.held == team && (updateSectors f.upd).contains sector).foldl (fun x f => patchSector x f.upd)
    (homeSector s sector)

/-- A dirty sector whose bytes that its team has not written are as they stand at the home now. -/
def refreshed (s : State) (x : L1Sector) : L1Sector := { heldSector s x.dirty x.sector with way := x.way, dirty := x.dirty }

/-- Invalidation of every clean sector of a core; the bytes that a team has not written are refreshed in its dirty ones (R246,
R258). -/
def settle (s : State) (core : Nat) : State :=
  s.setL1 core (((s.core core).l1.filter fun x => x.dirty != 0).map (refreshed s))

/-- A team's dirty copy of a sector refreshed (R253). -/
def refreshSector (s : State) (core team sector : Nat) : State :=
  s.setL1 core ((s.core core).l1.map fun x => if x.dirty == team && team != 0 && x.sector == sector then refreshed s x else x)

/-- A resilient team's write into its own dirty sectors (R224, R359). DESIGN CHOICE (log 10): each resilient team of a core has its own dirty
copy of a sector. -/
def dirtyWrite (s : State) (core team : Nat) (u : Update) : State :=
  let one (s : State) (sector : Nat) : State :=
    let s1 := flushSector s core sector
    match findSector (s1.core core).l1 sector team with
    | some x => putSector s1 core { patchSector x u with dirty := team, past := [] }
    | none =>
      let s2 := ignoreAcks s1 core [sector]
      putSector s2 core { patchSector (homeSector s2 sector) u with dirty := team }
  (updateSectors u).foldl one s

/-- The activity class of one sector's worth beyond the L1 of a core: the die cache, or the Trellis and Osrun; none for the core's own
scratchpad and for the host's memory (R303; log 35). -/
def beyondClass (core key : Nat) : Option Nat :=
  if key < padKey 0 0 then some 12
  else if key < padKey 292 0 then (if padKey core 0 ≤ key && key < padKey (core + 1) 0 then none else some 15)
  else if remoteKey 0 0 ≤ key then some 15
  else none

/-- An access to the die cache counted, and beside it, for the sectors that it moves between the die cache and HBM4 or DDR-5 (R303;
log 35). -/
def countDie (s : State) (core slot key : Nat) : State := (s.count core slot 12 1).count core slot (13 + tierOf key) 1

/-- An access to one sector counted for its slot: in the L1, and beyond it. -/
def countAccess (s : State) (core slot key : Nat) (l1 beyond : Bool) : State :=
  let s1 := if l1 then s.count core slot 11 1 else s
  match if beyond then beyondClass core key else none with
  | some 12 => countDie s1 core slot key
  | some cls => s1.count core slot cls 1
  | none => s1

/-- A flight's sector counted for the slot that sends it; a copy's moves are counted as the copy engine's. -/
def countFlight (s : State) (f : Flight) : State :=
  match (updateKeys f.upd).head? with
  | some k => countAccess s f.core f.slot k (f.l1 || f.held != 0) (f.path != 3 || beyondClass f.core k == some 12)
  | none => s

/-- Whether two lists of keys share one. -/
def sharesKey (a b : List Nat) : Bool := a.any b.contains

/-- Sends a flight: a held one goes into the team's dirty sectors; one that nothing blocks, and before which no older one of its path has
to perform, performs at once at the prompt pace; any other is under way (R28, R224, R251, R253, R266). -/
def sendFlight (s : State) (f : Flight) : State :=
  let s := countFlight s f
  if f.held != 0 then { dirtyWrite s f.core f.held f.upd with flights := s.flights ++ [f] }
  else
    match blockedBy s f with
    | some t => { askCut s t with flights := s.flights ++ [f] }
    | none =>
      let waits := s.flights.any fun o =>
        o.held == 0 && !o.performed && samePath o f && (inOrder s f || sharesKey (updateKeys o.upd) (updateKeys f.upd))
      if s.pace = .prompt && !waits then performNow s f else { s with flights := s.flights ++ [f] }

/-- Whether a page's writes are held by a resilient team (R266). -/
def Ref.holdable (r : Ref) : Bool := !r.local_ && decide (r.tier ≤ 1) && r.cache == 0

/-- Uncommitted bytes of a core (R359). -/
def uncommitted (s : State) (core : Nat) : Nat :=
  48 * ((s.core core).l1.filter fun x => x.dirty != 0).length
    + (s.teams.foldl (fun a e => match e.2 with
        | some t => if t.core == core then a + (match t.resilient with | some r => r.undo.length | none => 0) else a
        | none => a) 0) * 52

/-- Sectors in which the bytes of spans that a test picks lie. -/
def refSectors (p : Ref → Bool) (refs : List (Nat × Nat × Ref × Word)) : List Nat :=
  dedup (refs.flatMap fun r =>
    if p r.2.2.1 then (List.range ((r.1 + r.2.1 - 1) / 48 + 1 - r.1 / 48)).map (r.1 / 48 + ·) else [])

/-- What a write adds to the uncommitted bytes: the sectors that become dirty, and those of the team's region that are logged
(R359). -/
def growth (s : State) (ctx : Ctx) (refs : List (Nat × Nat × Ref × Word)) : Nat :=
  let l1 := (s.core ctx.core).l1
  let fresh := (refSectors Ref.holdable refs).filter fun x => !(l1.any fun y => y.sector == x && y.dirty == ctx.teamId)
  let first := (refSectors (·.local_) refs).filter fun x => match regionTeam s (48 * x) with
    | some (n, t) => n == ctx.teamId && !logged t x
    | none => false
  48 * fresh.length + 52 * first.length

/-- Whether the L1 cannot hold writes as uncommitted ones now: their sets have no way, or the uncommitted bytes would pass
their limit (R224, R359). -/
def holdFull (s : State) (ctx : Ctx) (refs : List (Nat × Nat × Ref × Word)) : Bool :=
  !waysFor s ctx.core (dedup ((refSectors Ref.holdable refs).map lineOf))
    || decide (196608 < uncommitted s ctx.core + growth s ctx refs)

/-- Whether a write of a resilient team to a sector of its region has no room in the undo log (R359). -/
def logFull (s : State) (core team sector : Nat) : Bool :=
  match regionTeam s (48 * sector) with
  | some (n, t) => n == team && t.resilient.isSome && !logged t sector && decide (196608 < uncommitted s core + 52)
  | none => false

/-- Whether the team of a context stands inside its checkpoint (R361 step 4). -/
def Ctx.inside (ctx : Ctx) (s : State) : Bool := (s.team ctx.teamId).any (·.inside)

/-- Whether a write of a resilient team has to take a checkpoint first: it cannot be held, its set has no way, or the
uncommitted bytes would pass their limit (R224, R267, R359). -/
def mustCut (s : State) (ctx : Ctx) (refs : List (Nat × Nat × Ref × Word)) : Bool :=
  match ctx.team with
  | some t => t.resilient.isSome && (refs.any (fun r => !r.2.2.1.local_ && !r.2.2.1.holdable) || holdFull s ctx refs)
  | none => false

/-- The team number when writes to a page are held. -/
def heldBy (ctx : Ctx) (r : Ref) : Nat :=
  match ctx.team with
  | some t => if t.resilient.isSome && r.holdable then ctx.teamId else 0
  | none => 0

/-! ## Reads -/

/-- What a read gives: the state after it, the bytes as a number, the fault it consumes, and the other team whose
checkpoint it has to wait for. -/
structure ReadOut where
  s : State
  val : Nat
  fault : Option (Nat × Word)
  stall : Option Nat

/-- The order of the faults of one access or element (R249, R350): machine-check stands immediately before
check-mismatch. -/
def faultRank (code : Nat) : Nat :=
  if code == cTranslation then 0 else if code == cAccess then 1 else if code == cMachine then 2 else if code == cCheck then 3 else 4

/-- The first fault in that order. -/
def firstFault : List (Nat × Word) → Option (Nat × Word)
  | [] => none
  | f :: fs =>
    match firstFault fs with
    | some g => if faultRank g.1 < faultRank f.1 then some g else some f
    | none => some f

/-- Path numbers of reads that see memory only as it stands at its homes: the Trowel's and the walker's, and those of progress
words, port values and trap vectors (R263, R274, R311). -/
def homePath : Nat := 5

/-- Flights whose bytes a read of the same path sees before they perform, and in an L1 sector before they are acknowledged
(R253); a read at the home also sees what its resilient team holds uncommitted (R258, R266). -/
def ownFlights (s : State) (ctx : Ctx) (path : Nat) (hit : Bool) : List Flight :=
  let ep := (s.slot ctx.core ctx.slot).epoch
  s.flights.filter fun f =>
    if f.held == 0 then (hit || !f.performed) && f.core == ctx.core && f.slot == ctx.slot && f.epoch == ep && f.path == path
    else decide (path ≤ 3) && !hit && f.held == ctx.teamId

/-- What a path of the reader's incarnation has stored past a sector of the L1 (R253). -/
def ownPast (s : State) (ctx : Ctx) (path : Nat) (x : L1Sector) : List PathBytes :=
  x.past.filter fun p => p.slot == ctx.slot && p.epoch == (s.slot ctx.core ctx.slot).epoch && p.path == path

/-- A byte view with updates laid over it in order. -/
def overlay (rd : Nat → Byte) (us : List Update) (cells : List Host.Cell) : List Host.Cell :=
  match us with
  | [] => cells
  | u :: us => overlay rd us (cells ++ (updateCells (patched rd cells) u).1)

/-- A read of n bytes within one sector (R223, R224, R229, R253, R366). -/
def readPiece (s : State) (ctx : Ctx) (path policy : Nat) (home : Bool) (r : Ref) (key n : Nat) (addr : Word) : ReadOut :=
  let sector := key / 48
  let wait := if r.local_ then
      match regionTeam s key with
      | some (m, t) => if m != ctx.teamId && logged t sector then some m else none
      | none => none
    else none
  match wait with
  | some m => { s := s, val := 0, fault := none, stall := some m }
  | none =>
    let l1 := (s.core ctx.core).l1
    let cached := r.holdable
    let mineDirty := match findSector l1 sector ctx.teamId with
      | some x => x.dirty != 0
      | none => false
    let othersDirty := l1.any fun x => x.sector == sector && x.dirty != 0 && x.dirty != ctx.teamId
    let useL1 := cached && !home && decide (policy ≤ 1) && (mineDirty || !othersDirty)
    let hit := if useL1 then findSector l1 sector ctx.teamId else none
    let fills := cached && policy == 0 && (hit.isNone) && !othersDirty && !mineDirty
    -- no way free of dirty sectors: their team takes a checkpoint first (R224)
    match if fills && !hasWay s ctx.core sector then (l1.find? fun x => setOf x.sector == setOf sector && x.dirty != 0).map (·.dirty)
        else none with
    | some m => { s := s, val := 0, fault := none, stall := some m }
    | none =>
    -- the state after the access, and the sector it is served from
    let s1 := match hit with
      | some x => putSector s ctx.core x
      | none =>
        if fills then fillSector s ctx.core sector
        -- a later load that the L1 serves returns nothing older (R253)
        else if cached && decide (path ≤ 1) then
          (if mineDirty then refreshSector s ctx.core ctx.teamId sector else dropSectors s ctx.core [sector])
        else s
    let src := match hit with
      | some x => x
      | none => homeSector s1 sector
    let rd (k : Nat) : Byte := BitVec.ofNat 8 (src.data.toNat / 2 ^ (8 * (k - 48 * sector)))
    let own := (ownPast s1 ctx path src).map (·.upd) ++ (ownFlights s1 ctx path hit.isSome).map (·.upd)
    let cells := overlay rd own []
    let val := viewNat (patched rd cells) key n
    let marked := r.tier == 3 && !r.local_ && Config.remoteClosed (s.tick + sector)
    let fault := if src.bad then some (cMachine, addr - BitVec.ofNat 64 (key % 48))
      else if marked || r.chk && src.delta != 0 then some (cCheck, addr) else none
    { s := if ctx.tlb then countAccess s1 ctx.core ctx.slot key useL1 hit.isNone else s1, val := val, fault := fault, stall := none }

/-- Two reads one after the other as one: of their faults the first in the order of R350 stands. -/
def ReadOut.join (p : ReadOut) (bits : Nat) (q : ReadOut) : ReadOut :=
  { q with val := p.val + 2 ^ bits * q.val, fault := firstFault (p.fault.toList ++ q.fault.toList) }

/-- A read of n bytes under one translation, sector by sector. -/
def readRun (ctx : Ctx) (path policy : Nat) (home : Bool) (r : Ref) :
    Nat → State → Nat → Nat → Word → ReadOut
  | 0, s, _, _, _ => { s := s, val := 0, fault := none, stall := none }
  | fuel + 1, s, key, n, addr =>
    if n == 0 then { s := s, val := 0, fault := none, stall := none }
    else
      let len := min n (48 - key % 48)
      let p := readPiece s ctx path policy home r key len addr
      if p.stall.isSome then p
      else p.join (8 * len) (readRun ctx path policy home r fuel p.s (key + len) (n - len) (addr + BitVec.ofNat 64 len))

/-- A read over spans. -/
def readSpans (ctx : Ctx) (path policy : Nat) (home : Bool) :
    List (Nat × Nat × Ref × Word) → State → ReadOut
  | [], s => { s := s, val := 0, fault := none, stall := none }
  | (key, len, r, addr) :: rest, s =>
    let p := readRun ctx path policy home r (len / 48 + 2) s key len addr
    if p.stall.isSome then p else p.join (8 * len) (readSpans ctx path policy home rest p.s)

/-- A read of n bytes by a group: translation, the walker's bits, the access, its checks (R216, R217, R220, R223). -/
def readMem (s : State) (ctx : Ctx) (path policy : Nat) (home : Bool) (addr : Word) (n : Nat) : ReadOut :=
  let sps := spans s ctx .load addr n
  match accessFault sps with
  | some f => { s := s, val := 0, fault := some f, stall := none }
  | none => readSpans ctx path policy home (spanRefs sps) (touchSpans s ctx false sps)

/-! ## Element accesses by bits (R232, R233) -/

/-- Bytes that hold mw bits from bit `off` of a byte. -/
def bytesOf (off mw : Nat) : Nat := (off + mw + 7) / 8

/-- The bytes of a store of mw bits from bit `off` of the first byte, with their masks: a partly written byte keeps its
other bits. -/
def bitBytes (keys : List Nat) (off mw v : Nat) : List (Nat × Byte × Byte) :=
  let n := keys.length
  keys.zip ((toBytes n (v % 2 ^ mw * 2 ^ off)).zip (toBytes n ((2 ^ mw - 1) * 2 ^ off)))

/-- Keys of the bytes of spans. -/
def spanKeys : List (Nat × Nat × Ref × Word) → List Nat
  | [] => []
  | (key, len, _, _) :: rest => (List.range len).map (key + ·) ++ spanKeys rest

/-- What a page makes of a write to it: the L1 takes its bytes, the team holds it, the host completes it. -/
structure PartKind where
  l1 : Bool
  held : Nat
  host : Bool
  deriving DecidableEq, Repr

/-- The parts of an element: its bytes sector by sector (R233), each under its own page. -/
def splitParts : List (PartKind × Nat × Byte × Byte) → List (PartKind × List (Nat × Byte × Byte))
  | [] => []
  | b :: bs =>
    match splitParts bs with
    | (k, c :: cs) :: rest =>
      if c.1 / 48 == b.2.1 / 48 && k = b.1 then (k, b.2 :: c :: cs) :: rest else (b.1, [b.2]) :: (k, c :: cs) :: rest
    | rest => (b.1, [b.2]) :: rest

/-- What a write of a group carries to its home. -/
structure Sender where
  ctx : Ctx
  path : Nat
  seq : Nat
  serial : Nat
  /-- The store's policy lets the L1 take its bytes (R224). -/
  l1 : Bool
  /-- Nothing of it is held, whatever its pages (R267). -/
  direct : Bool := false

/-- How a sender's bytes travel to a page. -/
def Sender.kind (k : Sender) (r : Ref) : PartKind :=
  { l1 := k.l1 && !r.local_ && decide (r.tier ≤ 1), held := if k.direct then 0 else heldBy k.ctx r, host := r.tier == 2 }

/-- A write of mw bits from bit `off` of the byte at an address, checked already: the walker's bits, then one flight for
each part (R217, R224, R233, R251, R266). -/
def sendBits (s : State) (k : Sender) (sps : List Span) (off mw v : Nat) : State :=
  let refs := spanRefs sps
  let s1 := touchSpans s k.ctx true sps
  let kinds := refs.flatMap fun r => List.replicate r.2.1 (k.kind r.2.2.1)
  let one (s : State) (p : PartKind × List (Nat × Byte × Byte)) : State :=
    sendFlight s
      { core := k.ctx.core, slot := k.ctx.slot, epoch := (s.slot k.ctx.core k.ctx.slot).epoch, path := k.path,
        seq := k.seq, serial := k.serial, upd := .store p.2, l1 := p.1.l1, held := p.1.held,
        team := k.ctx.teamId, host := p.1.host, performed := false }
  (splitParts (kinds.zip (bitBytes (spanKeys refs) off mw v))).foldl one s1

end Sys2Proof.Machine
end

