-- ==== Sys2Proof/Machine/Ordering.lean ====
section
/-! DEFINITION. Witnesses, store-sequence entries and engine counters (R74, R75, R244 to R248, R255, R256, R259). -/

namespace Sys2Proof.Machine

/-! ## Witnesses (R244) -/

/-- The witness of an entry of an incarnation. -/
def witnessOf (core slot epoch seq : Nat) : Word :=
  BitVec.ofNat 64 (2 ^ 62 + core % 512 * 2 ^ 53 + slot % 16 * 2 ^ 49 + epoch % 2048 * 2 ^ 38 + seq % 2 ^ 38)

def witKind (w : Word) : Nat := (w.extractLsb' 62 2).toNat
def witCore (w : Word) : Nat := (w.extractLsb' 53 9).toNat
def witSlot (w : Word) : Nat := (w.extractLsb' 49 4).toNat
def witEpoch (w : Word) : Nat := (w.extractLsb' 38 11).toNat
def witSeq (w : Word) : Nat := (w.extractLsb' 0 38).toNat

/-- The poisoned form of a witness (R247). -/
def witPoison (w : Word) : Word := (w &&& 0x3FFF_FFFF_FFFF_FFFF#64) ||| 0x8000_0000_0000_0000#64

/-- What `resolve` answers (R256). -/
inductive Resolution where
  | pending | resolved | poisoned
  deriving DecidableEq, Repr

/-- The running group of a task with the given indices. -/
def findGroup (s : State) (task cluster cidx gidx : Nat) : Option (Nat × Nat × Group) :=
  s.liveGroups.find? fun e =>
    e.2.2.idn.cluster == cluster && e.2.2.idn.cidx == cidx && e.2.2.idn.gidx == gidx
      && (match s.teamOf e.2.2 with
        | some t => t.task == task
        | none => false)

/-- `resolve` (R256). -/
def resolve (s : State) (w : Word) : Resolution :=
  if witKind w == 0 then .resolved
  else if witKind w == 2 then .poisoned
  else
    let sl := s.slot (witCore w) (witSlot w)
    let e := witEpoch w
    if sl.killed.getLsbD e then .poisoned
    else if sl.away.getLsbD e then
      match s.aways.find? fun a => a.core == witCore w && a.slot == witSlot w && a.epoch == e with
      | some a =>
        let done := match findGroup s a.task a.cluster a.cidx a.gidx with
          | some g => g.2.2.ord.wdone
          | none => a.wdone
        if witSeq w ≤ done then .resolved else .pending
      | none => .pending
    else if e != sl.epoch then .resolved
    else
      match sl.group with
      | none => .resolved
      | some g => if witSeq w ≤ g.ord.wdone then .resolved else .pending

/-- Whether a wait's query about a witness has to wait itself: it is forwarded to a group that is not resident (R260). -/
def queryHeld (s : State) (w : Word) : Bool :=
  let sl := s.slot (witCore w) (witSlot w)
  witKind w == 1 && !sl.killed.getLsbD (witEpoch w) && sl.away.getLsbD (witEpoch w)
    && (s.aways.find? fun a => a.core == witCore w && a.slot == witSlot w && a.epoch == witEpoch w).any fun a =>
      (findGroup s a.task a.cluster a.cidx a.gidx).isNone

/-- Whether a wait on a witness ends (R256, R260). -/
def waitOver (s : State) (w : Word) : Bool := decide (resolve s w = .resolved) && !queryHeld s w

/-- The check of a witness (R245): the fault it raises. -/
def checkWitness (s : State) (w : Word) : Option Nat :=
  if witKind w == 0 then none
  else if witKind w == 3 || (witKind w == 1 && (291 < witCore w || coreSlots (witCore w) ≤ witSlot w)) then
    some cWitFormat
  else if resolve s w = .poisoned then some cWitPoisoned
  else none

/-! ## Store-sequence entries (R248) -/

/-- Whether n more entries would pass the last number (R74, R248). -/
def Group.seqFull (g : Group) (n : Nat) : Bool := n != 0 && decide (2 ^ 38 - 1 < g.ord.wseq + n)

/-- A store-sequence entry taken at push: its floor holds the witnesses that may still be waiting (R17, R255). -/
def Group.takeEntry (g : Group) (kind : SeqKind) : Group × Nat :=
  ({ g with ord := { g.ord with
      wseq := g.ord.wseq + 1
      entries := g.ord.entries ++ [{ seq := g.ord.wseq, kind := kind, floor := g.ord.floor, complete := false }] } },
   g.ord.wseq)

/-- The witness of a group's entry. -/
def State.witness (s : State) (core slot seq : Nat) : Word := witnessOf core slot (s.slot core slot).epoch seq

/-- A change of one entry. -/
def Group.modEntry (g : Group) (seq : Nat) (f : SeqEntry → SeqEntry) : Group :=
  { g with ord := { g.ord with entries := g.ord.entries.map fun e => if e.seq == seq then f e else e } }

/-- Every element of an entry has been sent. -/
def Group.markSent (g : Group) (seq : Nat) : Group :=
  g.modEntry seq fun e => match e.kind with
    | .plain _ => { e with kind := .plain true }
    | _ => e

/-- An entry's own condition holds. -/
def Group.markDone (g : Group) (seq : Nat) : Group := g.modEntry seq fun e => { e with complete := true }

/-- Whether a flight belongs to the present incarnation of a slot. -/
def Flight.of (f : Flight) (s : State) (core slot : Nat) : Bool :=
  f.core == core && f.slot == slot && f.epoch == (s.slot core slot).epoch && !f.performed

/-- An entry's own condition (R248); what a resilient team holds performs at the commit (R266). -/
def entryOwn (s : State) (core slot : Nat) (e : SeqEntry) : Bool :=
  e.complete || (match e.kind with
    | .plain sent => sent && !(s.flights.any fun f => f.of s core slot && f.seq == e.seq && f.held == 0)
    | .knot a b => resolve s a = .resolved && resolve s b = .resolved
    | .notify _ _ => false
    | .ppub _ _ _ => false)

/-- Completion of an entry (R255): its own condition and its floor; a resilient team's entries wait for the commit. -/
def entryDone (s : State) (core slot : Nat) (commit : Bool) (g : Group) (e : SeqEntry) : Bool :=
  entryOwn s core slot e && e.floor.all (fun w => resolve s w ≠ .pending) && (commit || !g.resilient)

/-- A knot whose inputs have both resolved is complete by its own condition and no longer depends on them (R247, R248). -/
def SeqEntry.latch (s : State) (e : SeqEntry) : SeqEntry :=
  match e.kind with
  | .knot a b => { e with complete := e.complete || (resolve s a = .resolved && resolve s b = .resolved) }
  | _ => e

def Group.latchKnots (s : State) (g : Group) : Group :=
  { g with ord := { g.ord with entries := g.ord.entries.map (SeqEntry.latch s) } }

/-- The knots of every group whose inputs have resolved stand complete before an incarnation is killed. -/
def latchAllKnots (s : State) : State := s.liveGroups.foldl (fun a e => a.modGroup e.1 e.2.1 (Group.latchKnots s)) s

/-- wdone over the completed prefix. -/
def Group.prefixDone (g : Group) (done : SeqEntry → Bool) : Group :=
  let es := g.ord.entries.dropWhile done
  let w := match es with
    | e :: _ => e.seq - 1
    | [] => g.ord.wseq - 1
  let g1 := { g with ord := { g.ord with entries := es, wdone := max g.ord.wdone w } }
  if g.ord.wdone < w then g1.latchEvent 2 else g1

/-- Whether a knot of the group has a poisoned input (R247). -/
def knotPoisoned (s : State) (g : Group) : Bool :=
  g.ord.entries.any fun e => match e.kind with
    | .knot a b => !e.complete && (resolve s a = .poisoned || resolve s b = .poisoned)
    | _ => false

/-- Away incarnations of the group in a slot whose last entry has completed lose their away bits (R259). -/
def settleAways (s : State) (core slot : Nat) : State :=
  match s.group? core slot with
  | none => s
  | some g =>
    let done (a : Away) : Bool :=
      a.cluster == g.idn.cluster && a.cidx == g.idn.cidx && a.gidx == g.idn.gidx && decide (a.last ≤ g.ord.wdone)
        && (match s.teamOf g with
          | some t => t.task == a.task
          | none => false)
    let s1 := { s with aways := s.aways.filter fun a => !done a }
    (s.aways.filter done).foldl (fun b a =>
      let sl := b.slot a.core a.slot
      let bit : BitVec 2048 := 1#2048 <<< a.epoch
      b.setSlot a.core a.slot { sl with away := sl.away &&& ~~~bit }) s1

/-! ## Engine counters (R75) -/

/-- The count of a class: 0 cc, 1 mc, 2 ac, 3 oc. -/
def Group.count (g : Group) (cls : Nat) : Nat := (g.ord.counted.filter fun c => c.cls == cls).length

/-- An entry counted at push. -/
def Group.countUp (g : Group) (cls serial : Nat) : Group :=
  { g with ord := { g.ord with counted := g.ord.counted ++ [{ cls := cls, serial := serial, complete := false }] } }

/-- A counted entry has completed. -/
def Group.countDone (g : Group) (serial : Nat) : Group :=
  { g with ord := { g.ord with
      counted := g.ord.counted.map fun c => if c.serial == serial then { c with complete := true } else c } }

/-- Leading completed entries of each class leave, in push order (R75); the event latch takes its bit (R140). -/
def dropCounted (open_ : List Nat) : List Counted → List Counted
  | [] => []
  | c :: cs =>
    if c.complete && !open_.contains c.cls then dropCounted open_ cs
    else c :: dropCounted (if open_.contains c.cls then open_ else c.cls :: open_) cs

def Group.settleCounts (g : Group) : Group :=
  let cs := dropCounted [] g.ord.counted
  let g1 := { g with ord := { g.ord with counted := cs } }
  if cs.length < g.ord.counted.length then g1.latchEvent 1 else g1

/-- Whether writes of a serial are still to perform, held ones among them (R261, R266). -/
def serialBusy (s : State) (core slot serial : Nat) : Bool :=
  s.flights.any fun f => f.of s core slot && f.serial == serial

/-- Whether writes of a serial are under way and not held. -/
def serialSent (s : State) (core slot serial : Nat) : Bool :=
  s.flights.any fun f => f.of s core slot && f.serial == serial && f.held == 0

/-- Whether a group still has to carry out an entry of a serial, or the update of a PPUB. -/
def Group.queued (g : Group) (serial : Nat) : Bool :=
  g.que.vq.any (fun e => e.serial == serial && e.done.isNone) || g.que.mq.any (fun e => e.serial == serial && e.done.isNone)
    || g.que.cq.any (·.serial == serial) || g.ord.entries.any fun e => match e.kind with
      | .ppub _ _ n => n == serial && !e.complete
      | _ => false

/-- Counts whose entries have left or executed and whose writes have performed (R75, R200, R239, R243, R261, R286, R339). -/
def settleEngine (s : State) (core slot : Nat) (g : Group) : Group :=
  let one (c : Counted) : Counted :=
    if !g.queued c.serial && !serialBusy s core slot c.serial then { c with complete := true } else c
  ({ g with ord := { g.ord with counted := g.ord.counted.map one } }).settleCounts

/-! ## Witnesses of a team's own entries (R266) -/

/-- Witnesses that an entry waits for. -/
def SeqEntry.inputs (e : SeqEntry) : List Word :=
  e.floor ++ match e.kind with
    | .knot a b => if e.complete then [] else [a, b]
    | _ => []

/-- The group of an incarnation that is away: where it runs now, or in the context pool (R259). -/
def awayGroup (s : State) (a : Away) : Option Group :=
  ((findGroup s a.task a.cluster a.cidx a.gidx).map (·.2.2)).orElse fun _ =>
    (s.saved.find? fun v => v.task == a.task && v.cluster == a.cluster && v.cidx == a.cidx).bind fun v =>
      v.groups.find? fun g => g.idn.gidx == a.gidx

/-- The group that a pending witness names, of an incarnation that runs in its slot or is away. -/
def witGroup (s : State) (w : Word) : Option Group :=
  if resolve s w = .pending then
    if (s.slot (witCore w) (witSlot w)).epoch == witEpoch w then s.group? (witCore w) (witSlot w)
    else (s.aways.find? fun a => a.core == witCore w && a.slot == witSlot w && a.epoch == witEpoch w).bind (awayGroup s)
  else none

/-- Whether a list of witnesses, or what their entries wait for in turn, covers entries of a team; `fuel` bounds the witnesses
looked at. -/
def coversTeam (s : State) (team : Nat) : Nat → List Word → List Word → Bool
  | 0, _, _ => false
  | _ + 1, [], _ => false
  | fuel + 1, w :: ws, seen =>
    match if seen.contains w then none else witGroup s w with
    | none => coversTeam s team fuel ws (w :: seen)
    | some g =>
      g.idn.team == team
        || coversTeam s team fuel
          (ws ++ ((g.ord.entries.filter fun e => decide (e.seq ≤ witSeq w)).flatMap SeqEntry.inputs).filter fun x =>
            !(ws.contains x || seen.contains x)) (w :: seen)

/-- Whether a witness covers entries of a team that are not complete, by itself or through knots and floors (R255, R266). -/
def ownTeamWitness (s : State) (team : Nat) (w : Word) : Bool :=
  let groups := s.liveGroups.map (·.2.2) ++ s.saved.flatMap (·.groups)
  team != 0 && coversTeam s team (groups.foldl (fun a g => g.ord.entries.foldl (fun a x => a + x.inputs.length) a) 2) [w] []

/-! ## Places in program order -/

/-- The next place in program order. -/
def Group.nextSerial (g : Group) : Group := { g with sca := { g.sca with serial := g.sca.serial + 1 } }

/-- Whether the group waits at its queues: a frozen group of level S may not push (R30). -/
def Group.handlerActive (g : Group) : Bool := g.trp.frozen

end Sys2Proof.Machine
end

