-- ==== Sys2Proof/Machine/BarrierObject.lean ====
section
/-! DEFINITION. Barrier objects: their layout, the completion rule and the write of an object (R340, R341, R348); what a copy
reports as a sector of it performs (R275, R284, R346). -/

namespace Sys2Proof.Machine

/-! ## Objects (R340, R341) -/

/-- A barrier object: its 48 bytes as twelve 32-bit words. -/
structure Barrier where
  exp : Nat
  last : Nat
  arr : List Nat
  bytes : List Nat
  flags : Nat
  rsv : Nat
  deriving DecidableEq, Repr

/-- The object that a sector holds. -/
def Barrier.ofNat (n : Nat) : Barrier :=
  let f (i : Nat) : Nat := n / 2 ^ (32 * i) % 2 ^ 32
  { exp := f 0, last := f 1, arr := [f 2, f 3, f 4, f 5], bytes := [f 6, f 7, f 8, f 9], flags := f 10, rsv := f 11 }

/-- Little-endian words put together. -/
def wordsNat : List Nat → Nat
  | [] => 0
  | w :: ws => w % 2 ^ 32 + 2 ^ 32 * wordsNat ws

/-- The sector of an object. -/
def Barrier.image (b : Barrier) : Nat := wordsNat ([b.exp, b.last] ++ b.arr ++ b.bytes ++ [b.flags, b.rsv])

/-- Well formed: EXP in 1 to 2^20, the reserved bytes and bits zero (R343). -/
def Barrier.ok (b : Barrier) : Bool := decide (1 ≤ b.exp) && decide (b.exp ≤ 2 ^ 20) && decide (b.flags ≤ 1) && b.rsv == 0

/-- How far phase q is ahead of an object (R340). -/
def Barrier.ahead (b : Barrier) (q : Nat) : Int := signedOf 32 ((q + 2 ^ 32 - b.last) % 2 ^ 32)

/-- Whether LAST ≥ x (R340). -/
def Barrier.reached (b : Barrier) (x : Nat) : Bool := decide ((b.last + 2 ^ 32 - x % 2 ^ 32) % 2 ^ 32 < 2 ^ 31)

/-- The completion rule, and whether a phase completed; a slot once completed needs a new arrival, so four rounds are all
(R341). -/
def Barrier.complete : Nat → Barrier → Barrier × Bool
  | 0, b => (b, false)
  | n + 1, b =>
    let p := (b.last + 1) % 2 ^ 32
    let i := p % 4
    if b.arr.getD i 0 == b.exp && b.bytes.getD i 0 == 0 then
      ((Barrier.complete n { b with last := p, arr := b.arr.set i 0, bytes := b.bytes.set i 0 }).1, true)
    else (b, false)

/-- An addition to the arrivals of a phase's slot. -/
def Barrier.addArr (b : Barrier) (q c : Nat) : Barrier := { b with arr := b.arr.set (q % 4) (b.arr.getD (q % 4) 0 + c) }

/-- An addition to the bytes of a phase's slot, wrapping. -/
def Barrier.addBytes (b : Barrier) (q : Nat) (v : Int) : Barrier :=
  { b with bytes := b.bytes.set (q % 4) (((b.bytes.getD (q % 4) 0 : Int) + v) % (2 : Int) ^ 32).toNat }

/-- The bytes of a sector in the 32-bit words in which an object changes (R228). -/
def changedCells (sector old new : Nat) : List Host.Cell :=
  (List.range 12).flatMap fun i =>
    if old / 2 ^ (32 * i) % 2 ^ 32 == new / 2 ^ (32 * i) % 2 ^ 32 then []
    else cellsAt (48 * sector + 4 * i) (toBytes 4 (new / 2 ^ (32 * i)))

/-- The object written, after the completion rule: BINIT writes all of it, any other action the words that it changes; a phase of a
checkpoint barrier in a resilient team asks for its checkpoint (R341, R344, R348). -/
def writeBarrier (s : State) (team sector : Nat) (b : Barrier) (whole : Bool := false) : State :=
  let r := b.complete 4
  let cells := if whole then cellsAt (48 * sector) (toBytes 48 r.1.image)
    else changedCells sector (sectorData s sector).toNat r.1.image
  let u : Update := .store (cells.map fun c => (c.1, c.2, 0xFF#8))
  let s1 := (performUpdate s team u).1
  match regionTeam s1 (48 * sector) with
  | some (n, t) => if r.2 && b.flags == 1 && t.resilient.isSome then askCut s1 n else s1
  | none => s1

/-! ## What a copy reports (R275, R284, R346) -/

/-- A change of one request's arrivals at a port. -/
def Group.modArrival (g : Group) (p serial idx : Nat) (f : Arrival → Arrival) : Group :=
  let q := g.port p
  g.setPort p { q with arrivals := q.arrivals.map fun a => if a.serial == serial && a.idx == idx then f a else a }

/-- A report acts: bytes counted down at a barrier object, or values that arrive at a port. -/
def actReport (s : State) (core slot team : Nat) : Report → State
  | .barrier place phase bytes =>
    let b := Barrier.ofNat (sectorData s (place / 48)).toNat
    writeBarrier s team (place / 48) (b.addBytes phase (-(bytes : Int)))
  | .port place serial idx nibbles last =>
    s.modGroup core slot fun g =>
      g.modArrival place serial idx fun a => { a with nibbles := a.nibbles ++ nibbles, complete := a.complete || last }

end Sys2Proof.Machine
end

