-- ==== Sys2Proof/Machine/Scalar.lean ====
section
/-! DEFINITION. Scalar integer instructions (R125 to R129): OPX, its immediate forms, LUI, ADDPC and LUIH. -/

namespace Sys2Proof.Machine

/-! ## Values -/

/-- 1 or 0. -/
def ofBool (c : Bool) : Word := if c then 1 else 0

/-- A shift or rotation amount: the low six bits (R126). -/
def amount (b : Word) : Nat := b.toNat % 64

/-- High half of the signed product (R126). -/
def mulHigh (a b : Word) : Word := BitVec.ofInt 64 (a.toInt * b.toInt / (2 : Int) ^ 64)

/-- High half of the unsigned product (R126). -/
def mulHighU (a b : Word) : Word := BitVec.ofNat 64 (a.toNat * b.toNat / 2 ^ 64)

/-- Signed quotient toward zero, all ones for b = 0; -2^63 by -1 wraps to itself (R127). -/
def divS (a b : Word) : Word := if b == 0 then BitVec.allOnes 64 else BitVec.ofInt 64 (a.toInt.tdiv b.toInt)

/-- Unsigned quotient, all ones for b = 0 (R127). -/
def divU (a b : Word) : Word := if b == 0 then BitVec.allOnes 64 else BitVec.ofNat 64 (a.toNat / b.toNat)

/-- Signed remainder with the sign of a, a itself for b = 0 (R127). -/
def remS (a b : Word) : Word := if b == 0 then a else BitVec.ofInt 64 (a.toInt.tmod b.toInt)

/-- Unsigned remainder, a itself for b = 0 (R127). -/
def remU (a b : Word) : Word := if b == 0 then a else BitVec.ofNat 64 (a.toNat % b.toNat)

/-- Leading zero bits, 64 for 0 (R126). -/
def clz (a : Word) : Word := if a == 0 then 64 else BitVec.ofNat 64 (63 - Nat.log2 a.toNat)

/-- Trailing zero bits, 64 for 0 (R126). -/
def ctz (a : Word) : Word := if a == 0 then 64 else BitVec.ofNat 64 (Nat.log2 (a &&& -a).toNat)

/-- Number of 1 bits among the n low bits. -/
def countOnes : Nat → Nat → Nat
  | 0, _ => 0
  | n + 1, v => v % 2 + countOnes n (v / 2)

/-- Bytes in the opposite order (R126). -/
def swapBytes (a : Word) : Word := BitVec.ofNat 64 (leBytes (toBytes 8 a.toNat).reverse)

/-- The n low bits sign-extended; n = 0 gives 0 and n at or above 64 gives a (R126). -/
def sextBits (a : Word) (n : Nat) : Word :=
  if n == 0 then 0 else if 64 ≤ n then a else BitVec.ofInt 64 (signedOf n a.toNat)

/-- The n low bits zero-extended (R126). -/
def zextBits (a : Word) (n : Nat) : Word := if 64 ≤ n then a else BitVec.ofNat 64 (a.toNat % 2 ^ n)

/-- Bits [31:0] sign-extended (R126). -/
def sextWord (a : Word) : Word := (a.truncate 32).signExtend 64

/-- The word of an instruction, 0 for a step without one. -/
def wordOf (i : Instr) : Word := BitVec.ofNat 64 ((encode i).getD 0)

/-! ## Shapes -/

/-- x d ← f(x a, x b). -/
def regOp2 (s : State) (d a b : BitVec 5) (f : Word → Word → Word) : Out :=
  withRegs s [a.toNat, b.toNat] fun g => finish s (g.setX d.toNat (f (g.x a.toNat) (g.x b.toNat)))

/-- x d ← f(x a). -/
def regOp1 (s : State) (d a : BitVec 5) (f : Word → Word) : Out :=
  withRegs s [a.toNat] fun g => finish s (g.setX d.toNat (f (g.x a.toNat)))

/-- x d ← f(pc, old x d), for the U format. -/
def immOp (s : State) (d : BitVec 5) (rs : List Nat) (f : Word → Word → Word) : Out :=
  withRegs s rs fun g => finish s (g.setX d.toNat (f g.sca.pc (g.x d.toNat)))

/-! ## Meanings -/

/-- ADD (R126). -/
def execAdd (d a b : BitVec 5) (s : State) : Out := regOp2 s d a b fun a b => a + b

/-- SUB (R126). -/
def execSub (d a b : BitVec 5) (s : State) : Out := regOp2 s d a b fun a b => a - b

/-- AND (R126). -/
def execAnd (d a b : BitVec 5) (s : State) : Out := regOp2 s d a b fun a b => a &&& b

/-- OR (R126). -/
def execOr (d a b : BitVec 5) (s : State) : Out := regOp2 s d a b fun a b => a ||| b

/-- XOR (R126). -/
def execXor (d a b : BitVec 5) (s : State) : Out := regOp2 s d a b fun a b => a ^^^ b

/-- ANDN (R126). -/
def execAndn (d a b : BitVec 5) (s : State) : Out := regOp2 s d a b fun a b => a &&& ~~~b

/-- SHL (R126). -/
def execShl (d a b : BitVec 5) (s : State) : Out := regOp2 s d a b fun a b => a <<< amount b

/-- SHR (R126). -/
def execShr (d a b : BitVec 5) (s : State) : Out := regOp2 s d a b fun a b => a >>> amount b

/-- SAR (R126). -/
def execSar (d a b : BitVec 5) (s : State) : Out := regOp2 s d a b fun a b => a.sshiftRight (amount b)

/-- ROL (R126). -/
def execRol (d a b : BitVec 5) (s : State) : Out := regOp2 s d a b fun a b => a.rotateLeft (amount b)

/-- ROR (R126). -/
def execRor (d a b : BitVec 5) (s : State) : Out := regOp2 s d a b fun a b => a.rotateRight (amount b)

/-- MUL (R126). -/
def execMul (d a b : BitVec 5) (s : State) : Out := regOp2 s d a b fun a b => a * b

/-- MULH (R126). -/
def execMulh (d a b : BitVec 5) (s : State) : Out := regOp2 s d a b fun a b => mulHigh a b

/-- MULHN (R126). -/
def execMulhn (d a b : BitVec 5) (s : State) : Out := regOp2 s d a b fun a b => mulHighU a b

/-- DIV (R127). -/
def execDiv (d a b : BitVec 5) (s : State) : Out := regOp2 s d a b fun a b => divS a b

/-- DIVN (R127). -/
def execDivn (d a b : BitVec 5) (s : State) : Out := regOp2 s d a b fun a b => divU a b

/-- REM (R127). -/
def execRem (d a b : BitVec 5) (s : State) : Out := regOp2 s d a b fun a b => remS a b

/-- REMN (R127). -/
def execRemn (d a b : BitVec 5) (s : State) : Out := regOp2 s d a b fun a b => remU a b

/-- MIN (R126). -/
def execMin (d a b : BitVec 5) (s : State) : Out := regOp2 s d a b fun a b => if b.slt a then b else a

/-- MAX (R126). -/
def execMax (d a b : BitVec 5) (s : State) : Out := regOp2 s d a b fun a b => if a.slt b then b else a

/-- MINN (R126). -/
def execMinn (d a b : BitVec 5) (s : State) : Out := regOp2 s d a b fun a b => if b.ult a then b else a

/-- MAXN (R126). -/
def execMaxn (d a b : BitVec 5) (s : State) : Out := regOp2 s d a b fun a b => if a.ult b then b else a

/-- SLT (R126). -/
def execSlt (d a b : BitVec 5) (s : State) : Out := regOp2 s d a b fun a b => ofBool (a.slt b)

/-- SLTN (R126). -/
def execSltn (d a b : BitVec 5) (s : State) : Out := regOp2 s d a b fun a b => ofBool (a.ult b)

/-- CLZ (R126). -/
def execClz (d a : BitVec 5) (s : State) : Out := regOp1 s d a fun a => clz a

/-- CTZ (R126). -/
def execCtz (d a : BitVec 5) (s : State) : Out := regOp1 s d a fun a => ctz a

/-- POPC (R126). -/
def execPopc (d a : BitVec 5) (s : State) : Out := regOp1 s d a fun a => BitVec.ofNat 64 (countOnes 64 a.toNat)

/-- BREV (R126). -/
def execBrev (d a : BitVec 5) (s : State) : Out := regOp1 s d a fun a => a.reverse

/-- BSWAP (R126). -/
def execBswap (d a : BitVec 5) (s : State) : Out := regOp1 s d a fun a => swapBytes a

/-- SEXT (R126). -/
def execSext (d a b : BitVec 5) (s : State) : Out := regOp2 s d a b fun a b => sextBits a b.toNat

/-- ZEXT (R126). -/
def execZext (d a b : BitVec 5) (s : State) : Out := regOp2 s d a b fun a b => zextBits a b.toNat

/-- ADDW (R126). -/
def execAddw (d a b : BitVec 5) (s : State) : Out := regOp2 s d a b fun a b => sextWord (a + b)

/-- SUBW (R126). -/
def execSubw (d a b : BitVec 5) (s : State) : Out := regOp2 s d a b fun a b => sextWord (a - b)

/-- ADDI (R128): the immediate is sign-extended. -/
def execAddi (d a : BitVec 5) (i : BitVec 15) (s : State) : Out :=
  let imm := i.signExtend 64
  regOp1 s d a fun a => a + imm

/-- ANDI (R128): the immediate is sign-extended. -/
def execAndi (d a : BitVec 5) (i : BitVec 15) (s : State) : Out :=
  let imm := i.signExtend 64
  regOp1 s d a fun a => a &&& imm

/-- ORI (R128): the immediate is sign-extended. -/
def execOri (d a : BitVec 5) (i : BitVec 15) (s : State) : Out :=
  let imm := i.signExtend 64
  regOp1 s d a fun a => a ||| imm

/-- XORI (R128): the immediate is sign-extended. -/
def execXori (d a : BitVec 5) (i : BitVec 15) (s : State) : Out :=
  let imm := i.signExtend 64
  regOp1 s d a fun a => a ^^^ imm

/-- SLTI (R128): the immediate is sign-extended. -/
def execSlti (d a : BitVec 5) (i : BitVec 15) (s : State) : Out :=
  let imm := i.signExtend 64
  regOp1 s d a fun a => ofBool (a.slt imm)

/-- SLTNI (R128): the immediate is sign-extended. -/
def execSltni (d a : BitVec 5) (i : BitVec 15) (s : State) : Out :=
  let imm := i.signExtend 64
  regOp1 s d a fun a => ofBool (a.ult imm)

/-- SHLI (R128). -/
def execShli (d a : BitVec 5) (n : BitVec 6) (s : State) : Out := regOp1 s d a fun a => a <<< n.toNat

/-- SHRI (R128). -/
def execShri (d a : BitVec 5) (n : BitVec 6) (s : State) : Out := regOp1 s d a fun a => a >>> n.toNat

/-- SARI (R128). -/
def execSari (d a : BitVec 5) (n : BitVec 6) (s : State) : Out := regOp1 s d a fun a => a.sshiftRight n.toNat

/-- ROLI (R128). -/
def execRoli (d a : BitVec 5) (n : BitVec 6) (s : State) : Out := regOp1 s d a fun a => a.rotateLeft n.toNat

/-- The 32-bit value imm20 × 2^12, sign-extended (R39). -/
def upperImm (i : BitVec 20) : Word := (i.zeroExtend 32 <<< 12).signExtend 64

/-- LUI (R129). -/
def execLui (d : BitVec 5) (i : BitVec 20) (s : State) : Out := immOp s d [] fun _ _ => upperImm i

/-- ADDPC (R129). -/
def execAddpc (d : BitVec 5) (i : BitVec 20) (s : State) : Out := immOp s d [] fun pc _ => pc + upperImm i

/-- LUIH (R129): bits [43:0] of x d are kept. -/
def execLuih (d : BitVec 5) (i : BitVec 20) (s : State) : Out :=
  immOp s d [d.toNat] fun _ x => i ++ x.truncate 44

end Sys2Proof.Machine
end

