-- ==== Sys2Proof/Machine/Flags.lean ====
section
/-! DEFINITION. Flags: how the flags that an instruction raises reach fs, or stop it (R69, R116, R117). -/

namespace Sys2Proof.Machine

/-- The rounding environment of a vector type (R67, R107, R109, R110). -/
def envOf (vt : BitVec 64) : RoundEnv := { rm := vtRm vt, fz := vtFz vt, sat := vtSat vt }

/-- Whether raised flags stop the instruction: one of them is enabled in fs (R117). -/
def Group.stops (g : Group) (f : FlagSet) : Bool := enabledFlags g.vec.fs f

/-- Completion of a scalar instruction with a result and flags: an enabled exception raises arithmetic and writes
nothing; otherwise x d is written and the flags are folded (R116, R117). -/
def finishFlags (s : State) (g : Group) (d : Nat) (v : Word) (f : FlagSet) : Out :=
  if g.stops f then trapHere s g cArithmetic 0 else finish s ((g.setX d v).fold f)

end Sys2Proof.Machine
end

