-- ==== Sys2Proof/Machine/Operands.lean ====
section
/-! DEFINITION. Operands of the queues: names under a vector type (R41, R85), the four forms of operand b (R40, R150),
stream ports as sources (R272 to R277), elements below vl and masks (R151). -/

namespace Sys2Proof.Machine

/-! ## The format codes (R5) -/

/-- Class and width in slices of a format code 0 to 10 (R5): f64, f32, f16, bf16, f8a, f8b, f4, i8, n8, i4, n4. -/
def formatClass (code : Nat) : Nat × Nat :=
  match code with
  | 0 => (2, 16)
  | 1 => (2, 8)
  | 2 => (2, 4)
  | 3 => (3, 4)
  | 4 => (4, 2)
  | 5 => (5, 2)
  | 6 => (6, 1)
  | 7 => (0, 2)
  | 8 => (1, 2)
  | 9 => (0, 1)
  | _ => (1, 1)

/-- Width in bits of a format code. -/
def formatBits (code : Nat) : Nat := 4 * (formatClass code).2

/-- A conversion as VCVT delivers it (R164, R165): a float source into an integer class clamps with NV. -/
def convertVal (env : RoundEnv) (floatSource : Bool) (cls w : Nat) (v : Val) : Nat × FlagSet :=
  if isIntClass cls && floatSource then floatToInt env.rm cls (4 * w) v else narrow env cls w v

/-- A value moved from one class and width to another: unchanged bits where they agree, else converted (R160, R231). -/
def deliver (env : RoundEnv) (scls ews dcls ewd bits : Nat) : Nat × FlagSet :=
  if scls == dcls && ews == ewd then (bits, 0) else convertVal env (!isIntClass scls) dcls ewd (extend env scls ews bits)

/-! ## Work of a unit -/

/-- The state that a unit works on: the device, the group apart from it, the flags of performed elements, the x register
to write at completion. -/
structure Work where
  s : State
  g : Group
  flags : FlagSet
  xreg : Option (Nat × Word)
  /-- Updates of a reduction at memory, collected before they are merged: key, page, operand (R241). -/
  pend : List (Nat × Ref × Nat)
  /-- Elements as `Progress.rows` has them (R91). -/
  rows : FMap (Option Row)
  /-- The register files that reads see where they are not the group's own: as the members before a break in the chain
  leave them when they are complete (R26, R90). -/
  view : Option Files
  /-- The element at which the two computations of a protected task differ (R365). -/
  upset : Option Nat
  /-- The store of element 0 has been sent (`Progress.ahead`). -/
  ahead : Bool := false

/-- Why a member stops at an element: a fault with its taddr; something it waits for, which may be the checkpoint of
another team; or a port without its next value (R272). -/
inductive Stop where
  | fault (code : Nat) (addr : Word)
  | stall (cut : Option Nat)
  | dry (port : Nat)
  deriving DecidableEq, Repr

/-- What a read gives a member: its number, or why the member stops there. -/
def ReadOut.answer (r : ReadOut) : Except Stop Nat :=
  if r.stall.isSome then .error (.stall r.stall)
  else
    match r.fault with
    | some f => .error (.fault f.1 f.2)
    | none => .ok r.val

/-- Place of a stop in the order of an element's faults (R249, R350): a wait comes after the faults of an address, before
those of what is read there. -/
def Stop.rank : Stop → Nat
  | .fault c _ => 2 * faultRank c
  | _ => 3

/-- The first stop among answers. -/
def firstStop {α : Type} : List (Except Stop α) → Option Stop
  | [] => none
  | .ok _ :: rest => firstStop rest
  | .error x :: rest =>
    match firstStop rest with
    | some y => if y.rank < x.rank then some y else some x
    | none => some x

/-- What a member knows when it runs: its entry and its place there, its captured values and where it runs. -/
structure MemberEnv where
  core : Nat
  slot : Nat
  e : VEntry
  place : Nat
  caps : List Word
  ctx : Ctx

def MemberEnv.env (m : MemberEnv) : RoundEnv := envOf m.e.vt
def MemberEnv.scls (m : MemberEnv) : Nat := vtScls m.e.vt
def MemberEnv.ews (m : MemberEnv) : Nat := vtEws m.e.vt
def MemberEnv.dcls (m : MemberEnv) : Nat := vtDcls m.e.vt
def MemberEnv.ewd (m : MemberEnv) : Nat := vtEwd m.e.vt
def MemberEnv.cap (m : MemberEnv) (i : Nat) : Word := m.caps.getD i 0
def MemberEnv.sameType (m : MemberEnv) : Bool := m.scls == m.dcls && m.ews == m.ewd
def MemberEnv.srcFloat (m : MemberEnv) : Bool := !isIntClass m.scls
def MemberEnv.dstFloat (m : MemberEnv) : Bool := !isIntClass m.dcls

/-- First slice of a name in a role of a width (R41, R85). -/
def MemberEnv.start (m : MemberEnv) (n w : Nat) : Nat := vtBase m.e.vt + n * w

/-- Slices of a source-role name. -/
def MemberEnv.src (m : MemberEnv) (n : Nat) : Nat × Nat := (m.start n m.ews, m.ews)

/-- Slices of a destination-role name. -/
def MemberEnv.dst (m : MemberEnv) (n : Nat) : Nat × Nat := (m.start n m.ewd, m.ewd)

/-- Slices of an index-role name. -/
def MemberEnv.idx (m : MemberEnv) (n : Nat) : Nat × Nat := (m.start n 8, 8)

/-- Whether an element's slices hold a poisoned word (R366). -/
def Group.badRange (g : Group) (e start w : Nat) : Bool :=
  !g.fil.badSlices.isEmpty
    && (List.range (w / 16 + 2)).any fun i =>
      let j := start / 16 + i
      decide (16 * j < start + w) && FMap.get false g.fil.badSlices (e * 48 + j)

/-- Whether the 64-bit word that holds bit e of a mask is poisoned (R366): word w of mask m at key 16 m + w. -/
def Group.badBit (g : Group) (m e : Nat) : Bool := !g.fil.badMasks.isEmpty && FMap.get false g.fil.badMasks (m * 16 + e / 64)

/-- The marks of masks taken away (R366). -/
def Group.cleanMasks (g : Group) (ms : List Nat) : Group :=
  { g with fil := { g.fil with badMasks := g.fil.badMasks.filter fun b => !ms.contains (b.1 / 16) } }

/-- The group as reads find it. -/
def Work.seen (w : Work) : Group :=
  match w.view with
  | some f => { w.g with fil := f }
  | none => w.g

/-- A change of the register files, in the group and in what reads see. -/
def Work.change (w : Work) (f : Group → Group) : Work :=
  { w with g := f w.g, view := w.view.map fun v => (f { w.g with fil := v }).fil }

/-- A read of slices of an element; a poisoned word is a consumed error (R366, R367). -/
def Work.read (w : Work) (e : Nat) (r : Nat × Nat) : Except Stop Nat :=
  if w.seen.badRange e r.1 r.2 then .error (.fault cMachine 0) else .ok (w.seen.slices e r.1 r.2)

/-- A write of slices of an element; a whole word takes its mark away (R366). -/
def Group.writeSlices (g : Group) (e : Nat) (r : Nat × Nat) (v : Nat) : Group :=
  let g1 := g.setSlices e r.1 r.2 v
  let bad := if g1.fil.badSlices.isEmpty then [] else g1.fil.badSlices.filter fun b =>
    !(b.1 / 48 == e && decide (r.1 ≤ b.1 % 48 * 16) && decide (b.1 % 48 * 16 + 16 ≤ r.1 + r.2))
  { g1 with fil := { g1.fil with badSlices := bad } }

def Work.write (w : Work) (e : Nat) (r : Nat × Nat) (v : Nat) : Work := w.change fun g => g.writeSlices e r v

/-- Adds the flags of a performed element; an enabled one is arithmetic at that element (R117). -/
def Work.flag (w : Work) (f : FlagSet) : Except Stop Work :=
  if w.g.stops f then .error (.fault cArithmetic 0) else .ok { w with flags := w.flags ||| f }

/-- Bit e of a mask. -/
def Work.bit (w : Work) (m e : Nat) : Bool := (w.seen.mask m).getLsbD e

/-- Bit e of a mask written. -/
def Group.setBit (g : Group) (m e : Nat) (v : Bool) : Group :=
  let one : BitVec 1024 := 1#1024 <<< e
  g.setMask m (if v then g.mask m ||| one else g.mask m &&& ~~~one)

def Work.setBit (w : Work) (m e : Nat) (v : Bool) : Work := w.change fun g => g.setBit m e v

/-- The mask cut off at vl (R159, R171). -/
def Work.cutMask (w : Work) (m vl : Nat) : Work := w.change fun g => g.setMask m (g.mask m &&& lowMask vl)

/-- Whether an element is active under the k field (R40, R151). -/
def Work.active (w : Work) (k e : Nat) : Bool := k == 0 || w.bit (k - 1) e

/-! ## Elements as they were (R90, R91) -/

/-- Element e of the files as it stands. -/
def Group.row (g : Group) (e : Nat) : Row :=
  { slices := FMap.get 0 g.fil.slices e
    masks := BitVec.ofNat 12 ((List.range 12).foldl (fun a m => if (g.mask m).getLsbD e then a + 2 ^ m else a) 0)
    badSlices := BitVec.ofNat 48 (g.fil.badSlices.foldl (fun a b => if b.1 / 48 == e && b.2 then a + 2 ^ (b.1 % 48) else a) 0)
    badMasks := BitVec.ofNat 12 ((List.range 12).foldl (fun a m => if g.badBit m e then a + 2 ^ m else a) 0) }

/-- Key of a recorded element. -/
def MemberEnv.rowKey (m : MemberEnv) (e : Nat) : Nat := m.place * 65536 + e

/-- The element recorded for a member before it goes there. -/
def Work.record (m : MemberEnv) (w : Work) (e : Nat) : Work :=
  { w with rows := FMap.set none w.rows (m.rowKey e) (some (w.seen.row e)) }

/-- Element e as a member found it, or as it stands where the member has not been. -/
def Work.was (m : MemberEnv) (w : Work) (e : Nat) : Row := (FMap.get none w.rows (m.rowKey e)).getD (w.seen.row e)

/-- A read of slices of an element as it was. -/
def Work.readWas (m : MemberEnv) (w : Work) (e : Nat) (r : Nat × Nat) : Except Stop Nat :=
  let x := w.was m e
  if (List.range 48).any fun j => x.badSlices.getLsbD j && decide (r.1 < 16 * j + 16) && decide (16 * j < r.1 + r.2) then
    .error (.fault cMachine 0)
  else .ok (x.slices.toNat / 2 ^ (4 * r.1) % 2 ^ (4 * r.2))

/-- Bit e of a mask as it was. -/
def Work.bitWas (m : MemberEnv) (w : Work) (mk e : Nat) : Except Stop Bool :=
  let x := w.was m e
  if x.badMasks.getLsbD mk then .error (.fault cMachine 0) else .ok (x.masks.getLsbD mk)

/-! ## Operand b -/

/-- An operand of an element: its exact value, its stored bits, and whether it is an immediate. -/
structure Opd where
  v : Val
  bits : Nat
  imm : Bool

/-- A signed 6-bit immediate (R40). -/
def imm6 (b : BitVec 6) : Int := b.toInt

/-- A float or integer operand from stored bits. -/
def MemberEnv.opd (m : MemberEnv) (bits : Nat) : Opd :=
  { v := extend m.env m.scls m.ews bits, bits := bits % 2 ^ (4 * m.ews), imm := false }

/-! ## Ports (R272 to R277) -/

/-- Values that a port may buffer (R271). -/
def portDepth (g : Group) : Nat := 4 * g.vec.vlmax

/-- A little-endian number of mw bits at a bit address, read at its home (R274). -/
def readBits (s : State) (ctx : Ctx) (addr : Word) (bit mw : Nat) : ReadOut :=
  let a := addr + BitVec.ofNat 64 (bit / 8)
  let off := bit % 8
  let r := readMem s ctx homePath 2 true a (bytesOf off mw)
  { r with val := r.val / 2 ^ off % 2 ^ mw }

/-- A stream value and its scale as a record port fetches them (R273, R274): the state after, and what was found. -/
def fetchValue (s : State) (ctx : Ctx) (b : Binding) (i : Nat) : State × Except (Option Nat) Fetched :=
  let w := formatBits b.fmt
  let r := if b.stride == 0 then readBits s ctx b.base (i * w) w
    else readBits s ctx (b.base + BitVec.ofNat 64 i * b.stride) 0 w
  if r.stall.isSome then (r.s, .error r.stall)
  else if r.fault.isSome then (r.s, .ok { val := 0, scale := 0, fault := r.fault })
  else if b.sblock == 0 then (r.s, .ok { val := r.val, scale := 0, fault := none })
  else
    let ws := formatBits b.sfmt
    let q := readBits r.s ctx b.sbase (i / b.sblock * ws) ws
    if q.stall.isSome then (q.s, .error q.stall) else (q.s, .ok { val := r.val, scale := q.val, fault := q.fault })

/-- A fetched value decoded to the reader's class and width (R274). -/
def decodeFetched (env : RoundEnv) (b : Binding) (cls w : Nat) (f : Fetched) : Nat × FlagSet :=
  let fc := formatClass b.fmt
  let v := extend env fc.1 fc.2 f.val
  if b.sblock == 0 then convertVal env (!isIntClass fc.1) cls w v
  else
    let sc := formatClass b.sfmt
    let p := mulVal v (extend env sc.1 sc.2 f.scale)
    let d := convertVal env true cls w p.1
    (d.1, p.2 ||| d.2)

/-- Port number in a control word (R282). -/
def portOf (xd : Word) : Nat := (xd.extractLsb' 50 3).toNat

/-- Whether one of a list's records from a place on, as they stand in memory, targets a port (R288, R313); `fuel` bounds them. -/
def listNames (s : State) (ctx : Ctx) (list : Word) (p : Nat) : Nat → Nat → Bool
  | 0, _ => false
  | fuel + 1, i =>
    let r := readMem s ctx 3 2 true (list + BitVec.ofNat 64 (48 * i)) 48
    r.fault.isNone
      && ((r.val / 2 ^ 260 % 4 == 2 && r.val / 2 ^ 50 % 8 == p) || (r.val / 2 ^ 271 % 2 == 0 && listNames s ctx list p fuel (i + 1)))

/-- Whether a copy-queue entry may still begin a request that targets a port (R275): a list may while one of its records that have not
begun names the port (log 15). -/
def CEntry.toPort (c : CEntry) (s : State) (ctx : Ctx) (p : Nat) : Bool :=
  match c.op with
  | .copy _ _ t => t == 2 && portOf c.xd == p
  | .kick => !c.allBegun && listNames s ctx c.xa p (64 - c.next) c.next
  | _ => false

/-- Whether a copy that is older than a place and targets a port is incomplete (R275). -/
def Group.olderCopy (g : Group) (s : State) (ctx : Ctx) (serial p : Nat) : Bool :=
  g.que.cq.any (fun c => decide (c.serial < serial) && c.done.isNone && c.toPort s ctx p)
    || g.que.jobs.any (fun j => decide (j.serial < serial) && j.target == 2 && j.place == p)
    || (g.port p).arrivals.any fun a => decide (a.serial < serial) && !a.complete

/-- The arrived prefix of the copies older than a place, in stream order (R275). -/
def arrivedNibbles (serial : Nat) : List Arrival → List (BitVec 4)
  | [] => []
  | a :: as =>
    if serial ≤ a.serial then [] else if a.complete then a.nibbles ++ arrivedNibbles serial as else a.nibbles

/-- Removal of the first n arrived pieces; emptied and complete streams go. -/
def dropNibbles : Nat → List Arrival → List Arrival
  | _, [] => []
  | n, a :: as =>
    if n < a.nibbles.length then { a with nibbles := a.nibbles.drop n } :: as
    else if a.complete then dropNibbles (n - a.nibbles.length) as
    else { a with nibbles := [] } :: as

/-- The number that nibbles in stream order form. -/
def nibblesNat : List (BitVec 4) → Nat
  | [] => 0
  | n :: ns => n.toNat + 16 * nibblesNat ns

/-- A copy-arrival port after some pieces of its stream have been taken (R275, R326). -/
def Port.pass (p : Port) (ns : List (BitVec 4)) (left : List Arrival) : Port :=
  { p with arrivals := left, half := (ns.getLast?).getD p.half, odd := p.odd != (ns.length % 2 == 1) }

/-- A value taken from a port by a vector read, with the flags of its decoding (R272, R274 to R277). -/
def takePort (m : MemberEnv) (w : Work) (q : Nat) : Except Stop (Nat × FlagSet × Work) :=
  let p := w.g.port q
  let bad : Except Stop (Nat × FlagSet × Work) := .error (.fault cStreamPort 0)
  match p.kind with
  | .unbound => bad
  | .record =>
    if p.bind.count ≤ p.pos then bad
    else
      let r : State × Except (Option Nat) Fetched := match p.fetched with
        | f :: _ => (w.s, .ok f)
        | [] => fetchValue w.s m.ctx p.bind p.pos
      match r.2 with
      | .error x => .error (.stall x)
      | .ok f =>
        match f.fault with
        | some x => .error (.fault x.1 x.2)
        | none =>
          let d := decodeFetched m.env p.bind m.scls m.ews f
          let g1 := w.g.setPort q { p with pos := p.pos + 1, fetched := p.fetched.drop 1 }
          .ok (d.1, d.2, { w with s := r.1, g := g1 })
  | .copy =>
    let ns := arrivedNibbles m.e.serial p.arrivals
    if m.ews ≤ ns.length then
      .ok (nibblesNat (ns.take m.ews), 0,
        { w with g := w.g.setPort q { p.pass (ns.take m.ews) (dropNibbles m.ews p.arrivals) with pos := p.pos + 1 } })
    else if w.g.olderCopy w.s m.ctx m.e.serial q then .error (.dry q)
    else bad
  | .fifo =>
    match p.fifo with
    | (v, width) :: rest =>
      if width == m.ews then .ok (v, 0, { w with g := w.g.setPort q { p with pos := p.pos + 1, fifo := rest } }) else bad
    | [] => bad

/-- n values of a port, in stream order. -/
def takeMany (m : MemberEnv) (q : Nat) : Nat → Work → Except Stop (List Nat × FlagSet × Work)
  | 0, w => .ok ([], 0, w)
  | n + 1, w => do
    let r ← takePort m w q
    let rest ← takeMany m q n r.2.2
    .ok (r.1 :: rest.1, r.2.1 ||| rest.2.1, rest.2.2)

/-- Operand b of an element (R150); a port gives one value whether the element is active or not. -/
def operandB (m : MemberEnv) (w : Work) (e : Nat) (f : BitVec 2) (b : BitVec 6) : Except Stop (Opd × FlagSet × Work) :=
  if f == 0 then do
    let bits ← w.read e (m.src b.toNat)
    .ok (m.opd bits, 0, w)
  else if f == 1 then .ok (m.opd (m.cap 0).toNat, 0, w)
  else if f == 2 then .ok ({ v := .ofInt (imm6 b), bits := 0, imm := true }, 0, w)
  else do
    let r ← takePort m w (b.toNat % 8)
    .ok ({ v := extend m.env m.scls m.ews r.1, bits := r.1, imm := false }, r.2.1, r.2.2)

/-! ## Element loops (R29, R151) -/

/-- What a run of a member gives: the work done, and where and why it stopped. -/
structure MOut where
  w : Work
  stop : Option (Nat × Stop)

/-- Elements from e, `n` of them, in increasing order, up to the first that stops. -/
def elementLoop (f : Work → Nat → Except Stop Work) : Nat → Nat → Work → MOut
  | 0, _, w => { w := w, stop := none }
  | n + 1, e, w =>
    match f w e with
    | .ok w1 => elementLoop f n (e + 1) w1
    | .error x => { w := w, stop := some (e, x) }

/-- How a member does its work: element by element with a last act at its end, or as a whole (R25, R29). -/
inductive Action where
  | elements (f : Work → Nat → Except Stop Work) (last : Work → Work)
  | whole (f : Work → Except Stop Work)

/-- A member as the vector unit sees it: its mask (0 without one), whether the captured type permits it, its checks
before element 0, the slices, masks and ports it touches, and its action. -/
structure Member where
  k : Nat
  typed : Bool
  sr : List (Nat × Nat)
  sw : List (Nat × Nat)
  mr : List Nat
  mw : List Nat
  ports : List Nat
  /-- What is checked and waited for before element 0, after slice-bound (R184, R235). -/
  pre : Work → Except Stop Work
  act : Action
  /-- What is sent once its elements are known (R241). -/
  flush : Work → Work
  /-- It reads elements below the one it performs, as they were before any write of its own (R91). -/
  keeps : Bool := false
  /-- Masks of which it reads the bit after the element it performs (R171). -/
  ahead : List Nat := []
  /-- It writes elements below the one it performs (R178). -/
  packs : Bool := false
  /-- Values of its port that it takes for each element below vl, active or not (R150, R182). -/
  takes : Nat := 0
  /-- `pre` is made whenever the entry begins, not only before element 0 (R240). -/
  eachTime : Bool := false
  /-- A store whose element writes nothing but memory (R235, R238). -/
  plain : Bool := false

end Sys2Proof.Machine
end

