-- ==== Sys2Proof/Machine/Publish.lean ====
section
/-! DEFINITION. Publication of a resilient team's interval (R361 steps 2 and 3) and consumed errors (R229, R365, R367). -/

namespace Sys2Proof.Machine

/-- The groups of a team with their slots. -/
def teamGroups (s : State) (team : Nat) : List (Nat × Nat × Group) :=
  s.liveGroups.filter fun e => e.2.2.idn.team == team

/-- Verification: every dirty sector of the team passes its check (R361 step 2). -/
def verified (s : State) (team : Nat) : Bool :=
  match s.team team with
  | some t => (s.core t.core).l1.all fun x => x.dirty != team || (x.delta == 0 && !x.bad)
  | none => true

/-- Held flights of a team, in the order they were made. -/
def heldFlights (s : State) (team : Nat) : List Flight := s.flights.filter fun f => f.held == team

/-- Entries of a team complete at a commit (R255, R266). -/
def commitEntries (s : State) (team : Nat) : State :=
  (teamGroups s team ++ teamGroups s team).foldl (fun a e =>
    a.modGroup e.1 e.2.1 fun g => g.prefixDone (entryDone a e.1 e.2.1 true g)) s

/-- A write performs at its home, with what it reports. -/
def performReported (s : State) (f : Flight) : State :=
  let s1 := (performUpdate s f.team f.upd).1
  match f.report with
  | some r => actReport s1 f.core f.slot f.team r
  | none => s1

/-- Writes under way, some wanted, perform at once and are acknowledged (R250, R361, R369). -/
def landFlights (s : State) (wanted : Flight → Bool) : State :=
  landWanted s true wanted fun a f => acknowledge (performReported a f) f

/-- Publication: the held writes perform at their homes in order, the dirty sectors stay valid and clean, the entries
complete (R361 step 3). -/
def publish (s : State) (team : Nat) : State :=
  match s.team team with
  | none => s
  | some t =>
    let held := heldFlights s team
    let s1 := { s with flights := s.flights.filter fun f => f.held != team }
    let s2 := held.foldl performReported s1
    let mine := ((s2.core t.core).l1.filter fun x => x.dirty == team).map (·.sector)
    let s3 := ignoreAcks s2 t.core mine
    -- of a sector that is published no older clean copy stays (R254)
    let l1 := ((s3.core t.core).l1.filter fun x => !(x.dirty == 0 && mine.contains x.sector)).map fun x =>
      if x.dirty == team then { homeSector s3 x.sector with way := x.way } else x
    commitEntries (s3.setL1 t.core l1) team

/-- What needs a checkpoint of the own team waits for it; inside it the interval before is published and the work goes on
(R361 step 4). -/
def Work.publish (w : Work) (core slot : Nat) (ctx : Ctx) : Except Stop Work :=
  if ctx.inside w.s then
    let s1 := Sys2Proof.Machine.publish (w.s.setGroup core slot w.g) ctx.teamId
    .ok { w with s := s1, g := (s1.group? core slot).getD w.g }
  else .error (.stall (some ctx.teamId))

/-- Whether a fault is a consumed error or a protected-mode mismatch (R229, R365, R367). -/
def consumed (code : Nat) : Bool := code == cCheck || code == cMachine || code == cProtected

/-- The record of a failure of a group (R321). -/
def failRecord (s : State) (core slot : Nat) (g : Group) (f : FaultInfo) (ending orig : Nat) : FailRecord :=
  { gid := gidImage core slot g.idn, trpc := f.pc, taddr := f.addr, telem := f.elem, code := f.code, src := f.src,
    plev := g.sca.level.code, orig := orig, ending := ending, stamp := s.refTicks }

/-- A rollback of a team asked for; the first failure stands (R363). -/
def askRoll (s : State) (team : Nat) (r : FailRecord) : State :=
  match s.team team with
  | some t => s.setTeam team (some { t with roll := some (t.roll.getD r) })
  | none => s

/-- A fault of a group recorded: in a resilient team a consumed error asks for a rollback and is not delivered
(R351). -/
def recordFault (s : State) (core slot : Nat) (g : Group) (f : FaultInfo) : State :=
  match s.team g.idn.team with
  | some t =>
    if consumed f.code && t.resilient.isSome && g.idn.team != 0 then
      (askRoll s g.idn.team (failRecord s core slot g f 4 0)).setGroup core slot (g.setStatus .stopped)
    else s.setGroup core slot (g.raise f)
  | none => s.setGroup core slot (g.raise f)

/-- A fault of the instruction at a group's pc, found while its device state is `s` (R125, R351). -/
def scalarFault (s : State) (core slot : Nat) (g : Group) (code : Nat) (addr : Word) : State :=
  recordFault s core slot { g with sca := { g.sca with openWords := [] } }
    { serial := g.sca.serial, code := code, src := 0, pc := g.sca.pc, addr := addr, elem := 0 }

end Sys2Proof.Machine
end

