-- ==== Sys2Proof/Machine/Push.lean ====
section
/-! DEFINITION. Pushing into the dispatch queues: convoys and their classes (R23, R24), captures (R16, R268), entries and
counts (R17, R75, R248), stalls and double traps (R19, R30). -/

namespace Sys2Proof.Machine

/-! ## Failing a group's task (R321, R352, R369) -/

/-- A record's core number and slot as one number, by its gid image (R73). -/
def FailRecord.place (r : FailRecord) : Nat := r.gid.toNat / 2 ^ 28 % 2 ^ 9 * 16 + r.gid.toNat / 2 ^ 37 % 16

/-- Of two events in one reference tick, the one of the lower core number, then of the lower slot, comes first (R321). -/
def FailRecord.before (a b : FailRecord) : Bool := a.stamp == b.stamp && decide (a.place < b.place)

/-- The record of a failure, in the state a kill finds it (R321): the first event stands, later ones are counted. -/
def recordFailure (s : State) (t : Nat) (r : FailRecord) (kill : Nat) : State :=
  match s.task t with
  | none => s
  | some k =>
    let k1 := match k.fail with
      | none => { k with fail := some r }
      | some f => { k with fail := some (if r.before f then r else f), more := k.more + 1 }
    s.setTask t (some { k1 with kill := some (k1.kill.getD kill) })

/-- Whether failures of a task are still received: its first one came in this reference tick, and the kill has not been made
(R321). -/
def receiving (s : State) (task : Nat) : Bool :=
  (s.task task).any fun k => k.kill == some 3 && k.fail.any fun r => r.stamp == s.refTicks

/-- A group's failure event: its task is to be killed, and the group runs no more (R351, R352). -/
def failGroup (s : State) (core slot : Nat) (g : Group) (code src elem : Nat) (pc addr : Word) (ending orig : Nat) :
    State :=
  let s1 := s.setGroup core slot
    { g.setStatus .stopped with trp := { g.trp with pending := [] }, sca := { g.sca with status := .stopped, openWords := [] } }
  match s.team g.idn.team with
  | some t =>
    recordFailure s1 t.task
      (failRecord s core slot g { serial := 0, code := code, src := src, pc := pc, addr := addr, elem := elem } ending orig) 3
  | none => s1

/-- A core after its reset: storage zero, TLB and caches invalid, cyc 0, its own registers and its test block at their reset values;
each slot keeps its epoch and bitmaps (R66, R80, R202, R414). -/
def Core.afterReset (co : Core) (now : Nat) : Core :=
  let slots := (co.slots.map fun e => (e.1, { e.2 with group := none, activity := [] })).filter (·.2 != .empty)
  { Core.empty with slots := slots, resetAt := now }

/-- A firmware core's fault while its handler is active resets it (R352). -/
def resetFirmware (s : State) (core : Nat) : State := s.setCore core { (s.core core).afterReset s.now with down := true }

/-- A double trap of a group: its task is killed with END 2 (R77, R352); a firmware core is reset. -/
def doubleTrap (s : State) (g : Group) (code : Nat) (addr : Word) : State :=
  if isFirmware s.curCore then resetFirmware s s.curCore
  else failGroup s s.curCore s.curSlot g code 0 0 g.sca.pc addr 2 0

/-! ## Convoys (R23, R24) -/

/-- The convoy class of a vector-queue instruction. -/
inductive UnitClass where
  | load | store | xElem | xWhole | arith
  deriving DecidableEq, Repr

/-- What pushing a member needs to know: its class and chain bit, the x registers captured, in order, the x register it
will write (0 for none), whether it takes a store-sequence entry, may notify, is counted in ac, where its witness goes,
and which register gives its witness in. -/
structure PushInfo where
  cls : UnitClass
  chain : Bool
  regs : List Nat
  xdest : Nat := 0
  store : Bool := false
  notify : Bool := false
  ac : Bool := false
  wout : Nat := 0
  wit : Nat := 0
  /-- The stream port that it reads (R40). -/
  port : Option Nat := none

/-- Register of operand b in form 01. -/
def regB (f : BitVec 2) (b : BitVec 6) : List Nat := if f == 1 then [b.toNat % 32] else []

/-- Stream port of operand b in form 11. -/
def portOperand (f : BitVec 2) (b : BitVec 6) : Option Nat := if f == 3 then some (b.toNat % 8) else none

/-- An arithmetic member. -/
def arithInfo (f : BitVec 2) (b : BitVec 6) (c : BitVec 1) : PushInfo :=
  { cls := .arith, chain := c == 1, regs := regB f b, port := portOperand f b }

/-- What each vector-queue instruction needs at push; none for any other instruction. -/
def pushInfo : Instr → Option PushInfo
  | .vadd f _ _ b _ c | .vsub f _ _ b _ c | .vrsub f _ _ b _ c | .vmul f _ _ b _ c | .vmulh f _ _ b _ c => some (arithInfo f b c)
  | .vdiv f _ _ b _ c | .vrem f _ _ b _ c | .vmin f _ _ b _ c | .vmax f _ _ b _ c => some (arithInfo f b c)
  | .vfma f _ _ b _ c | .vfms f _ _ b _ c | .vfnma f _ _ b _ c => some (arithInfo f b c)
  | .vand f _ _ b _ c | .vor f _ _ b _ c | .vxor f _ _ b _ c => some (arithInfo f b c)
  | .vshl f _ _ b _ c | .vshr f _ _ b _ c | .vsar f _ _ b _ c => some (arithInfo f b c)
  | .vadc f _ _ b _ c | .vsbc f _ _ b _ c => some (arithInfo f b c)
  | .vcmpeq f _ _ b _ c | .vcmpne f _ _ b _ c | .vcmplt f _ _ b _ c | .vcmple f _ _ b _ c => some (arithInfo f b c)
  | .vcmpgt f _ _ b _ c | .vcmpge f _ _ b _ c | .vcmpun f _ _ b _ c => some (arithInfo f b c)
  | .vmerge f _ _ b _ c => some (arithInfo f b c)
  | .vabs _ _ _ c | .vneg _ _ _ c | .vnot _ _ _ c | .vsqrt _ _ _ c | .vrsqe _ _ _ c | .vrcpe _ _ _ c => some (arithInfo 0 0 c)
  | .vexp2 _ _ _ c | .vlog2 _ _ _ c | .vsigm _ _ _ c | .vclz _ _ _ c | .vpopc _ _ _ c => some (arithInfo 0 0 c)
  | .vcvt _ _ _ c => some (arithInfo 0 0 c)
  | .vmv f _ b _ c => some (arithInfo f b c)
  | .vid _ _ c => some (arithInfo 0 0 c)
  | .vslup f _ _ b _ c => some { cls := .xElem, chain := c == 1, regs := regB f b }
  | .vsldn f _ _ b _ c => some { cls := .xWhole, chain := c == 1, regs := regB f b }
  | .vsl1up f _ _ b _ c => some { cls := .xElem, chain := c == 1, regs := regB f b }
  | .vsl1dn f _ _ b _ c => some { cls := .xWhole, chain := c == 1, regs := regB f b }
  | .vperm _ _ _ _ c => some { cls := .xWhole, chain := c == 1, regs := [] }
  | .vcomp _ _ _ c => some { cls := .xElem, chain := c == 1, regs := [] }
  | .viota _ _ c => some { cls := .xElem, chain := c == 1, regs := [] }
  | .vdot4 f _ _ b _ c | .vdot8 f _ _ b _ c => some (arithInfo f b c)
  | .vredsum f _ _ b _ c | .vredmax f _ _ b _ c | .vredmin f _ _ b _ c =>
    some { cls := .xWhole, chain := c == 1, regs := regB f b }
  | .vredand f _ _ b _ c | .vredor f _ _ b _ c | .vredxor f _ _ b _ c =>
    some { cls := .xWhole, chain := c == 1, regs := regB f b }
  | .vtopm f _ _ b _ c => some { cls := .xWhole, chain := c == 1, regs := regB f b }
  | .vext f d _ b c => some { cls := .xWhole, chain := c == 1, regs := regB f b, xdest := d.toNat }
  | .vins f _ a b c => some { cls := .xWhole, chain := c == 1, regs := a.toNat :: regB f b }
  | .mand _ _ _ c | .mor _ _ _ c | .mxor _ _ _ c | .mandn _ _ _ c | .morn _ _ _ c => some (arithInfo 0 0 c)
  | .mnot _ _ c | .mmov _ _ c | .mshl1 _ _ c | .mshr1 _ _ c => some (arithInfo 0 0 c)
  | .mset _ c | .mclr _ c => some (arithInfo 0 0 c)
  | .mfromx _ b c => some { cls := .arith, chain := c == 1, regs := [b.toNat] }
  | .vmpop d _ _ c | .vmfirst d _ _ c | .vmlast d _ _ c =>
    some { cls := .xWhole, chain := c == 1, regs := [], xdest := d.toNat }
  | .vpickMax d _ _ c | .vpickMin d _ _ c => some { cls := .xWhole, chain := c == 1, regs := [], xdest := d.toNat }
  | .vpushq _ _ _ c => some { cls := .xElem, chain := c == 1, regs := [] }
  | .vld _ b w _ _ c => some { cls := .load, chain := c == 1, regs := [b.toNat, w.toNat], wit := w.toNat }
  | .vlds _ b w _ _ c => some { cls := .load, chain := c == 1, regs := [b.toNat, b.toNat + 1, w.toNat], wit := w.toNat }
  | .vldx _ b _ w _ c => some { cls := .load, chain := c == 1, regs := [b.toNat, w.toNat], wit := w.toNat }
  | .vldseg _ b w _ _ c => some { cls := .load, chain := c == 1, regs := [b.toNat, w.toNat], wit := w.toNat }
  | .vst _ b w n _ _ c =>
    some { cls := .store, chain := c == 1, regs := [b.toNat], store := true, notify := n == 1, wout := w.toNat }
  | .vsts _ b w n _ _ c =>
    some { cls := .store, chain := c == 1, regs := [b.toNat, b.toNat + 1], store := true, notify := n == 1, wout := w.toNat }
  | .vstx _ b _ w _ c => some { cls := .store, chain := c == 1, regs := [b.toNat], store := true, wout := w.toNat }
  | .vstseg _ b w _ _ c => some { cls := .store, chain := c == 1, regs := [b.toNat], store := true, wout := w.toNat }
  | .vamoAdd _ b _ _ c | .vamoAnd _ b _ _ c | .vamoOr _ b _ _ c | .vamoXor _ b _ _ c =>
    some { cls := .store, chain := c == 1, regs := [b.toNat], store := true, ac := true }
  | .vamoMin _ b _ _ c | .vamoMax _ b _ _ c | .vamoSwap _ b _ _ c =>
    some { cls := .store, chain := c == 1, regs := [b.toNat], store := true, ac := true }
  | .vredmSum _ b _ _ c | .vredmMax _ b _ _ c | .vredmMin _ b _ _ c =>
    some { cls := .store, chain := c == 1, regs := [b.toNat], store := true, ac := true }
  | .vredmAnd _ b _ _ c | .vredmOr _ b _ _ c | .vredmXor _ b _ _ c =>
    some { cls := .store, chain := c == 1, regs := [b.toNat], store := true, ac := true }
  | .vspill b _ _ => some { cls := .store, chain := false, regs := [b.toNat], store := true }
  | .vfill b _ _ => some { cls := .load, chain := false, regs := [b.toNat] }
  | _ => none

/-- Members of a class in a convoy. -/
def classCount (p : UnitClass → Bool) (is : List PushInfo) : Nat := (is.filter fun i => p i.cls).length

/-- The composition rules of R24 on the words of a convoy so far. -/
def convoyOk (is : List PushInfo) : Bool :=
  decide (classCount (· == .load) is ≤ 1) && decide (classCount (· == .store) is ≤ 1)
    && decide (classCount (fun c => c == .xElem || c == .xWhole) is ≤ 1) && decide (classCount (· == .arith) is ≤ 2)
    && is.all (fun i => i.cls != .xWhole || !i.chain) && decide (is.length ≤ 4)
    && !(decide (is.length = 4) && is.getLast?.any (·.chain))

/-- The next serial number, given back with the group. -/
def Group.takeSerial (g : Group) : Group × Nat := (g.nextSerial, g.sca.serial)

/-- What a push has gathered so far: the group, the captures, the entry number, the notify entry, the witnesses. -/
structure Gather where
  g : Group
  caps : List (List Word)
  seq : Nat
  notify : Bool
  wits : List Word

/-- One member's part of a push, in program order (R16, R17, R173, R248, R255). -/
def gatherMember (s : State) (serial : Nat) (a : Gather) (i : PushInfo) : Gather :=
  let caps := i.regs.map a.g.x
  let wit := if i.wit == 0 then 0 else a.g.x i.wit
  let floor := if witKind wit == 0 then a.g.ord.floor
    else (a.g.ord.floor.filter fun w => resolve s w = .pending) ++ [wit]
  let g1 := { a.g with ord := { a.g.ord with floor := floor } }
  let g2 := if i.xdest == 0 then g1 else g1.setTag i.xdest serial
  let wits := if witKind wit == 0 then a.wits else a.wits ++ [wit]
  if i.store then
    let r := g2.takeEntry (.plain false)
    let g3 := r.1.setX i.wout (s.witness s.curCore s.curSlot r.2)
    let pw := a.g.ord.pw
    let two := i.notify && (pw.extractLsb' 3 45 != 0)
    let g4 := if two then (g3.takeEntry (.notify pw a.g.vec.vl)).1 else g3
    let g5 := if i.ac then g4.countUp 2 serial else g4
    { g := g5, caps := a.caps ++ [caps], seq := r.2, notify := two, wits := wits }
  else { a with g := g2, caps := a.caps ++ [caps], wits := wits }

/-- Store-sequence entries that a convoy takes. -/
def entriesOf (g : Group) (is : List PushInfo) : Nat :=
  (is.map fun i => if i.store then (if i.notify && g.ord.pw.extractLsb' 3 45 != 0 then 2 else 1) else 0).foldl (· + ·) 0

/-- Decoding of one word of a convoy, and the push at its last word (R24, R54). -/
def pushMember (s : State) (i : Instr) : Out :=
  withGroup s fun g =>
    match pushInfo i with
    | none => .next (s.put (g.raiseConvoy cUndefined (BitVec.ofNat 64 ((encode i).getD 0))))
    | some info =>
      let first := g.sca.openWords.isEmpty
      let words := g.sca.openWords ++ [i]
      let infos := words.filterMap pushInfo
      if !convoyOk infos then .next (s.put (g.raiseConvoy cConvoy 0))
      else if info.chain then
        finish s { g with sca := { g.sca with openWords := words, openPc := if first then g.sca.pc else g.sca.openPc } }
      else if g.trp.frozen then .next (doubleTrap s g 0 0)
      else if (infos.flatMap (·.regs)).any g.tagged then waitHere s g (.drain (.regs (infos.flatMap (·.regs))))
      else if g.seqFull (entriesOf g infos) then .next (s.put (g.raiseConvoy cSequence 0))
      else if 32 ≤ g.que.vq.length then waitHere s g (.push (.queue .vector))
      else if infos.any (·.ac) && 65535 ≤ g.count 2 then waitHere s g (.push (.counter 2))
      else
        let r := g.takeSerial
        let a := infos.foldl (gatherMember s r.2) { g := r.1, caps := [], seq := 0, notify := false, wits := [] }
        let e : VEntry :=
          { serial := r.2, pc := if first then g.sca.pc else g.sca.openPc, members := words, caps := a.caps,
            vl := g.vec.vl, vt := g.vec.vt, sc := g.vec.sc, vlmax := g.vec.vlmax, pw := g.ord.pw, gate := g.ord.gate,
            det := g.deterministic, seq := a.seq, notify := a.notify, wits := a.wits, begun := false,
            prog := .fresh, done := none }
        finish s { a.g with que := { a.g.que with vq := a.g.que.vq ++ [e] }, sca := { a.g.sca with openWords := [] },
                             -- DEDUCED (log 13): a convoy that enters an empty queue has its own resume element, 0.
                             vec := { a.g.vec with vst := if g.que.vq.isEmpty then 0 else a.g.vec.vst } }

/-- A push of a matrix or copy word: double trap while frozen, drain to tagged registers, room in the queue and the
counter; then what is done with the group and the new serial (R16, R18, R19, R30, R331). -/
def pushOne (s : State) (regs : List Nat) (room : Group → Option Room) (entries : Group → Nat)
    (f : Group → Nat → Group) : Out :=
  withBoundary s fun g =>
    if g.trp.frozen then .next (doubleTrap s g 0 0)
    else if regs.any g.tagged then waitHere s g (.drain (.regs regs))
    else if g.seqFull (entries g) then trapHere s g cSequence 0
    else
      match room g with
      | some r => waitHere s g (.push r)
      | none =>
        let r := g.takeSerial
        finish s (f r.1 r.2)

end Sys2Proof.Machine
end

