-- ==== Sys2Proof/Machine/VectorArith.lean ====
section
/-! DEFINITION. What the vector unit does for the members of majors 0x28 to 0x47 (R149 to R165). -/

namespace Sys2Proof.Machine

/-- Slices that operand b reads. -/
def srcB (m : MemberEnv) (f : BitVec 2) (b : BitVec 6) : List (Nat × Nat) := if f == 0 then [m.src b.toNat] else []

/-- Port that operand b reads. -/
def portB (f : BitVec 2) (b : BitVec 6) : List Nat := if f == 3 then [b.toNat % 8] else []

/-- One element under operand b: a port gives its value first, whether the element is active or not (R150). DEDUCED (log
39): the flags of decoding a value that a masked-off element takes are not folded, for that element is not performed
(R151). -/
def frameB (m : MemberEnv) (w : Work) (e : Nat) (f : BitVec 2) (b : BitVec 6) (act : Bool)
    (body : Opd → FlagSet → Work → Except Stop Work) : Except Stop Work :=
  if f == 3 then do
    let r ← operandB m w e f b
    if act then body r.1 r.2.1 r.2.2 else .ok r.2.2
  else if act then do
    let r ← operandB m w e f b
    body r.1 r.2.1 r.2.2
  else .ok w

/-- A member without a check of its own before element 0; it takes one value of each of its ports for each element. -/
def plainMember (k : Nat) (typed : Bool) (sr sw : List (Nat × Nat)) (mr mw ports : List Nat) (act : Action) : Member :=
  { k := k, typed := typed, sr := sr, sw := sw, mr := mr, mw := mw, ports := ports, pre := fun w => .ok w, act := act,
    flush := id, takes := ports.length }

/-- Masks that an execution mask reads. -/
def maskK (k : Nat) : List Nat := if k == 0 then [] else [k - 1]

/-- The element frame (R151): operands A, B and, when `useD` is true, the addend's bits; the result delivered. -/
def arithMember (m : MemberEnv) (typed useD : Bool) (f : BitVec 2) (d a b : BitVec 6) (k : BitVec 4)
    (op : Opd → Opd → Nat → Nat × FlagSet) : Member :=
  let step (w : Work) (e : Nat) : Except Stop Work :=
    frameB m w e f b (w.active k.toNat e) fun bo fl w => do
      let ab ← w.read e (m.src a.toNat)
      let db ← if useD then w.read e (m.dst d.toNat) else .ok 0
      let r := op (m.opd ab) bo db
      let w1 ← w.flag (fl ||| r.2)
      .ok (w1.write e (m.dst d.toNat) r.1)
  plainMember k.toNat typed ([m.src a.toNat] ++ srcB m f b ++ (if useD then [m.dst d.toNat] else [])) [m.dst d.toNat]
    (maskK k.toNat) [] (portB f b) (.elements step id)

/-! ## Class combinations (R152) -/

def MemberEnv.intInt (m : MemberEnv) : Bool := !m.srcFloat && !m.dstFloat
def MemberEnv.floatFloat (m : MemberEnv) : Bool := m.srcFloat && m.dstFloat
def MemberEnv.likeLike (m : MemberEnv) : Bool := m.intInt || m.floatFloat

/-- Float classes other than f64 on both sides (R152). -/
def MemberEnv.smallFloats (m : MemberEnv) : Bool := m.floatFloat && m.ews != 16 && m.ewd != 16

/-- A value delivered to the destination with the operation's own flags. -/
def MemberEnv.out (m : MemberEnv) (r : Val × FlagSet) : Nat × FlagSet :=
  let d := narrow m.env m.dcls m.ewd r.1
  (d.1, r.2 ||| d.2)

/-- An operation with an integer and a float side, delivered by narrow. -/
def MemberEnv.both (m : MemberEnv) (fi : Int → Int → Int) (ff : Val → Val → Val × FlagSet) (a b : Opd) : Nat × FlagSet :=
  if m.srcFloat then m.out (ff a.v b.v) else m.out (.ofInt (fi a.v.toInt b.v.toInt), 0)

/-- The w-bit pattern of an exact integer (R157). -/
def MemberEnv.pat (m : MemberEnv) (v : Val) : Nat := wrapTo (4 * m.ewd) v.toInt

/-! ## Two-source arithmetic (R153 to R155) -/

def unitVadd (m : MemberEnv) (f : BitVec 2) (d a b : BitVec 6) (k : BitVec 4) : Member :=
  arithMember m m.likeLike false f d a b k fun a b _ => m.both (· + ·) (addVal m.env) a b

def unitVsub (m : MemberEnv) (f : BitVec 2) (d a b : BitVec 6) (k : BitVec 4) : Member :=
  arithMember m m.likeLike false f d a b k fun a b _ => m.both (· - ·) (subVal m.env) a b

/-- B - A, with A's NaN taken first (R153). -/
def reverseSub (env : RoundEnv) (a b : Val) : Val × FlagSet :=
  if a.isNaN || b.isNaN then addVal env a b else exactSum env [b, a.neg]

def unitVrsub (m : MemberEnv) (f : BitVec 2) (d a b : BitVec 6) (k : BitVec 4) : Member :=
  arithMember m m.likeLike false f d a b k fun a b _ => m.both (fun x y => y - x) (reverseSub m.env) a b

def unitVmul (m : MemberEnv) (f : BitVec 2) (d a b : BitVec 6) (k : BitVec 4) : Member :=
  arithMember m m.likeLike false f d a b k fun a b _ => m.both (· * ·) mulVal a b

def unitVmulh (m : MemberEnv) (f : BitVec 2) (d a b : BitVec 6) (k : BitVec 4) : Member :=
  arithMember m m.intInt false f d a b k fun a b _ =>
    m.out (.ofInt (a.v.toInt * b.v.toInt / (2 : Int) ^ (4 * m.ewd)), 0)

/-- Integer division of R154. -/
def MemberEnv.intDiv (m : MemberEnv) (a b : Int) : Nat × FlagSet :=
  if b == 0 then (2 ^ (4 * m.ewd) - 1, 0) else m.out (.ofInt (a.tdiv b), 0)

def unitVdiv (m : MemberEnv) (f : BitVec 2) (d a b : BitVec 6) (k : BitVec 4) : Member :=
  arithMember m m.likeLike false f d a b k fun a b _ =>
    if m.srcFloat then m.out (divVal a.v b.v) else m.intDiv a.v.toInt b.v.toInt

def unitVrem (m : MemberEnv) (f : BitVec 2) (d a b : BitVec 6) (k : BitVec 4) : Member :=
  arithMember m m.intInt false f d a b k fun a b _ =>
    m.out (.ofInt (if b.v.toInt == 0 then a.v.toInt else a.v.toInt.tmod b.v.toInt), 0)

def unitVmin (m : MemberEnv) (f : BitVec 2) (d a b : BitVec 6) (k : BitVec 4) : Member :=
  arithMember m m.likeLike false f d a b k fun a b _ => m.both (fun x y => min x y) (minMaxVal false) a b

def unitVmax (m : MemberEnv) (f : BitVec 2) (d a b : BitVec 6) (k : BitVec 4) : Member :=
  arithMember m m.likeLike false f d a b k fun a b _ => m.both (fun x y => max x y) (minMaxVal true) a b

/-! ## Fused multiply-add (R156) -/

/-- ±(A × B) ± D. -/
def MemberEnv.fused (m : MemberEnv) (negP negD : Bool) (a b : Opd) (db : Nat) : Nat × FlagSet :=
  let dv := extend m.env m.dcls m.ewd db
  if m.srcFloat then m.out (fmaVal m.env negP negD a.v b.v dv)
  else
    let p := a.v.toInt * b.v.toInt
    m.out (.ofInt ((if negP then -p else p) + (if negD then -dv.toInt else dv.toInt)), 0)

def unitVfma (m : MemberEnv) (f : BitVec 2) (d a b : BitVec 6) (k : BitVec 4) : Member :=
  arithMember m m.likeLike true f d a b k (m.fused false false)

def unitVfms (m : MemberEnv) (f : BitVec 2) (d a b : BitVec 6) (k : BitVec 4) : Member :=
  arithMember m m.likeLike true f d a b k (m.fused false true)

def unitVfnma (m : MemberEnv) (f : BitVec 2) (d a b : BitVec 6) (k : BitVec 4) : Member :=
  arithMember m m.likeLike true f d a b k (m.fused true false)

/-! ## Bitwise operations and shifts (R157) -/

/-- An operation on the two patterns. -/
def MemberEnv.onPats (m : MemberEnv) (fn : Nat → Nat → Nat) (a b : Opd) : Nat × FlagSet := (fn (m.pat a.v) (m.pat b.v), 0)

/-- A shift of A's pattern by B's exact value; `out` is the result for an amount outside 0 to w - 1. -/
def MemberEnv.shift (m : MemberEnv) (fn : Nat → Nat → Nat) (out : Nat → Nat) (a b : Opd) : Nat × FlagSet :=
  let s := b.v.toInt
  let p := m.pat a.v
  (if 0 ≤ s ∧ s < ((4 * m.ewd : Nat) : Int) then fn p s.toNat else out p, 0)

/-- Arithmetic right shift of a w-bit pattern. -/
def sarPat (w p s : Nat) : Nat := wrapTo w (signedOf w p / (2 : Int) ^ s)

def unitVand (m : MemberEnv) (f : BitVec 2) (d a b : BitVec 6) (k : BitVec 4) : Member :=
  arithMember m m.intInt false f d a b k fun a b _ => m.onPats (· &&& ·) a b

def unitVor (m : MemberEnv) (f : BitVec 2) (d a b : BitVec 6) (k : BitVec 4) : Member :=
  arithMember m m.intInt false f d a b k fun a b _ => m.onPats (· ||| ·) a b

def unitVxor (m : MemberEnv) (f : BitVec 2) (d a b : BitVec 6) (k : BitVec 4) : Member :=
  arithMember m m.intInt false f d a b k fun a b _ => m.onPats (· ^^^ ·) a b

def unitVshl (m : MemberEnv) (f : BitVec 2) (d a b : BitVec 6) (k : BitVec 4) : Member :=
  arithMember m m.intInt false f d a b k fun a b _ =>
    m.shift (fun p s => p * 2 ^ s % 2 ^ (4 * m.ewd)) (fun _ => 0) a b

def unitVshr (m : MemberEnv) (f : BitVec 2) (d a b : BitVec 6) (k : BitVec 4) : Member :=
  arithMember m m.intInt false f d a b k fun a b _ => m.shift (fun p s => p / 2 ^ s) (fun _ => 0) a b

def unitVsar (m : MemberEnv) (f : BitVec 2) (d a b : BitVec 6) (k : BitVec 4) : Member :=
  arithMember m m.intInt false f d a b k fun a b _ =>
    m.shift (fun p s => sarPat (4 * m.ewd) p s) (fun p => sarPat (4 * m.ewd) p (4 * m.ewd)) a b

/-! ## Carries (R158) -/

/-- VADC and VSBC: the result and the carry out of two patterns and a carry in. -/
def carryMember (m : MemberEnv) (f : BitVec 2) (d a b : BitVec 6) (k : BitVec 4)
    (op : Nat → Nat → Nat → Nat × Bool) : Member :=
  let mk := k.toNat - 1
  let step (w : Work) (e : Nat) : Except Stop Work :=
    frameB m w e f b true fun bo fl w => do
      let ab ← w.read e (m.src a.toNat)
      let r := op (m.pat (m.opd ab).v) (m.pat bo.v) (if w.bit mk e then 1 else 0)
      let w1 ← w.flag fl
      .ok ((w1.write e (m.dst d.toNat) r.1).setBit mk e r.2)
  plainMember 0 (m.intInt && m.sameType) ([m.src a.toNat] ++ srcB m f b) [m.dst d.toNat] [mk] [mk] (portB f b)
    (.elements step fun w => w.cutMask mk m.e.vl)

def unitVadc (m : MemberEnv) (f : BitVec 2) (d a b : BitVec 6) (k : BitVec 4) : Member :=
  carryMember m f d a b k fun p q c =>
    let s := p + q + c
    (s % 2 ^ (4 * m.ewd), decide (2 ^ (4 * m.ewd) ≤ s))

def unitVsbc (m : MemberEnv) (f : BitVec 2) (d a b : BitVec 6) (k : BitVec 4) : Member :=
  carryMember m f d a b k fun p q c =>
    ((p + 2 ^ (4 * m.ewd) - (q + c)) % 2 ^ (4 * m.ewd), decide (p < q + c))

/-! ## Compares (R159) -/

/-- A compare that writes mask d. -/
def compareMember (m : MemberEnv) (typed : Bool) (r : Rel) (f : BitVec 2) (d a b : BitVec 6) (k : BitVec 4) : Member :=
  let step (w : Work) (e : Nat) : Except Stop Work :=
    frameB m w e f b (w.active k.toNat e) fun bo fl w => do
      let ab ← w.read e (m.src a.toNat)
      let c := relVal r (m.opd ab).v bo.v
      let w1 ← w.flag (fl ||| c.2)
      .ok (w1.setBit d.toNat e c.1)
  plainMember k.toNat typed ([m.src a.toNat] ++ srcB m f b) [] (maskK k.toNat ++ [d.toNat]) [d.toNat] (portB f b)
    (.elements step fun w => w.cutMask d.toNat m.e.vl)

def unitVcmpeq (m : MemberEnv) (f : BitVec 2) (d a b : BitVec 6) (k : BitVec 4) : Member :=
  compareMember m true .eq f d a b k
def unitVcmpne (m : MemberEnv) (f : BitVec 2) (d a b : BitVec 6) (k : BitVec 4) : Member :=
  compareMember m true .ne f d a b k
def unitVcmplt (m : MemberEnv) (f : BitVec 2) (d a b : BitVec 6) (k : BitVec 4) : Member :=
  compareMember m true .lt f d a b k
def unitVcmple (m : MemberEnv) (f : BitVec 2) (d a b : BitVec 6) (k : BitVec 4) : Member :=
  compareMember m true .le f d a b k
def unitVcmpgt (m : MemberEnv) (f : BitVec 2) (d a b : BitVec 6) (k : BitVec 4) : Member :=
  compareMember m true .gt f d a b k
def unitVcmpge (m : MemberEnv) (f : BitVec 2) (d a b : BitVec 6) (k : BitVec 4) : Member :=
  compareMember m true .ge f d a b k
def unitVcmpun (m : MemberEnv) (f : BitVec 2) (d a b : BitVec 6) (k : BitVec 4) : Member :=
  compareMember m m.srcFloat .un f d a b k

/-! ## Merge, move and index (R160, R161) -/

/-- An operand written: where the types agree its stored bits, or an immediate narrowed; else delivered as VCVT delivers it
(R160, R164, R165). -/
def MemberEnv.placed (m : MemberEnv) (o : Opd) : Nat × FlagSet :=
  if m.sameType then (if o.imm then narrow m.env m.dcls m.ewd o.v else (o.bits, 0))
  else convertVal m.env m.srcFloat m.dcls m.ewd o.v

/-- VMERGE (R160). DEDUCED (log 39): where the selector takes A, the flags of decoding B's port value are not folded. -/
def unitVmerge (m : MemberEnv) (f : BitVec 2) (d a b : BitVec 6) (k : BitVec 4) : Member :=
  let mk := k.toNat - 1
  let step (w : Work) (e : Nat) : Except Stop Work :=
    frameB m w e f b true fun bo fl w => do
      let r ← if w.bit mk e then .ok ((m.placed bo).1, (m.placed bo).2 ||| fl)
        else do
          let ab ← w.read e (m.src a.toNat)
          .ok (m.placed (m.opd ab))
      let w1 ← w.flag r.2
      .ok (w1.write e (m.dst d.toNat) r.1)
  plainMember 0 true ([m.src a.toNat] ++ srcB m f b) [m.dst d.toNat] [mk] [] (portB f b) (.elements step id)

def unitVmv (m : MemberEnv) (f : BitVec 2) (d b : BitVec 6) (k : BitVec 4) : Member :=
  let step (w : Work) (e : Nat) : Except Stop Work :=
    frameB m w e f b (w.active k.toNat e) fun bo fl w => do
      let r := m.placed bo
      let w1 ← w.flag (fl ||| r.2)
      .ok (w1.write e (m.dst d.toNat) r.1)
  plainMember k.toNat true (srcB m f b) [m.dst d.toNat] (maskK k.toNat) [] (portB f b) (.elements step id)

def unitVid (m : MemberEnv) (d : BitVec 6) (k : BitVec 4) : Member :=
  let step (w : Work) (e : Nat) : Except Stop Work :=
    if w.active k.toNat e then do
      let r := narrow m.env m.dcls m.ewd (.ofInt e)
      let w1 ← w.flag r.2
      .ok (w1.write e (m.dst d.toNat) r.1)
    else .ok w
  plainMember k.toNat true [] [m.dst d.toNat] (maskK k.toNat) [] [] (.elements step id)

/-! ## Unary functions (R162, R163) -/

/-- A member with one source. -/
def unaryMember (m : MemberEnv) (typed : Bool) (d a : BitVec 6) (k : BitVec 4) (op : Opd → Nat × FlagSet) : Member :=
  arithMember m typed false 2 d a 0 k fun a _ _ => op a

/-- A sign operation: on the bits where the formats agree, else on the exact value, rounded once. -/
def MemberEnv.signOp (m : MemberEnv) (fi : Int → Int) (fb : Nat → Nat) (fv : Val → Val) (a : Opd) : Nat × FlagSet :=
  if m.srcFloat then
    if m.sameType then (fb a.bits, 0) else narrow m.env m.dcls m.ewd (fv a.v)
  else m.out (.ofInt (fi a.v.toInt), 0)

/-- |v|, a NaN's sign cleared too. -/
def Val.absolute : Val → Val
  | .num _ m e s => .num false m e s
  | .inf _ => .inf false
  | .nan _ f => .nan false f

/-- -v, a NaN's sign inverted too. -/
def Val.negated : Val → Val
  | .num n m e s => .num (!n) m e s
  | .inf n => .inf (!n)
  | .nan n f => .nan (!n) f

def unitVabs (m : MemberEnv) (d a : BitVec 6) (k : BitVec 4) : Member :=
  unaryMember m m.likeLike d a k
    (m.signOp (fun x => (x.natAbs : Int)) (fun b => b % 2 ^ (4 * m.ews - 1)) Val.absolute)

def unitVneg (m : MemberEnv) (d a : BitVec 6) (k : BitVec 4) : Member :=
  unaryMember m m.likeLike d a k (m.signOp (fun x => -x) (fun b => b ^^^ 2 ^ (4 * m.ews - 1)) Val.negated)

def unitVnot (m : MemberEnv) (d a : BitVec 6) (k : BitVec 4) : Member :=
  unaryMember m m.intInt d a k fun a => (2 ^ (4 * m.ewd) - 1 - m.pat a.v, 0)

def unitVsqrt (m : MemberEnv) (d a : BitVec 6) (k : BitVec 4) : Member :=
  unaryMember m m.floatFloat d a k fun a => m.out (sqrtVal a.v)

/-- A magnitude truncated to 8 significant bits. -/
def trunc8 (man : Nat) (exp : Int) : Nat × Int :=
  let n := Nat.log2 man + 1
  if n ≤ 8 then (man, exp) else (man / 2 ^ (n - 8), exp + ((n - 8 : Nat) : Int))

/-- VRCPE of a value (R163). -/
def rcpeVal (a : Val) : Val × FlagSet :=
  match a with
  | .nan _ _ => (a.quieted, signalNV [a])
  | .inf n => (.zero n, 0)
  | .num n man exp _ =>
    if man == 0 then (.inf n, flagDZ)
    else
      let t := trunc8 man exp
      let y := trunc8 (2 ^ 64 / t.1) (-64 - t.2)
      (.num n y.1 y.2 false, 0)

/-- VRSQE of a value (R163). -/
def rsqeVal (a : Val) : Val × FlagSet :=
  match a with
  | .nan _ _ => (a.quieted, signalNV [a])
  | .inf n => if n then (.defaultNaN, flagNV) else (.zero false, 0)
  | .num n man exp _ =>
    if man == 0 then (.inf n, flagDZ)
    else if n then (.defaultNaN, flagNV)
    else
      let t := trunc8 man exp
      let k : Int := 80 + t.2 % 2
      -- 1/√(m × 2^e) = √(2^k / m) × 2^(-(k + e) / 2), with k + e even
      let y := trunc8 (isqrt (2 ^ k.toNat / t.1)) (-((k + t.2) / 2))
      (.num false y.1 y.2 false, 0)

def unitVrsqe (m : MemberEnv) (d a : BitVec 6) (k : BitVec 4) : Member :=
  unaryMember m m.smallFloats d a k fun a => m.out (rsqeVal a.v)

def unitVrcpe (m : MemberEnv) (d a : BitVec 6) (k : BitVec 4) : Member :=
  unaryMember m m.smallFloats d a k fun a => m.out (rcpeVal a.v)

def unitVexp2 (m : MemberEnv) (d a : BitVec 6) (k : BitVec 4) : Member :=
  unaryMember m m.smallFloats d a k fun a => m.out (exp2Val a.v)

def unitVlog2 (m : MemberEnv) (d a : BitVec 6) (k : BitVec 4) : Member :=
  unaryMember m m.smallFloats d a k fun a => m.out (log2Val a.v)

def unitVsigm (m : MemberEnv) (d a : BitVec 6) (k : BitVec 4) : Member :=
  unaryMember m m.smallFloats d a k fun a => m.out (sigmVal a.v)

/-- Number of 1 bits in the n low bits of a pattern. -/
def onesIn : Nat → Nat → Nat
  | 0, _ => 0
  | n + 1, v => v % 2 + onesIn n (v / 2)

def unitVclz (m : MemberEnv) (d a : BitVec 6) (k : BitVec 4) : Member :=
  unaryMember m m.intInt d a k fun a =>
    m.out (.ofInt (if a.bits == 0 then ((4 * m.ews : Nat) : Int) else ((4 * m.ews - 1 - Nat.log2 a.bits : Nat) : Int)), 0)

def unitVpopc (m : MemberEnv) (d a : BitVec 6) (k : BitVec 4) : Member :=
  unaryMember m m.intInt d a k fun a => m.out (.ofInt (onesIn (4 * m.ews) a.bits), 0)

/-! ## Conversions (R164, R165) -/

def unitVcvt (m : MemberEnv) (d a : BitVec 6) (k : BitVec 4) : Member :=
  unaryMember m true d a k fun a => convertVal m.env m.srcFloat m.dcls m.ewd a.v

end Sys2Proof.Machine
end

