-- ==== Sys2Proof/Machine/VectorMask.lean ====
section
/-! DEFINITION. What the vector unit does for the members of majors 0x48 to 0x5F (R168 to R185). -/

namespace Sys2Proof.Machine

/-- Elements below n. -/
def below (n : Nat) : List Nat := List.range n

/-! ## Masks (R171, R172) -/

/-- MOP: a new mask from the bits of the sources at the element (R171). -/
def mopMember (m : MemberEnv) (d : BitVec 6) (srcs : List Nat) (bit : Work → Nat → Bool) : Member :=
  plainMember 0 true [] [] srcs [d.toNat] []
    (.elements (fun w e => .ok (w.setBit d.toNat e (bit w e))) fun w => w.cutMask d.toNat m.e.vl)

/-- MOP that reads a neighbouring bit of its source, as it was (R91, R171). -/
def shiftMember (m : MemberEnv) (d a : BitVec 6) (ahead : List Nat) (place : Nat → Option Nat) : Member :=
  { plainMember 0 true [] [] [] [d.toNat] []
      (.elements (fun w e =>
        match place e with
        | some j => do
          let b ← w.bitWas m a.toNat j
          .ok (w.setBit d.toNat e b)
        | none => .ok (w.setBit d.toNat e false)) fun w => w.cutMask d.toNat m.e.vl) with
    keeps := true, ahead := ahead }

def unitMand (m : MemberEnv) (d a b : BitVec 6) : Member :=
  mopMember m d [a.toNat, b.toNat] fun w e => w.bit a.toNat e && w.bit b.toNat e
def unitMor (m : MemberEnv) (d a b : BitVec 6) : Member :=
  mopMember m d [a.toNat, b.toNat] fun w e => w.bit a.toNat e || w.bit b.toNat e
def unitMxor (m : MemberEnv) (d a b : BitVec 6) : Member :=
  mopMember m d [a.toNat, b.toNat] fun w e => w.bit a.toNat e != w.bit b.toNat e
def unitMandn (m : MemberEnv) (d a b : BitVec 6) : Member :=
  mopMember m d [a.toNat, b.toNat] fun w e => w.bit a.toNat e && !w.bit b.toNat e
def unitMorn (m : MemberEnv) (d a b : BitVec 6) : Member :=
  mopMember m d [a.toNat, b.toNat] fun w e => w.bit a.toNat e || !w.bit b.toNat e
def unitMnot (m : MemberEnv) (d a : BitVec 6) : Member := mopMember m d [a.toNat] fun w e => !w.bit a.toNat e
def unitMmov (m : MemberEnv) (d a : BitVec 6) : Member := mopMember m d [a.toNat] fun w e => w.bit a.toNat e
def unitMset (m : MemberEnv) (d : BitVec 6) : Member := mopMember m d [] fun _ _ => true
def unitMclr (m : MemberEnv) (d : BitVec 6) : Member := mopMember m d [] fun _ _ => false
def unitMshl1 (m : MemberEnv) (d a : BitVec 6) : Member :=
  shiftMember m d a [] fun e => if e == 0 then none else some (e - 1)
def unitMshr1 (m : MemberEnv) (d a : BitVec 6) : Member :=
  shiftMember m d a [a.toNat] fun e => if e + 1 < m.e.vl then some (e + 1) else none
def unitMfromx (m : MemberEnv) (d : BitVec 6) : Member :=
  mopMember m d [] fun _ e => (m.cap 0).getLsbD e

/-- Indices of a mask's bits that count (R172). -/
def counting (m : MemberEnv) (w : Work) (a k : Nat) : List Nat :=
  (below m.e.vl).filter fun e => w.bit a e && w.active k e

/-- A member that returns an x register from a mask. -/
def countMember (m : MemberEnv) (d : BitVec 5) (a : BitVec 6) (k : BitVec 4) (f : List Nat → Word) : Member :=
  plainMember k.toNat true [] [] (maskK k.toNat ++ [a.toNat]) [] []
    (.whole fun w => .ok { w with xreg := some (d.toNat, f (counting m w a.toNat k.toNat)) })

/-- An index, or all ones for none. -/
def indexWord : Option Nat → Word
  | some e => BitVec.ofNat 64 e
  | none => BitVec.allOnes 64

def unitVmpop (m : MemberEnv) (d : BitVec 5) (a : BitVec 6) (k : BitVec 4) : Member :=
  countMember m d a k fun es => BitVec.ofNat 64 es.length
def unitVmfirst (m : MemberEnv) (d : BitVec 5) (a : BitVec 6) (k : BitVec 4) : Member :=
  countMember m d a k fun es => indexWord es.head?
def unitVmlast (m : MemberEnv) (d : BitVec 5) (a : BitVec 6) (k : BitVec 4) : Member :=
  countMember m d a k fun es => indexWord es.getLast?

/-! ## Selection (R174, R175) -/

/-- Candidates of a selection with their values, and NV for a signalling NaN among them. -/
def candidates (m : MemberEnv) (w : Work) (a : BitVec 6) (k : Nat) : Except Stop (List (Nat × Val) × FlagSet) := do
  let vs ← ((below m.e.vl).filter fun e => w.active k e).mapM fun e => do
    let bits ← w.read e (m.src a.toNat)
    .ok (e, extend m.env m.scls m.ews bits)
  .ok (vs, signalNV (vs.map (·.2)))

/-- Whether x ranks before y: NaNs after every number, -0 below +0, ties to the lower index (R174). -/
def ranksBefore (isMax : Bool) (x y : Nat × Val) : Bool :=
  if x.2.isNaN then y.2.isNaN && decide (x.1 < y.1)
  else if y.2.isNaN then true
  else
    match cmpVal true x.2 y.2 with
    | .eq => decide (x.1 < y.1)
    | .gt => isMax
    | .lt => !isMax

/-- The first of a list in rank. -/
def bestOf (isMax : Bool) : List (Nat × Val) → Option (Nat × Val)
  | [] => none
  | x :: xs =>
    match bestOf isMax xs with
    | none => some x
    | some y => if ranksBefore isMax y x then some y else some x

/-- VPICK (R174). -/
def pickMember (m : MemberEnv) (isMax : Bool) (d : BitVec 5) (a : BitVec 6) (k : BitVec 4) : Member :=
  let mk := k.toNat - 1
  let go (w : Work) : Except Stop Work := do
    let c ← candidates m w a k.toNat
    let w1 ← w.flag c.2
    match bestOf isMax c.1 with
    | none => .ok { w1 with xreg := some (d.toNat, BitVec.allOnes 64) }
    | some (j, _) =>
      let pat := w.seen.slices j (m.src a.toNat).1 m.ews
      .ok { w1.setBit mk j false with xreg := some (d.toNat, BitVec.ofNat 64 (j + pat % 2 ^ 32 * 2 ^ 32)) }
  plainMember k.toNat true [m.src a.toNat] [] [mk] [mk] [] (.whole go)

def unitVpickMax (m : MemberEnv) (d : BitVec 5) (a : BitVec 6) (k : BitVec 4) : Member := pickMember m true d a k
def unitVpickMin (m : MemberEnv) (d : BitVec 5) (a : BitVec 6) (k : BitVec 4) : Member := pickMember m false d a k

/-- Number of members of a list that rank before x. -/
def rankOf (xs : List (Nat × Val)) (x : Nat × Val) : Nat := (xs.filter fun y => ranksBefore true y x).length

/-- An amount, count or index: the x register's value unsigned, or the immediate (R175, R176, R180). -/
def amountOf (m : MemberEnv) (f : BitVec 2) (b : BitVec 6) (i : Nat) : Nat :=
  if f == 1 then (m.cap i).toNat else b.toNat

def unitVtopm (m : MemberEnv) (f : BitVec 2) (d a b : BitVec 6) (k : BitVec 4) : Member :=
  let go (w : Work) : Except Stop Work := do
    let c ← candidates m w a k.toNat
    let w1 ← w.flag c.2
    let n := amountOf m f b 0
    let sel := c.1.filter fun x => decide (rankOf c.1 x < n)
    let v := sel.foldl (fun acc x => acc + 2 ^ x.1) 0
    .ok (w1.change fun g => g.setMask d.toNat (BitVec.ofNat 1024 v))
  plainMember k.toNat true [m.src a.toNat] [] (maskK k.toNat) [d.toNat] [] (.whole go)

/-! ## Moving elements (R176 to R180) -/

/-- A slide: what each active element receives, none to keep its slices (R176). All sources are read before any write
(R91). Slides up go element by element, slides down as a whole (R23). -/
def slideMember (m : MemberEnv) (up : Bool) (d a : BitVec 6) (k : BitVec 4)
    (pick : Nat → Option (Nat ⊕ Nat)) : Member :=
  let step (source : Nat → Except Stop Nat) (w : Work) (e : Nat) : Except Stop Work :=
    if w.active k.toNat e then
      match pick e with
      | none => .ok w
      | some (.inl j) => do
        let v ← source j
        .ok (w.write e (m.dst d.toNat) v)
      | some (.inr v) => .ok (w.write e (m.dst d.toNat) v)
    else .ok w
  { plainMember k.toNat m.sameType [m.src a.toNat] [m.dst d.toNat] (maskK k.toNat) [] []
      (if up then .elements (fun w e => step (fun j => w.readWas m j (m.src a.toNat)) w e) id
       else .whole fun w => (below m.e.vl).foldlM (step fun j => w.read j (m.src a.toNat)) w) with
    keeps := up }

def unitVslup (m : MemberEnv) (f : BitVec 2) (d a b : BitVec 6) (k : BitVec 4) : Member :=
  let s := amountOf m f b 0
  slideMember m true d a k fun e => if s ≤ e then some (.inl (e - s)) else none

def unitVsldn (m : MemberEnv) (f : BitVec 2) (d a b : BitVec 6) (k : BitVec 4) : Member :=
  let s := amountOf m f b 0
  slideMember m false d a k fun e => if e + s < m.e.vl then some (.inl (e + s)) else some (.inr 0)

/-- The value entered by VSL1UP and VSL1DN; the flags of its narrowing are discarded (R176). -/
def enteredValue (m : MemberEnv) (f : BitVec 2) (b : BitVec 6) : Nat :=
  if f == 1 then (m.cap 0).toNat % 2 ^ (4 * m.ewd) else (narrow m.env m.dcls m.ewd (.ofInt (imm6 b))).1

def unitVsl1up (m : MemberEnv) (f : BitVec 2) (d a b : BitVec 6) (k : BitVec 4) : Member :=
  slideMember m true d a k fun e => if e == 0 then some (.inr (enteredValue m f b)) else some (.inl (e - 1))

def unitVsl1dn (m : MemberEnv) (f : BitVec 2) (d a b : BitVec 6) (k : BitVec 4) : Member :=
  slideMember m false d a k fun e => if e + 1 < m.e.vl then some (.inl (e + 1)) else some (.inr (enteredValue m f b))

def unitVperm (m : MemberEnv) (d a i : BitVec 6) (k : BitVec 4) : Member :=
  let go (w : Work) : Except Stop Work :=
    (below m.e.vl).foldlM (fun (w1 : Work) e =>
      if w.active k.toNat e then do
        let ib ← w.read e (m.idx i.toNat)
        let j := signedOf 32 ib
        let v ← if 0 ≤ j ∧ j < (m.e.vl : Int) then w.read j.toNat (m.src a.toNat) else .ok 0
        .ok (w1.write e (m.dst d.toNat) v)
      else .ok w1) w
  plainMember k.toNat m.sameType [m.src a.toNat, m.idx i.toNat] [m.dst d.toNat] (maskK k.toNat) [] [] (.whole go)

/-- Bits of a mask below element e as they were. -/
def bitsBelow (m : MemberEnv) (w : Work) (mk e : Nat) : Except Stop Nat := do
  let bs ← (below e).mapM fun j => w.bitWas m mk j
  .ok (bs.filter id).length

/-- VCOMP (R178): the place of an element is the number of active ones below it. -/
def unitVcomp (m : MemberEnv) (d a : BitVec 6) (k : BitVec 4) : Member :=
  let step (w : Work) (e : Nat) : Except Stop Work :=
    if w.active k.toNat e then do
      let v ← w.read e (m.src a.toNat)
      let p ← if k == 0 then .ok e else bitsBelow m w (k.toNat - 1) e
      .ok (w.write p (m.dst d.toNat) v)
    else .ok w
  { plainMember k.toNat m.sameType [m.src a.toNat] [m.dst d.toNat] (maskK k.toNat) [] [] (.elements step id) with
    keeps := true, packs := true }

/-- VIOTA (R179): its flags raise no fault (R185). -/
def unitViota (m : MemberEnv) (d : BitVec 6) (k : BitVec 4) : Member :=
  let mk := k.toNat - 1
  let step (w : Work) (e : Nat) : Except Stop Work := do
    let n ← bitsBelow m w mk e
    let r := narrow m.env m.dcls m.ewd (.ofInt n)
    .ok ({ w with flags := w.flags ||| r.2 }.write e (m.dst d.toNat) r.1)
  { plainMember 0 true [] [m.dst d.toNat] [mk] [] [] (.elements step id) with keeps := true }

def unitVext (m : MemberEnv) (f : BitVec 2) (d : BitVec 5) (a b : BitVec 6) : Member :=
  let j := amountOf m f b 0
  let go (w : Work) : Except Stop Work := do
    let v ← if j < m.e.vl then w.read j (m.src a.toNat) else .ok 0
    let x : Word := if m.scls == 0 then BitVec.ofInt 64 (signedOf (4 * m.ews) v) else BitVec.ofNat 64 v
    .ok { w with xreg := some (d.toNat, x) }
  plainMember 0 true [m.src a.toNat] [] [] [] [] (.whole go)

def unitVins (m : MemberEnv) (f : BitVec 2) (d b : BitVec 6) : Member :=
  let j := amountOf m f b 1
  let go (w : Work) : Except Stop Work :=
    .ok (if j < m.e.vl then w.write j (m.dst d.toNat) (m.cap 0).toNat else w)
  plainMember 0 true [] [m.dst d.toNat] [] [] [] (.whole go)

/-! ## Reductions (R119, R181) -/

/-- A reduction into element 0: `prep` delivers an operand to the destination type, `op` combines two patterns. -/
def reduceMember (m : MemberEnv) (typed : Bool) (f : BitVec 2) (d a b : BitVec 6) (k : BitVec 4)
    (prep : Val → Nat × FlagSet) (seed : Nat → Nat × FlagSet) (op : Nat → Nat → Nat × FlagSet) : Member :=
  let go (w : Work) : Except Stop Work := do
    let ts ← (below m.e.vl).mapM fun e =>
      if w.active k.toNat e then do
        let bits ← w.read e (m.src a.toNat)
        let r := prep (extend m.env m.scls m.ews bits)
        .ok ((some r.1, r.2) : Partial)
      else .ok ((none, 0) : Partial)
    let sb ← if f == 0 then w.read 0 (m.dst b.toNat) else .ok ((m.cap 0).toNat % 2 ^ (4 * m.ewd))
    let sd := seed sb
    let t := halvingSum op ts
    let r := match t.1 with
      | none => (sd.1, sd.2 ||| t.2)
      | some x =>
        let c := op sd.1 x
        (c.1, sd.2 ||| t.2 ||| c.2)
    let w1 ← w.flag r.2
    .ok (w1.write 0 (m.dst d.toNat) r.1)
  plainMember k.toNat typed ([m.src a.toNat] ++ (if f == 0 then [m.dst b.toNat] else [])) [m.dst d.toNat]
    (maskK k.toNat) [] [] (.whole go)

/-- An arithmetic reduction: sums, maxima and minima on delivered patterns. DESIGN CHOICE (log 48): with no active element the seed is
delivered through narrow, as R181 says of it, where R119 returns the operand of an identity unchanged. -/
def valueReduce (m : MemberEnv) (f : BitVec 2) (d a b : BitVec 6) (k : BitVec 4)
    (fi : Int → Int → Int) (ff : Val → Val → Val × FlagSet) : Member :=
  let deliverTo (v : Val) : Nat × FlagSet := narrow m.env m.dcls m.ewd v
  let op (x y : Nat) : Nat × FlagSet :=
    let vx := extend m.env m.dcls m.ewd x
    let vy := extend m.env m.dcls m.ewd y
    if m.dstFloat then m.out (ff vx vy) else m.out (.ofInt (fi vx.toInt vy.toInt), 0)
  reduceMember m m.likeLike f d a b k deliverTo
    (fun s => if m.e.vl == 0 then deliverTo (extend m.env m.dcls m.ewd s) else (s, 0)) op

/-- A bitwise reduction on patterns. -/
def patReduce (m : MemberEnv) (f : BitVec 2) (d a b : BitVec 6) (k : BitVec 4) (fn : Nat → Nat → Nat) : Member :=
  reduceMember m m.intInt f d a b k (fun v => (m.pat v, 0)) (fun s => (s, 0)) fun x y => (fn x y, 0)

def unitVredsum (m : MemberEnv) (f : BitVec 2) (d a b : BitVec 6) (k : BitVec 4) : Member :=
  valueReduce m f d a b k (· + ·) (addVal m.env)
def unitVredmax (m : MemberEnv) (f : BitVec 2) (d a b : BitVec 6) (k : BitVec 4) : Member :=
  valueReduce m f d a b k (fun x y => max x y) (minMaxVal true)
def unitVredmin (m : MemberEnv) (f : BitVec 2) (d a b : BitVec 6) (k : BitVec 4) : Member :=
  valueReduce m f d a b k (fun x y => min x y) (minMaxVal false)
def unitVredand (m : MemberEnv) (f : BitVec 2) (d a b : BitVec 6) (k : BitVec 4) : Member :=
  patReduce m f d a b k (· &&& ·)
def unitVredor (m : MemberEnv) (f : BitVec 2) (d a b : BitVec 6) (k : BitVec 4) : Member :=
  patReduce m f d a b k (· ||| ·)
def unitVredxor (m : MemberEnv) (f : BitVec 2) (d a b : BitVec 6) (k : BitVec 4) : Member :=
  patReduce m f d a b k (· ^^^ ·)

/-! ## Narrow dot products (R123, R182) -/

/-- The permitted pairs of R182. -/
def MemberEnv.dotTyped (m : MemberEnv) : Bool :=
  if m.srcFloat then m.dcls == 2 && (m.ewd == 8 || m.ewd == 16) && !(m.scls == 2 && m.ews != 4)
  else !m.dstFloat && decide (m.ews ≤ 4)

/-- The exact sum of d and the products. Its NaN is the first among the sub-values of a, those of b, an invalid product and d (R111,
R114, R118, R123; log 21). -/
def dotVal (env : RoundEnv) (d : Val) (as bs : List Val) : Val × FlagSet :=
  let ps := (as.zip bs).map fun p => mulVal p.1 p.2
  let fl := ps.foldl (fun (f : FlagSet) p => f ||| p.2) (signalNV [d])
  match firstNaN (as ++ bs ++ ps.map (·.1) ++ [d]) with
  | some v => (v, fl)
  | none =>
    let r := exactSum env (d :: ps.map (·.1))
    (r.1, fl ||| r.2)

def dotMember (m : MemberEnv) (n : Nat) (f : BitVec 2) (d a b : BitVec 6) (k : BitVec 4) : Member :=
  let q := b.toNat % 8
  let body (w : Work) (e : Nat) (bs : List Nat) (fl : FlagSet) : Except Stop Work := do
    let as ← (below n).mapM fun i => w.read e (m.src (a.toNat + i))
    let db ← w.read e (m.dst d.toNat)
    let ext := fun x => extend m.env m.scls m.ews x
    let r := m.out (if m.srcFloat then dotVal m.env (extend m.env m.dcls m.ewd db) (as.map ext) (bs.map ext)
      else
        let ps := (as.zip bs).map fun p => (ext p.1).toInt * (ext p.2).toInt
        (.ofInt (ps.foldl (· + ·) (extend m.env m.dcls m.ewd db).toInt), 0))
    let w1 ← w.flag (fl ||| r.2)
    .ok (w1.write e (m.dst d.toNat) r.1)
  let step (w : Work) (e : Nat) : Except Stop Work :=
    let act := w.active k.toNat e
    if f == 3 then do
      let r ← takeMany m q n w
      if act then body r.2.2 e r.1 r.2.1 else .ok r.2.2
    else if act then do
      let bs ← (below n).mapM fun i => w.read e (m.src (b.toNat + i))
      body w e bs 0
    else .ok w
  let range (x : BitVec 6) : Nat × Nat := (m.start x.toNat m.ews, n * m.ews)
  { plainMember k.toNat m.dotTyped ([range a, m.dst d.toNat] ++ (if f == 0 then [range b] else [])) [m.dst d.toNat]
      (maskK k.toNat) [] (portB f b) (.elements step id) with
    takes := if f == 3 then n else 0 }

def unitVdot4 (m : MemberEnv) (f : BitVec 2) (d a b : BitVec 6) (k : BitVec 4) : Member := dotMember m 4 f d a b k
def unitVdot8 (m : MemberEnv) (f : BitVec 2) (d a b : BitVec 6) (k : BitVec 4) : Member := dotMember m 8 f d a b k

/-! ## Pushing to a port (R184) -/

def unitVpushq (m : MemberEnv) (p : BitVec 3) (a : BitVec 6) (k : BitVec 4) : Member :=
  let q := p.toNat
  let step (w : Work) (e : Nat) : Except Stop Work :=
    if w.active k.toNat e then do
      let po := w.g.port q
      let v ← w.read e (m.src a.toNat)
      if portDepth w.g ≤ po.fifo.length then .error (.stall none)
      else .ok { w with g := w.g.setPort q { po with fifo := po.fifo ++ [(v, m.ews)] } }
    else .ok w
  { k := k.toNat, typed := true, sr := [m.src a.toNat], sw := [], mr := maskK k.toNat, mw := [], ports := [q],
    pre := fun w => if (w.g.port q).kind ≠ .fifo then .error (.fault cStreamPort 0) else .ok w,
    act := .elements step id, flush := id }

end Sys2Proof.Machine
end

