-- ==== Sys2Proof/Machine/VectorMem.lean ====
section
/-! DEFINITION. What the vector unit does for vector loads, stores, atomics, reductions at memory and spills (R95 to R97,
R231 to R241). -/

namespace Sys2Proof.Machine

/-- The group put back into the device while a unit works, and taken out again. -/
def Work.sync (m : MemberEnv) (w : Work) (f : State → State) : Work :=
  let s1 := f (w.s.setGroup m.core m.slot w.g)
  { w with s := s1, g := (s1.group? m.core m.slot).getD w.g }

/-- Whether the group's team is resilient. -/
def MemberEnv.resilient (m : MemberEnv) : Bool :=
  match m.ctx.team with
  | some t => t.resilient.isSome
  | none => false

/-! ## Witnesses given to loads (R235, R245) -/

/-- The check and the wait of a load's witness before element 0 (R235, R266). -/
def awaitWitness (m : MemberEnv) (wit : Word) (w : Work) : Except Stop Work :=
  if witKind wit == 0 then .ok w
  else
    match checkWitness w.s wit with
    | some c => .error (.fault c wit)
    | none =>
      let s1 := w.s.setGroup m.core m.slot w.g
      if waitOver s1 wit then .ok w
      else if m.resilient && ownTeamWitness s1 m.ctx.teamId wit then do
        let w1 ← w.publish m.core m.slot m.ctx
        if waitOver (w1.s.setGroup m.core m.slot w1.g) wit then .ok w1 else .error (.stall none)
      else .error (.stall none)

/-! ## Loads (R231, R232, R235) -/

/-- Byte address and bit of a bit offset from a base. -/
def bitAddr (base : Word) (bits : Nat) : Word × Nat := (base + BitVec.ofNat 64 (bits / 8), bits % 8)

/-- mw bits read from memory by a member. -/
def loadBits (m : MemberEnv) (w : Work) (policy : Nat) (home : Bool) (at_ : Word × Nat) (mw : Nat) :
    Except Stop (Nat × Work) :=
  let r := readMem w.s m.ctx 1 policy home at_.1 (bytesOf at_.2 mw)
  match r.answer with
  | .error x => .error x
  | .ok v => .ok (v / 2 ^ at_.2 % 2 ^ mw, { w with s := r.s })

/-- The reads of an element's values, each with the name it goes to. -/
def readValues (m : MemberEnv) (policy : Nat) (home : Bool) :
    List ((Word × Nat) × Nat) → State → State × List (Nat × Nat × ReadOut)
  | [], s => (s, [])
  | p :: ps, s =>
    let r := readMem s m.ctx 1 policy home p.1.1 (bytesOf p.1.2 (4 * m.ews))
    let q := readValues m policy home ps r.s
    (q.1, (p.2, p.1.2, r) :: q.2)

/-- An element of a load (R231, R235): of the faults of its values the first in the order of R249 stands, then arithmetic;
the values are written when all are there. -/
def loadElement (m : MemberEnv) (w : Work) (policy : Nat) (home : Bool) (e : Nat) (ps : List ((Word × Nat) × Nat)) :
    Except Stop Work := do
  let r := readValues m policy home ps w.s
  match firstStop (r.2.map fun x => x.2.2.answer) with
  | some x => .error x
  | none =>
    let ds : List (Nat × Nat × FlagSet) := r.2.map fun x =>
      (x.1, deliver m.env m.scls m.ews m.dcls m.ewd (x.2.2.val / 2 ^ x.2.1 % 2 ^ (4 * m.ews)))
    let w1 ← { w with s := r.1 }.flag (ds.foldl (fun (f : FlagSet) (d : Nat × Nat × FlagSet) => f ||| d.2.2) 0)
    .ok (ds.foldl (fun w d => w.write e (m.dst d.1) d.2.1) w1)

/-- A load member: the places of its values in element e, with the name each goes to. -/
def loadMember (m : MemberEnv) (policy : Nat) (wit : Word) (k : Nat) (sr sw : List (Nat × Nat))
    (places : Work → Nat → Except Stop (List ((Word × Nat) × Nat))) : Member :=
  let step (w : Work) (e : Nat) : Except Stop Work :=
    if w.active k e then do
      let ps ← places w e
      loadElement m w policy (witKind wit != 0) e ps
    else .ok w
  { k := k, typed := true, sr := sr, sw := sw, mr := maskK k, mw := [], ports := [], pre := awaitWitness m wit,
    act := .elements step id, flush := id }

def unitVld (m : MemberEnv) (d : BitVec 6) (p : BitVec 2) (k : BitVec 4) : Member :=
  loadMember m p.toNat (m.cap 1) k.toNat [] [m.dst d.toNat] fun _ e => .ok [(bitAddr (m.cap 0) (e * (4 * m.ews)), d.toNat)]

def unitVlds (m : MemberEnv) (d : BitVec 6) (p : BitVec 2) (k : BitVec 4) : Member :=
  loadMember m p.toNat (m.cap 2) k.toNat [] [m.dst d.toNat] fun _ e =>
    .ok [((m.cap 0 + BitVec.ofNat 64 e * m.cap 1, 0), d.toNat)]

/-- Address of an indexed element (R232). -/
def indexAddr (m : MemberEnv) (w : Work) (e : Nat) (i : BitVec 6) : Except Stop Word := do
  let b ← w.read e (m.idx i.toNat)
  .ok (m.cap 0 + BitVec.ofInt 64 (signedOf 32 b))

def unitVldx (m : MemberEnv) (d i : BitVec 6) (k : BitVec 4) : Member :=
  loadMember m 0 (m.cap 1) k.toNat [m.idx i.toNat] [m.dst d.toNat] fun w e => do
    let a ← indexAddr m w e i
    .ok [((a, 0), d.toNat)]

def unitVldseg (m : MemberEnv) (d : BitVec 6) (h : BitVec 4) (k : BitVec 4) : Member :=
  let nf := h.toNat + 1
  loadMember m 0 (m.cap 1) k.toNat [] [(m.start d.toNat m.ewd, nf * m.ewd)] fun _ e =>
    .ok ((List.range nf).map fun f => (bitAddr (m.cap 0) ((e * nf + f) * (4 * m.ews)), d.toNat + f))

/-! ## Stores (R231, R232, R238) -/

/-- Sender of a store member. -/
def MemberEnv.sender (m : MemberEnv) (l1 : Bool) : Sender :=
  { ctx := m.ctx, path := 1, seq := m.e.seq, serial := m.e.serial, l1 := l1 }

/-- An element of a store (R238, R249): its places are checked, then its values read and delivered, then their flags; a
checkpoint comes before it where it needs one (R220, R267). -/
def storeElement (m : MemberEnv) (w : Work) (l1 : Bool) (mw : Nat) (places : List (Word × Nat))
    (values : Except Stop (List (Nat × FlagSet))) : Except Stop Work := do
  let sps := places.map fun p => spans w.s m.ctx .store p.1 (bytesOf p.2 mw)
  match firstFault (sps.filterMap accessFault) with
  | some f => .error (.fault f.1 f.2)
  | none =>
    let vs ← values
    let w1 ← w.flag (vs.foldl (fun (f : FlagSet) v => f ||| v.2) 0)
    let w2 ← if mustCut w1.s m.ctx (sps.flatMap spanRefs) then w1.publish m.core m.slot m.ctx else .ok w1
    .ok { w2 with s := ((sps.zip places).zip vs).foldl (fun s p => sendBits s (m.sender l1) p.1.1 p.1.2.2 mw p.2.1) w2.s }

/-- A store member: the places of its values in element e, with the name each comes from. -/
def storeMember (m : MemberEnv) (l1 : Bool) (k : Nat) (sr : List (Nat × Nat))
    (places : Work → Nat → Except Stop (List ((Word × Nat) × Nat))) : Member :=
  let step (w : Work) (e : Nat) : Except Stop Work :=
    if w.active k e then do
      let ps ← places w e
      storeElement m w l1 (4 * m.ewd) (ps.map (·.1)) (ps.mapM fun p => do
        let bits ← w.read e (m.src p.2)
        .ok (deliver m.env m.scls m.ews m.dcls m.ewd bits))
    else .ok w
  { k := k, typed := true, sr := sr, sw := [], mr := maskK k, mw := [], ports := [], pre := fun w => .ok w,
    act := .elements step id, flush := id, plain := true }

def unitVst (m : MemberEnv) (v : BitVec 6) (p : BitVec 2) (k : BitVec 4) : Member :=
  storeMember m (p == 0) k.toNat [m.src v.toNat] fun _ e => .ok [(bitAddr (m.cap 0) (e * (4 * m.ewd)), v.toNat)]

def unitVsts (m : MemberEnv) (v : BitVec 6) (p : BitVec 2) (k : BitVec 4) : Member :=
  storeMember m (p == 0) k.toNat [m.src v.toNat] fun _ e => .ok [((m.cap 0 + BitVec.ofNat 64 e * m.cap 1, 0), v.toNat)]

def unitVstx (m : MemberEnv) (v i : BitVec 6) (k : BitVec 4) : Member :=
  storeMember m true k.toNat [m.src v.toNat, m.idx i.toNat] fun w e => do
    let a ← indexAddr m w e i
    .ok [((a, 0), v.toNat)]

def unitVstseg (m : MemberEnv) (v : BitVec 6) (h : BitVec 3) (k : BitVec 4) : Member :=
  let nf := h.toNat + 1
  storeMember m true k.toNat [(m.start v.toNat m.ews, nf * m.ews)] fun _ e =>
    .ok ((List.range nf).map fun f => (bitAddr (m.cap 0) ((e * nf + f) * (4 * m.ewd)), v.toNat + f))

/-! ## Spills (R95 to R97) -/

def unitVspill (m : MemberEnv) (s : BitVec 10) (n : BitVec 6) : Member :=
  let count := n.toNat + 1
  let b := (count + 1) / 2
  let step (w : Work) (e : Nat) : Except Stop Work := do
    storeElement m w true (8 * b) [(m.cap 0 + BitVec.ofNat 64 (e * b), 0)] (do
      let v ← w.read e (s.toNat, count)
      .ok [(v, 0)])
  { k := 0, typed := true, sr := [(s.toNat, count)], sw := [], mr := [], mw := [], ports := [], pre := fun w => .ok w,
    act := .elements step id, flush := id }

/-- Tail elements that VFILL writes from the sectors it reads (R97). -/
def fillTail (m : MemberEnv) (w : Work) (s count b : Nat) : Work :=
  let last := m.cap 0 + BitVec.ofNat 64 (m.e.vl * b - 1)
  match translate w.s m.ctx .load last with
  | .error _ => w
  | .ok r =>
    let extra := 47 - r.key % 48
    let n := min (extra / b) (w.g.vec.vlmax - m.e.vl)
    (List.range n).foldl (fun w i =>
      let e := m.e.vl + i
      match loadBits m w 0 false (m.cap 0 + BitVec.ofNat 64 (e * b), 0) (8 * b) with
      | .ok p => p.2.write e (s, count) p.1
      | .error _ => w) w

def unitVfill (m : MemberEnv) (s : BitVec 10) (n : BitVec 6) : Member :=
  let count := n.toNat + 1
  let b := (count + 1) / 2
  let step (w : Work) (e : Nat) : Except Stop Work := do
    let r ← loadBits m w 0 false (m.cap 0 + BitVec.ofNat 64 (e * b), 0) (8 * b)
    .ok (r.2.write e (s.toNat, count) r.1)
  { k := 0, typed := true, sr := [], sw := [(s.toNat, count)], mr := [], mw := [], ports := [], pre := fun w => .ok w,
    act := .elements step fun w => if m.e.vl == 0 then w else fillTail m w s.toNat count b, flush := id }

/-! ## Atomics and reductions at memory (R239 to R241) -/

/-- The permitted types of R239. -/
def MemberEnv.atomicTyped (m : MemberEnv) (floats : Bool) : Bool :=
  m.sameType && (m.ewd == 8 || m.ewd == 16) && (decide (m.dcls ≤ 1) || (m.dcls == 2 && floats))

/-- The place of an atomic element: translated with RD and WR, aligned, in the local space or a tier 0 or 1 page
(R239). -/
def atomicPlace (m : MemberEnv) (w : Work) (e : Nat) (i : BitVec 6) : Except Stop (Word × List Span × Nat × Ref) := do
  let a ← indexAddr m w e i
  let n := m.ewd / 2
  let sps := spans w.s m.ctx .atomic a n
  match accessFault sps with
  | some f => .error (.fault f.1 f.2)
  | none =>
    match spanRefs sps with
    | (key, _, r, _) :: _ =>
      if a.toNat % n != 0 || (!r.local_ && decide (2 ≤ r.tier)) then .error (.fault cAccess a) else .ok (a, sps, key, r)
    | [] => .error (.fault cTranslation a)

/-- VAMO: old values to name v, the locations updated at their homes (R240). -/
def vamoMember (m : MemberEnv) (fn : AtomicFn) (floats : Bool) (v i : BitVec 6) (k : BitVec 4) : Member :=
  let step (w : Work) (e : Nat) : Except Stop Work :=
    if w.active k.toNat e then do
      let p ← atomicPlace m w e i
      let sector := p.2.2.1 / 48
      match foreignRegion w.s m.ctx.teamId p.2.2.1 with
      | some n => .error (.stall (some n))
      | none =>
        let opnd ← w.read e (m.dst v.toNat)
        let s1 := flushSector (touchSpans w.s m.ctx true p.2.1) m.core sector
        if poisoned s1 sector then .error (.fault cMachine (p.1 - BitVec.ofNat 64 (p.2.2.1 % 48)))
        else if p.2.2.2.chk && mismatched s1 sector then .error (.fault cCheck p.1)
        else
          let old := memNat s1.mem p.2.2.1 (m.ewd / 2)
          let r := atomicClass fn m.dcls m.ewd m.env old opnd
          let own := match regionTeam s1 p.2.2.1 with
            | some (n, _) => n == m.ctx.teamId
            | none => false
          let s2 := if own then logSector s1 sector else s1
          let s3 := dropSectors (writeNat s2 p.2.2.1 (m.ewd / 2) r.1) m.core [sector]
          .ok ({ w with s := s3, flags := w.flags ||| r.2 }.write e (m.dst v.toNat) old)
    else .ok w
  { k := k.toNat, typed := m.atomicTyped floats, sr := [m.dst v.toNat, m.idx i.toNat], sw := [m.dst v.toNat],
    mr := maskK k.toNat, mw := [], ports := [], pre := fun w => if m.resilient then w.publish m.core m.slot m.ctx else .ok w,
    act := .elements step id, flush := id, eachTime := true }

def unitVamoAdd (m : MemberEnv) (v i : BitVec 6) (k : BitVec 4) : Member := vamoMember m .add true v i k
def unitVamoAnd (m : MemberEnv) (v i : BitVec 6) (k : BitVec 4) : Member := vamoMember m .and false v i k
def unitVamoOr (m : MemberEnv) (v i : BitVec 6) (k : BitVec 4) : Member := vamoMember m .or false v i k
def unitVamoXor (m : MemberEnv) (v i : BitVec 6) (k : BitVec 4) : Member := vamoMember m .xor false v i k
def unitVamoMin (m : MemberEnv) (v i : BitVec 6) (k : BitVec 4) : Member := vamoMember m .min true v i k
def unitVamoMax (m : MemberEnv) (v i : BitVec 6) (k : BitVec 4) : Member := vamoMember m .max true v i k
def unitVamoSwap (m : MemberEnv) (v i : BitVec 6) (k : BitVec 4) : Member := vamoMember m .swap true v i k

/-- The merged operand of each address, in the order of addresses: equal addresses in element order (R241). DESIGN CHOICE (log 48): an
address stands for the location that it maps to, so that two pages over one location merge into its one rounding. -/
def mergePend (m : MemberEnv) (fn : AtomicFn) : List (Nat × Ref × Nat) → List (Nat × Ref × Nat) × FlagSet
  | [] => ([], 0)
  | p :: ps =>
    let same := ps.filter fun q => q.1 == p.1
    let one := same.foldl (fun (acc : Nat × FlagSet) q =>
      let r := atomicClass fn m.dcls m.ewd m.env acc.1 q.2.2
      (r.1, acc.2 ||| r.2)) (p.2.2, 0)
    let first := ((p.1, p.2.1, one.1), one.2)
    let rest := mergeRest m fn ps p.1 ps.length
    (first.1 :: rest.1, first.2 ||| rest.2)
where
  /-- The other addresses, one merged operand each. -/
  mergeRest (m : MemberEnv) (fn : AtomicFn) (ps : List (Nat × Ref × Nat)) (skip : Nat) :
      Nat → List (Nat × Ref × Nat) × FlagSet
    | 0 => ([], 0)
    | n + 1 =>
      match ps.filter fun q => q.1 != skip with
      | [] => ([], 0)
      | q :: qs =>
        let one := (qs.filter fun x => x.1 == q.1).foldl (fun (acc : Nat × FlagSet) x =>
          let r := atomicClass fn m.dcls m.ewd m.env acc.1 x.2.2
          (r.1, acc.2 ||| r.2)) (q.2.2, 0)
        let rest := mergeRest m fn qs q.1 n
        ((q.1, q.2.1, one.1) :: rest.1, one.2 ||| rest.2)

/-- The merged updates reach their homes line by line: held in a resilient team's dirty sectors, else performed
(R241, R266). -/
def sendMerged (m : MemberEnv) (fn : AtomicFn) (w : Work) : Work :=
  let mg := mergePend m fn w.pend
  let one (w : Work) (p : Nat × Ref × Nat) : Work :=
    let u : Update := .reduce [(p.1, p.2.2)] fn m.dcls m.ewd m.env.rm m.env.fz m.env.sat
    let held := heldBy m.ctx p.2.1
    let s1 := if held != 0 then w.s else flushSector w.s m.core (p.1 / 48)
    let rd : Nat → Byte := match findSector (s1.core m.core).l1 (p.1 / 48) held with
      | some x => if held != 0 then fun k => BitVec.ofNat 8 (x.data.toNat / 2 ^ (8 * (k - 48 * x.sector))) else memGet s1.mem
      | none => memGet s1.mem
    let fl := (updateCells rd u).2.2
    let f : Flight :=
      { core := m.core, slot := m.slot, epoch := (s1.slot m.core m.slot).epoch, path := 1, seq := m.e.seq,
        serial := m.e.serial, upd := u, l1 := false, held := held, team := m.ctx.teamId, host := false, performed := false }
    { w with s := if held != 0 then sendFlight s1 f else performNow (countFlight s1 f) f, flags := w.flags ||| fl }
  let w1 := mg.1.foldl one w
  { w1 with flags := w1.flags ||| mg.2, pend := [] }

/-- VREDM (R241). -/
def vredmMember (m : MemberEnv) (fn : AtomicFn) (floats : Bool) (v i : BitVec 6) (k : BitVec 4) : Member :=
  let step (w : Work) (e : Nat) : Except Stop Work :=
    if w.active k.toNat e then do
      let p ← atomicPlace m w e i
      match foreignRegion w.s m.ctx.teamId p.2.2.1 with
      | some n => .error (.stall (some n))
      | none =>
        let opnd ← w.read e (m.src v.toNat)
        let w1 ← if mustCut w.s m.ctx (spanRefs p.2.1) then w.publish m.core m.slot m.ctx else .ok w
        .ok { w1 with s := touchSpans w1.s m.ctx true p.2.1, pend := w1.pend ++ [(p.2.2.1, p.2.2.2, opnd)] }
    else .ok w
  { k := k.toNat, typed := m.atomicTyped floats, sr := [m.src v.toNat, m.idx i.toNat], sw := [], mr := maskK k.toNat,
    mw := [], ports := [], pre := fun w => .ok w, act := .elements step id, flush := sendMerged m fn }

def unitVredmSum (m : MemberEnv) (v i : BitVec 6) (k : BitVec 4) : Member := vredmMember m .add true v i k
def unitVredmMax (m : MemberEnv) (v i : BitVec 6) (k : BitVec 4) : Member := vredmMember m .max true v i k
def unitVredmMin (m : MemberEnv) (v i : BitVec 6) (k : BitVec 4) : Member := vredmMember m .min true v i k
def unitVredmAnd (m : MemberEnv) (v i : BitVec 6) (k : BitVec 4) : Member := vredmMember m .and false v i k
def unitVredmOr (m : MemberEnv) (v i : BitVec 6) (k : BitVec 4) : Member := vredmMember m .or false v i k
def unitVredmXor (m : MemberEnv) (v i : BitVec 6) (k : BitVec 4) : Member := vredmMember m .xor false v i k

end Sys2Proof.Machine
end

