-- ==== Sys2Proof/Machine/VectorUnit.lean ====
section
/-! DEFINITION. The vector unit: one convoy executed element by element (R25, R26, R29, R249; log 13, log 14). -/

namespace Sys2Proof.Machine

/-- What the vector unit does for each vector-queue instruction. -/
def memberOf (me : MemberEnv) : Instr → Option Member
  | .vadd f d a b k _ => some (unitVadd me f d a b k)
  | .vsub f d a b k _ => some (unitVsub me f d a b k)
  | .vrsub f d a b k _ => some (unitVrsub me f d a b k)
  | .vmul f d a b k _ => some (unitVmul me f d a b k)
  | .vmulh f d a b k _ => some (unitVmulh me f d a b k)
  | .vdiv f d a b k _ => some (unitVdiv me f d a b k)
  | .vrem f d a b k _ => some (unitVrem me f d a b k)
  | .vmin f d a b k _ => some (unitVmin me f d a b k)
  | .vmax f d a b k _ => some (unitVmax me f d a b k)
  | .vfma f d a b k _ => some (unitVfma me f d a b k)
  | .vfms f d a b k _ => some (unitVfms me f d a b k)
  | .vfnma f d a b k _ => some (unitVfnma me f d a b k)
  | .vand f d a b k _ => some (unitVand me f d a b k)
  | .vor f d a b k _ => some (unitVor me f d a b k)
  | .vxor f d a b k _ => some (unitVxor me f d a b k)
  | .vshl f d a b k _ => some (unitVshl me f d a b k)
  | .vshr f d a b k _ => some (unitVshr me f d a b k)
  | .vsar f d a b k _ => some (unitVsar me f d a b k)
  | .vadc f d a b k _ => some (unitVadc me f d a b k)
  | .vsbc f d a b k _ => some (unitVsbc me f d a b k)
  | .vcmpeq f m a b k _ => some (unitVcmpeq me f m a b k)
  | .vcmpne f m a b k _ => some (unitVcmpne me f m a b k)
  | .vcmplt f m a b k _ => some (unitVcmplt me f m a b k)
  | .vcmple f m a b k _ => some (unitVcmple me f m a b k)
  | .vcmpgt f m a b k _ => some (unitVcmpgt me f m a b k)
  | .vcmpge f m a b k _ => some (unitVcmpge me f m a b k)
  | .vcmpun f m a b k _ => some (unitVcmpun me f m a b k)
  | .vmerge f d a b k _ => some (unitVmerge me f d a b k)
  | .vabs d a k _ => some (unitVabs me d a k)
  | .vneg d a k _ => some (unitVneg me d a k)
  | .vnot d a k _ => some (unitVnot me d a k)
  | .vsqrt d a k _ => some (unitVsqrt me d a k)
  | .vrsqe d a k _ => some (unitVrsqe me d a k)
  | .vrcpe d a k _ => some (unitVrcpe me d a k)
  | .vexp2 d a k _ => some (unitVexp2 me d a k)
  | .vlog2 d a k _ => some (unitVlog2 me d a k)
  | .vsigm d a k _ => some (unitVsigm me d a k)
  | .vclz d a k _ => some (unitVclz me d a k)
  | .vpopc d a k _ => some (unitVpopc me d a k)
  | .vcvt d a k _ => some (unitVcvt me d a k)
  | .vmv f d b k _ => some (unitVmv me f d b k)
  | .vid d k _ => some (unitVid me d k)
  | .vslup f d a b k _ => some (unitVslup me f d a b k)
  | .vsldn f d a b k _ => some (unitVsldn me f d a b k)
  | .vsl1up f d a b k _ => some (unitVsl1up me f d a b k)
  | .vsl1dn f d a b k _ => some (unitVsl1dn me f d a b k)
  | .vperm d a i k _ => some (unitVperm me d a i k)
  | .vcomp d a k _ => some (unitVcomp me d a k)
  | .viota d k _ => some (unitViota me d k)
  | .vdot4 f d a b k _ => some (unitVdot4 me f d a b k)
  | .vdot8 f d a b k _ => some (unitVdot8 me f d a b k)
  | .vredsum f d a b k _ => some (unitVredsum me f d a b k)
  | .vredmax f d a b k _ => some (unitVredmax me f d a b k)
  | .vredmin f d a b k _ => some (unitVredmin me f d a b k)
  | .vredand f d a b k _ => some (unitVredand me f d a b k)
  | .vredor f d a b k _ => some (unitVredor me f d a b k)
  | .vredxor f d a b k _ => some (unitVredxor me f d a b k)
  | .vtopm f m a b k _ => some (unitVtopm me f m a b k)
  | .vext f d a b _ => some (unitVext me f d a b)
  | .vins f d _ b _ => some (unitVins me f d b)
  | .mand d a b _ => some (unitMand me d a b)
  | .mor d a b _ => some (unitMor me d a b)
  | .mxor d a b _ => some (unitMxor me d a b)
  | .mandn d a b _ => some (unitMandn me d a b)
  | .morn d a b _ => some (unitMorn me d a b)
  | .mnot d a _ => some (unitMnot me d a)
  | .mmov d a _ => some (unitMmov me d a)
  | .mset d _ => some (unitMset me d)
  | .mclr d _ => some (unitMclr me d)
  | .mshl1 d a _ => some (unitMshl1 me d a)
  | .mshr1 d a _ => some (unitMshr1 me d a)
  | .mfromx d _ _ => some (unitMfromx me d)
  | .vmpop d a k _ => some (unitVmpop me d a k)
  | .vmfirst d a k _ => some (unitVmfirst me d a k)
  | .vmlast d a k _ => some (unitVmlast me d a k)
  | .vpickMax d a k _ => some (unitVpickMax me d a k)
  | .vpickMin d a k _ => some (unitVpickMin me d a k)
  | .vpushq p a k _ => some (unitVpushq me p a k)
  | .vld d _ _ p k _ => some (unitVld me d p k)
  | .vlds d _ _ p k _ => some (unitVlds me d p k)
  | .vldx d _ i _ k _ => some (unitVldx me d i k)
  | .vldseg d _ _ h k _ => some (unitVldseg me d h k)
  | .vst v _ _ _ p k _ => some (unitVst me v p k)
  | .vsts v _ _ _ p k _ => some (unitVsts me v p k)
  | .vstx v _ i _ k _ => some (unitVstx me v i k)
  | .vstseg v _ _ h k _ => some (unitVstseg me v h k)
  | .vamoAdd v _ i k _ => some (unitVamoAdd me v i k)
  | .vamoAnd v _ i k _ => some (unitVamoAnd me v i k)
  | .vamoOr v _ i k _ => some (unitVamoOr me v i k)
  | .vamoXor v _ i k _ => some (unitVamoXor me v i k)
  | .vamoMin v _ i k _ => some (unitVamoMin me v i k)
  | .vamoMax v _ i k _ => some (unitVamoMax me v i k)
  | .vamoSwap v _ i k _ => some (unitVamoSwap me v i k)
  | .vredmSum v _ i k _ => some (unitVredmSum me v i k)
  | .vredmMax v _ i k _ => some (unitVredmMax me v i k)
  | .vredmMin v _ i k _ => some (unitVredmMin me v i k)
  | .vredmAnd v _ i k _ => some (unitVredmAnd me v i k)
  | .vredmOr v _ i k _ => some (unitVredmOr me v i k)
  | .vredmXor v _ i k _ => some (unitVredmXor me v i k)
  | .vspill _ s n => some (unitVspill me s n)
  | .vfill _ s n => some (unitVfill me s n)
  | _ => none

/-- A member of an entry with what it knows and its word. -/
structure Seat where
  me : MemberEnv
  m : Member
  word : Word
  /-- It is not judged yet: what it reads is kept for it, and it performs nothing (R26, R91). -/
  ghost : Bool := false

/-- Members of an entry with their words. -/
def entryMembers (s : State) (core slot : Nat) (g : Group) (e : VEntry) : List Seat :=
  ((e.members.zip e.caps).zip (List.range e.members.length)).filterMap fun p =>
    let me : MemberEnv := { core := core, slot := slot, e := e, place := p.2, caps := p.1.2, ctx := ctxOf s core slot g }
    (memberOf me p.1.1).map fun m => { me := me, m := m, word := BitVec.ofNat 64 ((encode p.1.1).getD 0) }

/-- Whether a range of slices passes the allocation (R89). -/
def pastEnd (g : Group) (r : Nat × Nat) : Bool := decide (g.idn.alloc < r.1 + r.2)

/-! ## Segments: where the chain between members breaks (R25, R26, R90) -/

/-- Whether two ranges of slices share one. -/
def overlaps (a b : Nat × Nat) : Bool := decide (a.1 < b.1 + b.2) && decide (b.1 < a.1 + a.2)

def Member.isWhole (m : Member) : Bool :=
  match m.act with
  | .whole _ => true
  | .elements _ _ => false

/-- Whether a member's mask is written by some of these members. -/
def Seat.lateMask (x : Seat) (ys : List Seat) : Bool := x.m.k != 0 && ys.any fun y => y.m.mw.contains (x.m.k - 1)

/-- Whether a member performs nothing until these earlier ones have completed every element: it is whole-vector (R25); they
write its execution mask (R26), or the next bit of a mask it shifts down (R171), or they pack slices that it touches
(R90, R178). -/
def Seat.follows (x : Seat) (ys : List Seat) : Bool :=
  x.m.isWhole || x.lateMask ys || ys.any fun y =>
    x.m.ahead.any y.m.mw.contains || (y.m.packs && y.m.sw.any fun r => (x.m.sr ++ x.m.sw).any (overlaps r))

/-- The members cut into runs that go element by element, one run after the other. -/
def segments (run : List Seat) : List Seat → List (List Seat)
  | [] => [run]
  | x :: xs => if !run.isEmpty && x.follows run then run :: segments [x] xs else segments (run ++ [x]) xs

/-! ## Dropping and the checks before element 0 (R26, R55, R89, R350) -/

/-- The members dropped or not as the entry reached the unit: those whose mask no earlier member writes, and those judged in an
earlier run (R26). -/
def judge (e : VEntry) (g : Group) : List Seat → List Seat → FMap (Option Bool)
  | _, [] => e.prog.judged
  | ys, x :: xs =>
    let rest := judge e g (ys ++ [x]) xs
    if x.lateMask ys || (FMap.get none e.prog.judged x.me.place).isSome then rest
    else FMap.set none rest x.me.place (some (x.m.k != 0 && g.allFalse (x.m.k - 1)))

/-- What the entry keeps of a member that is not judged yet (`Progress.late`). -/
def Seat.late (x : Seat) : Option (Nat × Nat) := FMap.get none x.me.e.prog.late x.me.place

/-- Whether a member is dropped, on the elements below `limit` of the mask that an earlier member writes; none while that leaves it
open: a bit that is set below the limit stays, and all of them clear is known only when the writer has completed (R26). -/
def Seat.fate (x : Seat) (ys : List Seat) (js : FMap (Option Bool)) (vl limit : Nat) (w : Work) : Option Bool :=
  if !x.lateMask ys || (FMap.get none js x.me.place).isSome then some (FMap.get none js x.me.place == some true)
  else
    let n := (x.late.map (·.1)).getD 0
    if (List.range limit).any fun i => decide (n ≤ i) && w.bit (x.m.k - 1) i then some false
    else if limit == vl then some ((w.seen.mask (x.m.k - 1) &&& lowMask w.g.vec.vlmax) >>> n == 0) else none

/-- Whether a member is at its beginning, so that what it checks before element 0 is due (R184, R240, R245). -/
def Seat.opens (vst : Nat) (x : Seat) : Bool := x.me.e.vl != 0 && (vst == 0 || x.m.eachTime || x.late.isSome)

/-- What a member's unit finds before element 0, with its place in the order of stage 4 (R350). -/
def memberCheck (x : Seat) (vst : Nat) (w : Work) : Option (Nat × Stop) :=
  if !x.m.typed then some (0, .fault cUndefined x.word)
  else if (x.m.sr ++ x.m.sw).any (pastEnd w.g) then some (1, .fault cSliceBound 0)
  else if x.opens vst then
    match x.m.pre w with
    | .error (.fault code a) => some (if code == cStreamPort then 2 else if code == cWitFormat then 3 else 4, .fault code a)
    | _ => none
  else none

/-- The lowest check in the order of stage 4, of the earliest member (log 13). -/
def memberChecks (vst : Nat) (w : Work) : List Seat → Option (Nat × Stop)
  | [] => none
  | x :: xs =>
    match memberCheck x vst w, memberChecks vst w xs with
    | some a, some b => if b.1 < a.1 then some b else some a
    | some a, none => some a
    | none, r => r

/-! ## Elements (R25, R29) -/

/-- The two computations of a protected task's element compared, after every other fault of the element (R350, R364,
R365). -/
def Work.compare (w : Work) (e : Nat) : Except Stop Work :=
  if w.upset == some e then .error (.fault cProtected 0) else .ok w

/-- Elements below vst that a member still has to perform. -/
def Seat.owed (x : Seat) : Option (Nat × Nat) := FMap.get none x.me.e.prog.owed x.me.place

/-- Whether an element is one that a member has to perform (R29). -/
def Seat.due (vst : Nat) (x : Seat) (e : Nat) : Bool :=
  decide (vst ≤ e) || match x.owed with
    | some r => decide (r.1 ≤ e) && decide (e < r.2)
    | none => false

/-- One member's element: recorded first where it reads others (R91); it stops where it cannot read its mask bit
(R366). A store that was sent ahead is not sent again (R235). -/
def Seat.element (vst e : Nat) (w : Work) (x : Seat) : Except Stop Work :=
  match x.m.act with
  | .whole _ => .ok w
  | .elements f _ =>
    if !x.due vst e then .ok w
    else
      let w0 := if x.m.keeps then w.record x.me e else w
      if x.ghost then .ok w0
      else if x.m.mr.any fun m => w.seen.badBit m e then .error (.fault cMachine 0)
      else if w.ahead && e == 0 && x.m.plain then
        match f w0 e with
        | .ok w1 => .ok { w1 with s := w0.s }
        | .error _ => .ok w0
      else f w0 e

/-- A member after its last element: a mask that it has written whole loses its marks (R366). -/
def Seat.close (vst : Nat) (w : Work) (x : Seat) : Work :=
  match x.m.act with
  | .whole _ => w
  | .elements _ last =>
    let w1 := last w
    if vst == 0 && x.m.k == 0 then w1.change fun g => g.cleanMasks x.m.mw else w1

/-- A whole-vector member's work (R25). -/
def Seat.wholly (x : Seat) (vl : Nat) (w : Work) : Except Stop Work :=
  match x.m.act with
  | .elements _ _ => .ok w
  | .whole f =>
    if (List.range vl).any fun e => x.m.mr.any fun m => w.seen.badBit m e then .error (.fault cMachine 0)
    else
      match f w with
      | .ok w1 => .ok (w1.change fun g => g.cleanMasks x.m.mw)
      | .error y => .error y

/-- The whole-vector member of a run. -/
def runWhole (xs : List Seat) (vl : Nat) (w : Work) : Except Stop Work := do
  let w1 ← xs.foldlM (fun (w : Work) (x : Seat) => x.wholly vl w) w
  if xs.any fun x => x.m.isWhole then w1.compare vl else .ok w1

/-- The elements that a run's members have to perform below a limit, of those from vst on and those owed: every member does element e
before any does the next (R25), and one that stops leaves nothing of that element done (R29). -/
def runSegment (xs : List Seat) (vst limit vl : Nat) (w : Work) : MOut :=
  let start := xs.foldl (fun a x => min a ((x.owed.map (·.1)).getD vst)) vst
  let r := elementLoop (fun w e => do
    let w1 ← xs.foldlM (Seat.element vst e) w
    w1.compare e) (limit - start) start w
  if r.stop.isNone && limit == vl then
    match runWhole xs vl (xs.foldl (Seat.close vst) r.w) with
    | .ok w1 => { w := w1, stop := none }
    | .error x => { w := r.w, stop := some (vl, x) }
  else r

/-- The port values that a member takes for the elements that passed while it was not judged (R150, R182). -/
def Seat.catchUp (w : Work) (x : Seat) : Except Stop Work :=
  match x.late, x.m.ports with
  | some (_, n), q :: _ => do
    let r ← takeMany x.me q (n * x.m.takes) w
    .ok r.2.2
  | _, _ => .ok w

/-! ## A convoy (R25, R26, R29) -/

/-- What a pass found at a run: the files as its members found them, the members that ran, those not judged yet, and the element up
to which it went. -/
structure RunOut where
  files : Files
  ran : List Nat
  ghosts : List Nat
  upto : Nat

/-- What one pass over a convoy's runs gives: the work, the element it came to with why it stopped there, what it found at each run,
and the members judged on masks of the convoy. -/
structure Pass where
  w : Work
  stop : Option (Nat × Stop)
  /-- No check before element 0 stopped it. -/
  begun : Bool
  runs : List RunOut
  fates : List (Nat × Bool)

/-- The members of a run with their fates: the dropped ones are left out, those not judged yet keep what they read. -/
def Seat.seated (fate : Option Bool) (x : Seat) : Option Seat :=
  match fate with
  | some true => none
  | some false => some x
  | none => some { x with ghost := true }

/-- The runs of a convoy one after the other, each up to the lowest element at which an earlier one stopped; one that shifts down a mask
of an earlier run, and what follows it, up to the element before that (R171). `known` holds, for a second pass, what the first one
found at each run. -/
def passOver (js : FMap (Option Bool)) (vst vl : Nat) (known : List RunOut) (ys : List Seat) :
    List (List Seat) → Nat → Option (Nat × Stop) → Work → Pass
  | [], _, stop, w => { w := w, stop := stop, begun := true, runs := [], fates := [] }
  | xs :: rest, limit, stop, w =>
    let w0 := { w with view := known.head?.map (·.files) }
    let upto := if limit < vl && xs.any (fun x => ys.any fun y => x.m.ahead.any y.m.mw.contains) then limit - 1 else limit
    let fateOf (x : Seat) : Option Bool := match known.head? with
      | some k => if k.ran.contains x.me.place then some false else if k.ghosts.contains x.me.place then none else some true
      | none => x.fate ys js vl upto w0
    let all := xs.filterMap fun x => x.seated (fateOf x)
    let go := all.filter (!·.ghost)
    let found : RunOut :=
      { files := w0.seen.fil, ran := go.map (·.me.place), ghosts := (all.filter (·.ghost)).map (·.me.place), upto := upto }
    let fates := (xs.filter (·.lateMask ys)).filterMap fun x => (fateOf x).map fun b => (x.me.place, b)
    let halt (e : Nat) (x : Stop) : Pass := { w := w, stop := some (e, x), begun := false, runs := [found], fates := fates }
    match if known.isEmpty then memberChecks vst w0 (go.filter (·.lateMask ys)) else none with
    | some r => halt 0 r.2
    | none =>
      match (go.filter (·.opens vst)).foldlM (fun (w : Work) (x : Seat) => x.m.pre w) w0 with
      | .error (.fault c a) => halt 0 (.fault c a)
      | .error x => halt vst x
      | .ok w1 =>
        let r : MOut := match if vst < upto then go.foldlM Seat.catchUp w1 else .ok w1 with
          | .ok w2 => runSegment all vst upto vl w2
          | .error x => { w := w1, stop := some (vst, x) }
        let p := match r.stop with
          | some (e, x) => passOver js vst vl (known.drop 1) (ys ++ xs) rest (min e upto) (some (e, x)) { r.w with view := none }
          | none => passOver js vst vl (known.drop 1) (ys ++ xs) rest upto stop { r.w with view := none }
        { p with runs := found :: p.runs, fates := fates ++ p.fates }

/-- The elements that a member of a run which went up to `upto` owes below the element `el` at which its convoy stopped. -/
def Seat.owes (vst upto el : Nat) (x : Seat) : Option (Nat × Nat) :=
  let es := (List.range el).filter fun e => decide (upto ≤ e) && x.due vst e
  es.head?.map fun a => (a, a + es.length)

/-- What a convoy needs after a fault at element el: the members judged, those not judged yet with their port values, the elements
owed. -/
def Pass.progress (p : Pass) (js : FMap (Option Bool)) (ms : List Seat) (vst el : Nat) : Progress :=
  let owed (r : RunOut) : List (Nat × Option (Nat × Nat)) :=
    (ms.filter fun x => !x.m.isWhole && (r.ran ++ r.ghosts).contains x.me.place).map fun x => (x.me.place, x.owes vst r.upto el)
  let late (r : RunOut) : List (Nat × Option (Nat × Nat)) :=
    (ms.filter fun x => r.ghosts.contains x.me.place).map fun x =>
      (x.me.place, some (r.upto, (x.late.map (·.2)).getD 0 + (r.upto - vst)))
  let put {α : Type} [DecidableEq α] (m : FMap (Option α)) (l : List (Nat × Option α)) : FMap (Option α) :=
    l.foldl (fun m x => FMap.set none m x.1 x.2) m
  { judged := put js (p.fates.map fun f => (f.1, some f.2))
    rows := p.w.rows, short := none, late := put [] (p.runs.flatMap late), owed := put [] (p.runs.flatMap owed), pend := [], ahead := p.w.ahead }

/-- What an execution of a convoy gives: the work, what it needs to go on, and the element at which it stopped with why, none where it
completed. -/
structure ConvoyRun where
  w : Work
  prog : Progress
  stop : Option (Nat × Stop)

/-- The members before one that waits for its witness go on without it as far as element 0: a fault of theirs there is raised, and a
store's element 0 is sent (R29, R235; log 14). -/
def runAhead (js : FMap (Option Bool)) (ms : List Seat) (w : Work) : Except Stop Work :=
  let before := ms.takeWhile fun x => !(x.opens 0 && match x.m.pre w with
    | .error (.stall none) => true
    | _ => false)
  (before.filter fun x => !x.m.isWhole && FMap.get none js x.me.place == some false).foldlM (Seat.element 0 0) w

/-- A convoy whose member waits for its witness. -/
def waitAhead (js : FMap (Option Bool)) (ms : List Seat) (e : VEntry) (prog : Progress) (w : Work) : ConvoyRun :=
  match runAhead js ms w with
  | .error (.fault c a) => { w := w, prog := prog, stop := some (0, .fault c a) }
  | .error x => { w := w, prog := prog, stop := some (0, x) }
  | .ok w1 =>
    if w.ahead || !ms.any (·.m.plain) then { w := w, prog := prog, stop := some (0, .stall none) }
    else
      let g1 := { w.g with ord := w1.g.ord }
      { w := { w with s := w1.s, g := if e.vl == 1 then g1.markSent e.seq else g1, ahead := true }
        prog := { prog with ahead := true }, stop := some (0, .stall none) }

/-- The runs of a convoy, and whether it may rest between two elements: only a whole-vector member follows its first run. -/
def convoyRuns (ms : List Seat) : List (List Seat) × Bool :=
  let runs := segments [] ms
  (runs, (runs.drop 1).all fun r => r.all (·.m.isWhole))

/-- A convoy executed from vst (R29, R350) up to an element: the checks before element 0 first; then its elements. A fault at element e
leaves the elements below e done by every member, whatever run it is in. A wait leaves what is done below it, or nothing where a
later run depends on a finished earlier one. -/
def runTo (s : State) (core slot : Nat) (g : Group) (e : VEntry) (upset : Option Nat) (cap : Nat) : ConvoyRun :=
  let ms := entryMembers s core slot g e
  let js := judge e g [] ms
  let w0 : Work := { s := s, g := g, flags := 0, xreg := none, pend := e.prog.pend, rows := e.prog.rows, view := none, upset := upset,
                     ahead := e.prog.ahead }
  let vst := min g.vec.vst e.vl
  let now := ms.zip (List.range ms.length) |>.filterMap fun p =>
    if p.1.lateMask (ms.take p.2) || FMap.get none js p.1.me.place == some true then none else some p.1
  let prog0 := { e.prog with judged := js, short := none }
  let flush (w : Work) : Work := ms.foldl (fun w x => x.m.flush w) w
  match memberChecks vst w0 now with
  | some r => { w := w0, prog := prog0, stop := some (0, r.2) }
  | none =>
    let (runs, rests) := convoyRuns ms
    let p := passOver js vst e.vl [] [] (if cap < e.vl then runs.take 1 else runs) (min cap e.vl) none w0
    let partly (w : Work) : Progress := { prog0 with rows := w.rows, pend := w.pend, ahead := w.ahead }
    match p.stop with
    | none =>
      if cap < e.vl then { w := p.w, prog := partly p.w, stop := some (cap, .stall none) }
      else { w := flush p.w, prog := .fresh, stop := none }
    | some (el, x) =>
      match x with
      | .fault _ _ =>
        if !p.begun then { w := w0, prog := prog0, stop := some (el, x) }
        else
          let w := if e.vl ≤ el || runs.length ≤ 1 then p.w else (passOver js vst e.vl p.runs [] runs el none w0).w
          { w := flush w, prog := { p.progress js ms vst el with rows := w.rows }, stop := some (el, x) }
      | _ =>
        let short := match x with
          | .dry q => some q
          | _ => none
        if !p.begun then
          if vst == 0 && x == .stall none then waitAhead js ms e prog0 w0 else { w := w0, prog := prog0, stop := some (el, x) }
        else if e.vl ≤ el || rests then { w := p.w, prog := { partly p.w with short := short }, stop := some (el, x) }
        else { w := w0, prog := { prog0 with short := short }, stop := some (vst, x) }

/-- A convoy executed as far as it comes, with an upset of its lanes at an element or without one. -/
def runUpset (s : State) (core slot : Nat) (g : Group) (e : VEntry) (upset : Option Nat) : ConvoyRun := runTo s core slot g e upset e.vl

/-- The head of a group's vector queue replaced. -/
def Group.setHead (g : Group) (e : VEntry) (rest : List VEntry) : Group := { g with que := { g.que with vq := e :: rest } }

/-- Values that fetches found faulty go when a convoy stops at a fault, so that its next run reads them anew (R215, R274, R353). -/
def Group.dropFaulty (g : Group) : Group :=
  { g with fil := { g.fil with
      ports := g.fil.ports.map fun e => (e.1, { e.2 with fetched := e.2.fetched.takeWhile (·.fault.isNone) }) } }

/-- What an execution of the head of a group's vector queue leaves behind. -/
def settleConvoy (core slot : Nat) (e : VEntry) (rest : List VEntry) (r : ConvoyRun) : State :=
  let w := r.w
  match r.stop with
  | none =>
    let g1 := w.g.setHead { e with begun := true, prog := r.prog, done := some { flags := w.flags, xreg := w.xreg } } rest
    w.s.setGroup core slot (if e.seq == 0 then g1 else g1.markSent e.seq)
  | some (el, x) =>
    let g1 := { w.g.fold w.flags with vec := { (w.g.fold w.flags).vec with vst := el } }
    let head (begun : Bool) (g : Group) : Group := g.setHead { e with begun := begun, prog := r.prog } rest
    match x with
    | .stall cut =>
      let s1 := w.s.setGroup core slot (head true g1)
      match cut with
      | some t => askCut s1 t
      | none => s1
    | .dry _ => w.s.setGroup core slot (head true g1)
    | .fault code addr =>
      recordFault w.s core slot (head false g1.dropFaulty)
        { serial := e.serial, code := code, src := 1, pc := e.pc, addr := addr, elem := el }

/-- The head convoy of a group's vector queue executes, with an upset of its lanes at an element or without one. -/
def executeUpset (s : State) (core slot : Nat) (g : Group) (e : VEntry) (rest : List VEntry) (upset : Option Nat) : State :=
  settleConvoy core slot e rest (runUpset s core slot g e upset)

/-- The head convoy of a group's vector queue executes. -/
def executeVector (s : State) (core slot : Nat) (g : Group) (e : VEntry) (rest : List VEntry) : State :=
  executeUpset s core slot g e rest none

/-- The head convoy executes up to a beat boundary, where it may rest between two elements (R250, R354). -/
def executeBeats (s : State) (core slot : Nat) (g : Group) (e : VEntry) (rest : List VEntry) (cap : Nat) : State :=
  if cap < e.vl && decide (g.vec.vst < cap) && (convoyRuns (entryMembers s core slot g e)).2 then
    settleConvoy core slot e rest (runTo s core slot g e none cap)
  else s

/-- Updates of a reduction at memory that its convoy still holds are sent (R29, R241). -/
def flushHead (s : State) (core slot : Nat) : State :=
  match s.group? core slot with
  | none => s
  | some g =>
    match g.que.vq with
    | e :: rest =>
      if e.prog.pend.isEmpty then s
      else
        let w0 : Work := { s := s, g := g, flags := 0, xreg := none, pend := e.prog.pend, rows := [], view := none, upset := none }
        let w := (entryMembers s core slot g e).foldl (fun w x => x.m.flush w) w0
        w.s.setGroup core slot ((w.g.fold w.flags).setHead { e with prog := { e.prog with pend := [] } } rest)
    | [] => s

/-- Whether executing the head would get anywhere: it completes, faults, passes its present element, sends a store ahead, or comes to want
another port's value (R235, R272). -/
def vectorMoves (s : State) (core slot : Nat) (g : Group) (e : VEntry) : Bool :=
  let r := runUpset s core slot g e none
  match r.stop with
  | none => true
  | some (el, .stall cut) =>
    decide (g.vec.vst < el) || (cut.isSome && !(match cut.bind s.team with | some t => t.cut | none => true))
      || (r.prog.ahead && !e.prog.ahead)
  | some (el, .dry q) => decide (g.vec.vst < el) || e.prog.short != some q
  | some (_, .fault _ _) => true

end Sys2Proof.Machine
end

