-- ==== Sys2Proof/Machine/Control.lean ====
section
/-! DEFINITION. Branches, jumps, SYS operations and the vector type (R135 to R143, R146 to R148). -/

namespace Sys2Proof.Machine

/-! ## Branches (R135 to R137) -/

/-- The address so many words from the present one. -/
def wordsFrom {n : Nat} (pc : Word) (off : BitVec n) : Word := pc + off.signExtend 64 * 4

/-- A conditional branch. -/
def branchIf (s : State) (a b : BitVec 5) (o : BitVec 15) (c : Word → Word → Bool) : Out :=
  withRegs s [a.toNat, b.toNat] fun g =>
    if c (g.x a.toNat) (g.x b.toNat) then .next (s.put (g.setPc (wordsFrom g.sca.pc o))) else finish s g

/-- BEQ (R135). -/
def execBeq (a b : BitVec 5) (o : BitVec 15) (s : State) : Out := branchIf s a b o fun x y => x == y

/-- BNE (R135). -/
def execBne (a b : BitVec 5) (o : BitVec 15) (s : State) : Out := branchIf s a b o fun x y => x != y

/-- BLT (R135). -/
def execBlt (a b : BitVec 5) (o : BitVec 15) (s : State) : Out := branchIf s a b o fun x y => x.slt y

/-- BGE (R135). -/
def execBge (a b : BitVec 5) (o : BitVec 15) (s : State) : Out := branchIf s a b o fun x y => !(x.slt y)

/-- BLTN (R135). -/
def execBltn (a b : BitVec 5) (o : BitVec 15) (s : State) : Out := branchIf s a b o fun x y => x.ult y

/-- BGEN (R135). -/
def execBgen (a b : BitVec 5) (o : BitVec 15) (s : State) : Out := branchIf s a b o fun x y => !(x.ult y)

/-- JAL (R136). -/
def execJal (o : BitVec 25) (s : State) : Out :=
  withBoundary s fun g => .next (s.put ((g.setX 1 (g.sca.pc + 4)).setPc (wordsFrom g.sca.pc o)))

/-- JALR (R136). -/
def execJalr (d a : BitVec 5) (i : BitVec 15) (s : State) : Out :=
  withRegs s [a.toNat] fun g =>
    let target := (g.x a.toNat + i.signExtend 64) &&& ~~~3#64
    .next (s.put ((g.setX d.toNat (g.sca.pc + 4)).setPc target))

/-- Whether a queued instruction writes a mask (R18). -/
def maskQueued (s : State) (core slot : Nat) (g : Group) (m : Nat) : Bool :=
  g.que.vq.any fun e => (entryMembers s core slot g e).any fun p => p.m.mw.contains m

/-- BMZ and BMNZ: the drain to the mask's writers, and the branch (R18, R137, R420). -/
def branchMask (s : State) (m : BitVec 5) (o : BitVec 15) (onZero : Bool) : Out :=
  withBoundary s fun g =>
    if !g.trp.frozen && maskQueued s s.curCore s.curSlot g m.toNat then waitHere s g (.drain (.mask m.toNat))
    else if g.allFalse m.toNat == onZero then .next (s.put (g.setPc (wordsFrom g.sca.pc o)))
    else finish s g

/-- BMZ (R137). -/
def execBmz (m : BitVec 5) (o : BitVec 15) (s : State) : Out := branchMask s m o true

/-- BMNZ (R137). -/
def execBmnz (m : BitVec 5) (o : BitVec 15) (s : State) : Out := branchMask s m o false

/-! ## SYS operations (R138 to R143) -/

/-- TRAP: trap-instruction, whose delivery saves the next word as the resume address (R138). -/
def execTrap (_a : BitVec 5) (s : State) : Out :=
  withBoundary s fun g => trapHere s g cTrap 0

/-- BRK (R138). -/
def execBrk (s : State) : Out := withBoundary s fun g => trapHere s g cBreak 0

/-- The end of a firmware core's handler (R352). -/
def clearHandler (s : State) (core : Nat) : State :=
  if isFirmware core then s.setCore core { s.core core with handler := false } else s

/-- RETT (R139, R352). -/
def execRett (s : State) : Out :=
  withGroup s fun g =>
    if g.sca.level = .u then .next (s.put (g.raiseConvoy cPrivileged 0)) else withBoundary s fun g =>
    if g.sca.level = .s && g.trp.tcause.extractLsb' 12 2 == 2 then .next (doubleTrap s g 0 0)
    else .next ((clearHandler s s.curCore).put g.leaveTrap)

/-- The end of a WAITE: the selected bits of the latch are cleared, and the stream goes on (R140). -/
def Group.waiteDone (g : Group) (sel : BitVec 3) : Group :=
  ({ g with sca := { g.sca with latch := g.sca.latch &&& ~~~sel } }).run.advance

/-- WAITE (R140). -/
def execWaite (a : BitVec 5) (s : State) : Out :=
  withRegs s [a.toNat] fun g =>
    let v := g.x a.toNat
    let sel : BitVec 3 := v.truncate 3
    let limit := (v >>> 32).toNat
    if (sel == 0 && limit == 0) || g.sca.latch &&& sel != 0 then .next (s.put (g.waiteDone sel))
    else waitHere s g (.waite sel (if limit == 0 then none else some (s.cyc s.curCore + limit)))

/-- YIELD (R141). -/
def execYield (s : State) : Out :=
  withBoundary s fun g => finish s { g with sca := { g.sca with yieldUntil := s.cyc s.curCore + 16 } }

/-- A vector entry discarded: its store-sequence entries end with nothing further performed (R353). -/
def discardVector (g : Group) (e : VEntry) : Group :=
  let g1 := if e.seq == 0 then g else g.markSent e.seq
  let g2 := if e.notify then g1.markDone (e.seq + 1) else g1
  g2.countDone e.serial

/-- Queue entries that a trap has frozen and that have not begun are discarded (R142 step 2, R353). -/
def Group.discardFrozen (g : Group) : Group :=
  let gone := g.que.vq.filter fun e => !e.begun
  let g1 := gone.foldl discardVector g
  let g2 := (g.que.mq.filter fun e => !e.begun).foldl (fun (g : Group) e => g.countDone e.serial) g1
  let g3 := (g.que.cq.filter fun e => !e.begun).foldl
    (fun (g : Group) e => (if e.seq == 0 then g else g.markSent e.seq).countDone e.serial) g2
  { g3 with
    que := { g3.que with vq := g.que.vq.filter (·.begun), mq := g.que.mq.filter (·.begun), cq := g.que.cq.filter (·.begun) }
    trp := { g3.trp with frozen := false }
    vec := { g3.vec with vst := if gone.isEmpty then g3.vec.vst else 0 } }

/-- EXIT (R142). -/
def execExit (s : State) : Out :=
  withBoundary s fun g =>
    let g1 := if g.sca.level ≠ .u && g.trp.frozen then g.discardFrozen.settleCounts else g
    .next (s.put (g1.setStatus .exiting))

/-- Whether FENCEI's wait is over: wdone has reached wseq - 1 (R143). -/
def Group.allDone (g : Group) : Bool := g.ord.wdone + 1 == g.ord.wseq

/-- The words that FENCEI discards: the core's cached words under the group's asid (R143). -/
def dropWords (s : State) (core asid : Nat) : State :=
  let co := s.core core
  s.setCore core { co with icache := co.icache.filter fun e => e.1 / 2 ^ 46 != asid }

/-- FENCEI (R143). -/
def execFencei (s : State) : Out :=
  withBoundary s fun g =>
    if g.allDone then finish (dropWords s s.curCore (g.trp.asid.truncate 12 : BitVec 12).toNat) g
    else waitHere s g .fencei

/-! ## The vector type (R146 to R148) -/

def Group.setVt (g : Group) (v : BitVec 64) : Group := { g with vec := { g.vec with vt := v } }

/-- SETVT (R146). -/
def execSetvt (d a : BitVec 5) (s : State) : Out :=
  withRegs s [a.toNat] fun g =>
    let v := g.x a.toNat
    if vtValid v then finish s ((g.setX d.toNat g.vec.vt).setVt v) else trapHere s g cUndefined (wordOf (.setvt d a))

/-- SETVTI (R147). -/
def execSetvti (d : BitVec 5) (z : BitVec 1) (r : BitVec 3) (sw : BitVec 4) (e : BitVec 4) (c : BitVec 3) (s : State) : Out :=
  withBoundary s fun g =>
    let v := vtMake c.toNat (e.toNat + 1) (sw.toNat + 1) c.toNat (vtBase g.vec.vt) r.toNat (if z == 1 then 2 else 0) false
    finish s ((g.setX d.toNat g.vec.vt).setVt v)

/-- SETBASE (R148). -/
def execSetbase (d a : BitVec 5) (i : BitVec 15) (s : State) : Out :=
  withRegs s [a.toNat] fun g =>
    let base := (g.x a.toNat).toInt + i.toInt
    if 0 ≤ base && base ≤ 767 then
      let v := (g.vec.vt &&& ~~~0xFFC000#64) ||| (BitVec.ofInt 64 base <<< 14)
      finish s ((g.setX d.toNat g.vec.vt).setVt v)
    else trapHere s g cUndefined (wordOf (.setbase d a i))

end Sys2Proof.Machine
end

