-- ==== Sys2Proof/Machine/ScalarMem.lean ====
section
/-! DEFINITION. Scalar loads, stores and atomics, and the operations on witnesses (R242 to R249, R266, R267). -/

namespace Sys2Proof.Machine

/-- Address of a scalar access of z bytes (R39, R242). -/
def scalarAddr (base : Word) (i : BitVec 10) (z : Nat) : Word := base + i.signExtend 64 * BitVec.ofNat 64 z

/-- The team of a group asked for a checkpoint. -/
def askOwnCut (s : State) (g : Group) : State := if g.idn.team == 0 then s else askCut s g.idn.team

/-- What a witness given to a scalar instruction comes to: it may go on, it faults, or it waits, for a checkpoint of the own
team where the witness covers the team's uncommitted entries (R245, R266). -/
inductive WitnessStep where
  | go
  | fault (code : Nat)
  | wait (cut : Bool)
  deriving DecidableEq, Repr

def witnessStep (s : State) (g : Group) (wit : Word) : WitnessStep :=
  match checkWitness s wit with
  | some c => .fault c
  | none =>
    if waitOver s wit then .go
    else .wait (g.idn.team != 0 && (match s.team g.idn.team with | some t => t.resilient.isSome | none => false)
      && ownTeamWitness s g.idn.team wit)

/-! ## Loads (R242) -/

/-- A scalar load once its operands are read: the witness, the alignment, the access, its checks, the register. -/
def performLoad (s : State) (core slot : Nat) (g : Group) (d : Nat) (addr : Word) (size : Nat) (signed : Bool) (wit : Word) :
    State :=
  let again := g.wait (.load d addr size signed wit)
  match witnessStep s g wit with
  | .fault c => scalarFault s core slot g.run c wit
  | .wait cut => let s1 := s.setGroup core slot again; if cut then askOwnCut s1 g else s1
  | .go =>
    if addr.toNat % size != 0 then scalarFault s core slot g.run cMisaligned addr
    else
      let r := readMem s (ctxOf s core slot g) 0 0 (witKind wit != 0) addr size
      match r.stall with
      | some t => askCut (r.s.setGroup core slot again) t
      | none =>
        match r.fault with
        | some f => scalarFault r.s core slot g.run f.1 f.2
        | none =>
          let v := if signed then BitVec.ofInt 64 (signedOf (8 * size) r.val) else BitVec.ofNat 64 r.val
          r.s.setGroup core slot (g.run.setX d v).advance

/-- A scalar load: its data returns in the same step, or in a step of its own (log 1). -/
def scalarLoad (s : State) (d b w : BitVec 5) (i : BitVec 10) (size : Nat) (signed : Bool) : Out :=
  withRegs s [b.toNat, w.toNat] fun g =>
    let addr := scalarAddr (g.x b.toNat) i size
    let wit := g.x w.toNat
    if s.pace = .lagged then waitHere s g (.load d.toNat addr size signed wit)
    else .next (performLoad s s.curCore s.curSlot g d.toNat addr size signed wit)

/-- LDB (R242). -/
def execLdb (d b w : BitVec 5) (i : BitVec 10) (s : State) : Out := scalarLoad s d b w i 1 true

/-- LDH (R242). -/
def execLdh (d b w : BitVec 5) (i : BitVec 10) (s : State) : Out := scalarLoad s d b w i 2 true

/-- LDW (R242). -/
def execLdw (d b w : BitVec 5) (i : BitVec 10) (s : State) : Out := scalarLoad s d b w i 4 true

/-- LDD (R242). -/
def execLdd (d b w : BitVec 5) (i : BitVec 10) (s : State) : Out := scalarLoad s d b w i 8 true

/-- LDBN (R242). -/
def execLdbn (d b w : BitVec 5) (i : BitVec 10) (s : State) : Out := scalarLoad s d b w i 1 false

/-- LDHN (R242). -/
def execLdhn (d b w : BitVec 5) (i : BitVec 10) (s : State) : Out := scalarLoad s d b w i 2 false

/-- LDWN (R242). -/
def execLdwn (d b w : BitVec 5) (i : BitVec 10) (s : State) : Out := scalarLoad s d b w i 4 false

/-! ## Stores (R242, R267) -/

/-- Flights of one entry that are under way perform at once (R361 step 4). -/
def landEntry (s : State) (core slot seq : Nat) : State := landFlights s fun f => f.of s core slot && f.seq == seq

/-- What a write of a resilient team has to do first (R224, R267, R359). -/
inductive WriteStep where
  | go
  /-- A checkpoint, and the write performs inside it. -/
  | inside
  /-- A checkpoint, and the write performs after it. -/
  | after
  deriving DecidableEq, Repr

def writeStep (s : State) (ctx : Ctx) (refs : List (Nat × Nat × Ref × Word)) : WriteStep :=
  match ctx.team with
  | some t =>
    if t.resilient.isNone then .go
    else if refs.any fun r => !r.2.2.1.local_ && !r.2.2.1.holdable then .inside
    else if mustCut s ctx refs then .after
    else .go
  | none => .go

/-- A scalar store once its operands are read. `inside` is set when it performs inside its team's checkpoint. -/
def performStore (s : State) (core slot : Nat) (g : Group) (addr : Word) (size : Nat) (v : Word) (w : Nat) (inside : Bool) :
    State :=
  let ctx := ctxOf s core slot g
  let sps := spans s ctx .store addr size
  if g.seqFull 1 then scalarFault s core slot g.run cSequence 0
  else if addr.toNat % size != 0 then scalarFault s core slot g.run cMisaligned addr
  else
    match accessFault sps with
    | some f => scalarFault s core slot g.run f.1 f.2
    | none =>
      match writeStep s ctx (spanRefs sps), inside with
      | .inside, false => askOwnCut (s.setGroup core slot (g.wait (.store addr size v w))) g
      | .after, false => askOwnCut (s.setGroup core slot (g.wait (.push .commit))) g
      | _, _ =>
        let a := g.run.takeSerial
        let b := a.1.takeEntry (.plain true)
        let s1 := s.setGroup core slot ((b.1.setX w (s.witness core slot b.2)).advance)
        let s2 := sendBits s1 { ctx := ctx, path := 0, seq := b.2, serial := a.2, l1 := true } sps 0 (8 * size) v.toNat
        if inside then landEntry s2 core slot b.2 else s2

/-- A scalar store. -/
def scalarStore (s : State) (src b w : BitVec 5) (i : BitVec 10) (size : Nat) : Out :=
  withRegs s [src.toNat, b.toNat] fun g =>
    .next (performStore s s.curCore s.curSlot g (scalarAddr (g.x b.toNat) i size) size (g.x src.toNat) w.toNat false)

/-- STB (R242). -/
def execStb (r b w : BitVec 5) (i : BitVec 10) (s : State) : Out := scalarStore s r b w i 1

/-- STH (R242). -/
def execSth (r b w : BitVec 5) (i : BitVec 10) (s : State) : Out := scalarStore s r b w i 2

/-- STW (R242). -/
def execStw (r b w : BitVec 5) (i : BitVec 10) (s : State) : Out := scalarStore s r b w i 4

/-- STD (R242). -/
def execStd (r b w : BitVec 5) (i : BitVec 10) (s : State) : Out := scalarStore s r b w i 8

/-! ## Atomics (R243) -/

/-- The group's part of an atomic at its push: a place in program order, an entry, a count in ac, the witness. -/
def Group.pushAtomic (g : Group) (s : State) (core slot w : Nat) : Group × Nat × Nat :=
  let a := g.takeSerial
  let b := a.1.takeEntry (.plain true)
  ((b.1.countUp 2 a.2).setX w (s.witness core slot b.2), a.2, b.2)

/-- DESIGN CHOICE (log 46): where its d and its witness-out field name one register, the old value stands, being written last.
A returning atomic at its home: the old value is checked as a load's is, and delivered sign-extended (R229, R243). -/
def returnAtomic (s : State) (core slot : Nat) (g : Group) (d : Nat) (addr : Word) (size : Nat) (u : Update) (w : Nat)
    (sps : List Span) (key : Nat) (r : Ref) : State :=
  let s1 := flushSector (touchSpans s (ctxOf s core slot g) true sps) core (key / 48)
  if poisoned s1 (key / 48) then scalarFault s1 core slot g.run cMachine (addr - BitVec.ofNat 64 (key % 48))
  else if r.chk && mismatched s1 (key / 48) then scalarFault s1 core slot g.run cCheck addr
  else
    let p := performUpdate (countAccess s1 core slot key false true) g.idn.team u
    let a := g.run.pushAtomic s core slot w
    let g1 := (a.1.countDone a.2.1).settleCounts.setX d (BitVec.ofInt 64 (signedOf (8 * size) p.2.1))
    (dropSectors p.1 core (updateSectors u)).setGroup core slot g1.advance

/-- An atomic once its operands are read. `now` is set when its access is made: at the prompt pace at once, at the lagged
pace in a step of its own (log 1); `inside` when it performs inside its team's checkpoint. -/
def performAtomic (s : State) (core slot : Nat) (g : Group) (d : Nat) (addr : Word) (size : Nat) (fn : AtomicFn)
    (arg arg2 w : Nat) (now inside : Bool) : State :=
  let ctx := ctxOf s core slot g
  let sps := spans s ctx .atomic addr size
  let again := s.setGroup core slot (g.wait (.atomic d addr size fn arg arg2 w))
  let resilient := match ctx.team with
    | some t => t.resilient.isSome
    | none => false
  if g.seqFull 1 then scalarFault s core slot g.run cSequence 0
  else if 65535 ≤ g.count 2 then s.setGroup core slot (g.wait (.push (.counter 2)))
  else if addr.toNat % size != 0 then scalarFault s core slot g.run cMisaligned addr
  else
    match accessFault sps, spanRefs sps with
    | some f, _ => scalarFault s core slot g.run f.1 f.2
    | none, (key, _, r, _) :: _ =>
      let u : Update := .atomic key size fn arg arg2
      if !r.local_ && decide (2 ≤ r.tier) then scalarFault s core slot g.run cAccess addr
      else if d != 0 then
        match foreignRegion s g.idn.team key with
        | some t => askCut again t
        | none =>
          if resilient && !inside then askOwnCut again g
          else if !now then again
          else returnAtomic s core slot g d addr size u w sps key r
      else
        match writeStep s ctx (spanRefs sps), inside with
        | .inside, false => askOwnCut again g
        | .after, false => askOwnCut (s.setGroup core slot (g.wait (.push .commit))) g
        | _, _ =>
          let a := g.run.pushAtomic s core slot w
          let s1 := touchSpans (s.setGroup core slot a.1.advance) ctx true sps
          let s2 := sendFlight s1
            { core := core, slot := slot, epoch := (s.slot core slot).epoch, path := 0, seq := a.2.2, serial := a.2.1,
              upd := u, l1 := false, held := if inside then 0 else heldBy ctx r, team := ctx.teamId, host := false,
              performed := false }
          if inside then landEntry s2 core slot a.2.2 else s2
    | none, [] => scalarFault s core slot g.run cTranslation addr

/-- AMO (R243). -/
def scalarAtomic (s : State) (d a b w : BitVec 5) (z : BitVec 1) (fn : AtomicFn) : Out :=
  let size := if z == 1 then 8 else 4
  let cas := fn == .cas
  withRegs s ([a.toNat, b.toNat] ++ if cas then [b.toNat + 1] else []) fun g =>
    .next (performAtomic s s.curCore s.curSlot g d.toNat (g.x a.toNat) size fn ((g.x b.toNat).toNat % 2 ^ (8 * size))
      (if cas then (g.x (b.toNat + 1)).toNat % 2 ^ (8 * size) else 0) w.toNat (s.pace = .prompt) false)

/-- AMO_ADD (R243). -/
def execAmoAdd (d a b w : BitVec 5) (z : BitVec 1) (s : State) : Out := scalarAtomic s d a b w z .add

/-- AMO_AND (R243). -/
def execAmoAnd (d a b w : BitVec 5) (z : BitVec 1) (s : State) : Out := scalarAtomic s d a b w z .and

/-- AMO_OR (R243). -/
def execAmoOr (d a b w : BitVec 5) (z : BitVec 1) (s : State) : Out := scalarAtomic s d a b w z .or

/-- AMO_XOR (R243). -/
def execAmoXor (d a b w : BitVec 5) (z : BitVec 1) (s : State) : Out := scalarAtomic s d a b w z .xor

/-- AMO_MIN (R243). -/
def execAmoMin (d a b w : BitVec 5) (z : BitVec 1) (s : State) : Out := scalarAtomic s d a b w z .min

/-- AMO_MAX (R243). -/
def execAmoMax (d a b w : BitVec 5) (z : BitVec 1) (s : State) : Out := scalarAtomic s d a b w z .max

/-- AMO_MINN (R243). -/
def execAmoMinn (d a b w : BitVec 5) (z : BitVec 1) (s : State) : Out := scalarAtomic s d a b w z .minn

/-- AMO_MAXN (R243). -/
def execAmoMaxn (d a b w : BitVec 5) (z : BitVec 1) (s : State) : Out := scalarAtomic s d a b w z .maxn

/-- AMO_SWAP (R243). -/
def execAmoSwap (d a b w : BitVec 5) (z : BitVec 1) (s : State) : Out := scalarAtomic s d a b w z .swap

/-- AMO_CAS (R243). -/
def execAmoCas (d a b w : BitVec 5) (z : BitVec 1) (s : State) : Out := scalarAtomic s d a b w z .cas

/-! ## Witnesses (R246, R247) -/

/-- WLAST (R246). -/
def execWlast (d : BitVec 5) (s : State) : Out :=
  withBoundary s fun g =>
    finish s (g.setX d.toNat (if g.ord.wseq == 1 then 0 else s.witness s.curCore s.curSlot (g.ord.wseq - 1)))

/-- Whether a witness is poisoned, in its form or by a kill (R245). -/
def witPoisonedNow (s : State) (w : Word) : Bool := checkWitness s w == some cWitPoisoned

/-- Whether two witnesses have one origin. -/
def sameOrigin (a b : Word) : Bool := witCore a == witCore b && witSlot a == witSlot b && witEpoch a == witEpoch b

/-- What a merge gives: a value, or a knot of both inputs (R247). -/
inductive Merge where
  | value (w : Word)
  | knot
  deriving DecidableEq, Repr

/-- Rules 2 to 5 of R247; `own` is any witness of the merging group, `rebase` is set for WJOIN. -/
def mergeWitness (s : State) (own a b : Word) (rebase : Bool) : Merge :=
  if witPoisonedNow s a then .value (witPoison a)
  else if witPoisonedNow s b then .value (witPoison b)
  else if witKind a == 0 || witKind b == 0 then
    let o := if witKind a == 0 then b else a
    if rebase && witKind o != 0 && !sameOrigin o own then .knot else .value o
  else if sameOrigin a b && (!rebase || sameOrigin a own) then .value (if witSeq a < witSeq b then b else a)
  else .knot

/-- WJOIN and WMAX (R247, R248). -/
def mergeOp (s : State) (d a b : BitVec 5) (rebase : Bool) : Out :=
  withRegs s [a.toNat, b.toNat] fun g =>
    let x := g.x a.toNat
    let y := g.x b.toNat
    if checkWitness s x == some cWitFormat then trapHere s g cWitFormat x
    else if checkWitness s y == some cWitFormat then trapHere s g cWitFormat y
    else
      match mergeWitness s (s.witness s.curCore s.curSlot 0) x y rebase with
      | .value w => finish s (g.setX d.toNat w)
      | .knot =>
        if g.seqFull 1 then trapHere s g cSequence 0
        else
          let r := g.takeEntry (.knot x y)
          finish s (r.1.setX d.toNat (s.witness s.curCore s.curSlot r.2))

/-- WJOIN (R247). -/
def execWjoin (d a b : BitVec 5) (s : State) : Out := mergeOp s d a b true

/-- WMAX (R247). -/
def execWmax (d a b : BitVec 5) (s : State) : Out := mergeOp s d a b false

/-- WTEST (R246). -/
def execWtest (d a : BitVec 5) (s : State) : Out :=
  withRegs s [a.toNat] fun g =>
    let w := g.x a.toNat
    match checkWitness s w with
    | some c => trapHere s g c w
    | none => finish s (g.setX d.toNat (if resolve s w = .resolved then 1 else 0))

/-- WWAIT, or WSETTLE: the check, the wait, and for WSETTLE the settle (R246). -/
def performWitness (s : State) (core slot : Nat) (g : Group) (w : Word) (settles : Bool) : State :=
  match witnessStep s g w with
  | .fault c => scalarFault s core slot g.run c w
  | .wait cut => let s1 := s.setGroup core slot (g.wait (.witness w settles)); if cut then askOwnCut s1 g else s1
  | .go => (if settles then settle s core else s).setGroup core slot g.run.advance

/-- WWAIT (R246). -/
def execWwait (a : BitVec 5) (s : State) : Out :=
  withRegs s [a.toNat] fun g => .next (performWitness s s.curCore s.curSlot g (g.x a.toNat) false)

/-- WSETTLE (R246). -/
def execWsettle (a : BitVec 5) (s : State) : Out :=
  withRegs s [a.toNat] fun g => .next (performWitness s s.curCore s.curSlot g (g.x a.toNat) true)

/-- WNULL (R246). -/
def execWnull (d : BitVec 5) (s : State) : Out := withBoundary s fun g => finish s (g.setX d.toNat 0)

end Sys2Proof.Machine
end

