-- ==== Sys2Proof/Machine/Barrier.lean ====
section
/-! DEFINITION. Actions on barrier objects: their checks, BINIT, BEXPECT, ARRIVE and BWAIT
(R265, R340 to R348). -/

namespace Sys2Proof.Machine

/-! ## An action at the home (R341, R343) -/

/-- The member whose region a sector lies in, when it is a resilient team other than the one given, whose interval has
written the sector (R266). -/
def foreignLogged (s : State) (team sector : Nat) : Option Nat :=
  match foreignRegion s team (48 * sector) with
  | some t => if (s.team t).any fun u => logged u sector then some t else none
  | none => none

/-- The team whose checkpoint an action on an object waits for: another one whose region holds the object, or the own one when
its undo log has no room (R266, R359). -/
def actionCut (s : State) (core team sector : Nat) : Option Nat :=
  (foreignRegion s team (48 * sector)).orElse fun _ =>
    if logFull s core team sector && !((s.team team).any (·.inside)) then some team else none

/-- What reading an object gives: the state, its sector and contents, or what stops it. -/
def readBarrier (s : State) (core slot : Nat) (g : Group) (addr : Word) (init : Bool) :
    State × Except Stop (Nat × Barrier) :=
  let off := (addr.extractLsb' 0 19).toNat
  if addr.extractLsb' 48 16 != 0xFFFF#16 || off % 48 != 0 then (s, .error (.fault cBarrier addr))
  else
    let sps := spans s (ctxOf s core slot g) .atomic addr 48
    match accessFault sps, spanRefs sps with
    | some f, _ => (s, .error (.fault f.1 addr))
    | none, (key, _, _, _) :: _ =>
      let sector := key / 48
      match foreignLogged s g.idn.team sector with
      | some t => (s, .error (.stall (some t)))
      | none =>
        let s1 := flushSector s core sector
        let b := Barrier.ofNat (sectorData s1 sector).toNat
        let own := match regionTeam s1 key with
          | some (n, _) => n == g.idn.team
          | none => false
        let odd := !init && (!b.ok || (g.resilient && b.flags == 1 && !own))
        -- BINIT reads nothing of a poisoned sector; a sector both poisoned and mismatched gives machine-check; a poisoned one alone gives it after the object's own checks (R350)
        if mismatched s1 sector then (s1, .error (.fault (if poisoned s1 sector then cMachine else cCheck) addr))
        else if odd then (s1, .error (.fault cBarrier addr))
        else if !init && poisoned s1 sector then (s1, .error (.fault cMachine addr))
        else (s1, .ok (sector, b))
    | none, [] => (s, .error (.fault cAccess addr))

/-- A stop of a BAR instruction: its fault, or its wait and the checkpoint that it asks for. -/
def stopBarrier (s : State) (core slot : Nat) (g : Group) (w : Wait) : Stop → State
  | .fault c a => scalarFault s core slot g.run c a
  | .stall t =>
    let s1 := s.setGroup core slot (g.wait w)
    match t with
    | some t => askCut s1 t
    | none => s1
  | .dry _ => s.setGroup core slot (g.wait w)

/-! ## BINIT and BEXPECT (R344) -/

/-- BINIT once its operands are read; into the region of another team that is resilient it performs inside that team's
checkpoint (R359). -/
def performBinit (s : State) (core slot : Nat) (g : Group) (addr v : Word) : State :=
  match readBarrier s core slot g addr true with
  | (s1, .error x) => stopBarrier s1 core slot g (.binit addr v) x
  | (s1, .ok (sector, _)) =>
    let n := (v.extractLsb' 0 32).toNat
    if v >>> 33 != 0 || n == 0 || decide (2 ^ 20 < n) then scalarFault s1 core slot g.run cBarrier addr
    else
      match actionCut s1 core g.idn.team sector with
      | some t => stopBarrier s1 core slot g (.binit addr v) (.stall (some t))
      | none =>
        let b : Barrier :=
          { exp := n, last := g.vec.sc, arr := [0, 0, 0, 0], bytes := [0, 0, 0, 0], flags := v.toNat / 2 ^ 32 % 2, rsv := 0 }
        (writeBarrier s1 g.idn.team sector b true).modGroup core slot fun g => g.run.advance

/-- BINIT (R344). -/
def execBinit (a b : BitVec 5) (s : State) : Out :=
  withRegs s [a.toNat, b.toNat] fun g => .next (performBinit s s.curCore s.curSlot g (g.x a.toNat) (g.x b.toNat))

/-- BEXPECT once its operands are read. -/
def performBexpect (s : State) (core slot : Nat) (g : Group) (addr v : Word) : State :=
  match readBarrier s core slot g addr false with
  | (s1, .error x) => stopBarrier s1 core slot g (.bexpect addr v) x
  | (s1, .ok (sector, b)) =>
    let d := b.ahead g.vec.sc
    if v >>> 30 != 0 || d ≤ 0 then scalarFault s1 core slot g.run cBarrier addr
    else if 4 < d then stopBarrier s1 core slot g (.bexpect addr v) (.stall none)
    else
      match actionCut s1 core g.idn.team sector with
      | some t => stopBarrier s1 core slot g (.bexpect addr v) (.stall (some t))
      | none => (writeBarrier s1 g.idn.team sector (b.addBytes g.vec.sc v.toNat)).modGroup core slot fun g => g.run.advance

/-- BEXPECT (R344). -/
def execBexpect (a b : BitVec 5) (s : State) : Out :=
  withRegs s [a.toNat, b.toNat] fun g => .next (performBexpect s s.curCore s.curSlot g (g.x a.toNat) (g.x b.toNat))

/-! ## ARRIVE (R345) -/

/-- Whether an address is of the local form. -/
def isLocal (a : Word) : Bool := a.extractLsb' 48 16 == 0xFFFF#16

/-- Whether a key is a scratchpad byte. -/
def isPadKey (key : Nat) : Bool := decide (padKey 0 0 ≤ key) && decide (key < padKey 292 0)

/-- Bits above which no indexed element of a base lies in the local space: an index reaches 2^31 bytes either way, around 0 too. -/
def nearLocal (base : Word) : Bool := isLocal (base - 0x8000_0000#64) || isLocal (base + 0x7FFF_FFFF#64) || isLocal base

/-- Whether a member of a convoy may write the local space, by the addresses of its elements (R232, R345). -/
def memberLocal (e : VEntry) (i : Instr) (caps : List Word) : Bool :=
  let base := caps.getD 0 0
  let last (n : Nat) : Word := base + BitVec.ofNat 64 n
  match i with
  | .vsts _ _ _ _ _ _ _ => (List.range e.vl).any fun j => isLocal (base + BitVec.ofNat 64 j * caps.getD 1 0)
  | .vst _ _ _ _ _ _ _ => isLocal base || isLocal (last (e.vl * vtEwd e.vt / 2))
  | .vstseg _ _ _ h _ _ => isLocal base || isLocal (last (e.vl * (h.toNat + 1) * vtEwd e.vt / 2))
  | .vspill _ _ _ => isLocal base || isLocal (last (e.vl * 384))
  | _ => nearLocal base

/-- Whether a queued convoy has a store that writes the local space. -/
def VEntry.writesLocal (e : VEntry) : Bool :=
  e.done.isNone && (e.members.zip e.caps).any fun p => match pushInfo p.1 with
    | some i => i.store && memberLocal e p.1 p.2
    | none => false

/-- Whether a queued matrix entry may write the local space, by the addresses of its box's rows (R193, R197, R345): a row takes at most 8
bytes for each of its values. -/
def MEntry.writesLocal (e : MEntry) : Bool :=
  let near (a : Word) (n : Nat) : Bool := isLocal a || isLocal (a + BitVec.ofNat 64 n)
  e.done.isNone && (match e.instr with
    | .tstacc _ _ b _ =>
      if b == 0 then near e.x (8 * grantOf e.gm * grantOf e.gn)
      else (List.range (validOf e.gm)).any fun i => near (e.x + BitVec.ofNat 64 i * e.y) (8 * validOf e.gn)
    | .tsave _ _ => near e.x (64 + 8 * grantOf e.gm * grantOf e.gn)
    | _ => false)

/-- Where a collective's result goes, as its descriptor says now (R380). -/
def collDst (s : State) (ctx : Ctx) (xa : Word) : Word := BitVec.ofNat 64 (readMem s ctx homePath 2 true (xa + 8) 8).val

/-- Whether a copy-queue entry still may write the local space. -/
def CEntry.writesLocal (s : State) (ctx : Ctx) (e : CEntry) : Bool :=
  e.done.isNone && (match e.op with
    | .copy _ _ _ => isLocal e.xa && !e.allBegun
    | .kick => !e.allBegun
    | .coll fn _ _ _ => isLocal e.xa || ((fn != .cattempt && fn != .cabort) && isLocal (collDst s ctx e.xa))
    | _ => false)

/-- Whether older writes of the group to the local space have still to perform (R345). -/
def localOutstanding (s : State) (core slot : Nat) (g : Group) : Bool :=
  g.que.vq.any (·.writesLocal) || g.que.mq.any (·.writesLocal) || g.que.cq.any (CEntry.writesLocal s (ctxOf s core slot g))
    || g.que.jobs.any (·.toLocal)
    || s.flights.any fun f => f.of s core slot && (updateKeys f.upd).any isPadKey

/-- Workers that an ARRIVE contributes (R345). -/
def arriveCount (g : Group) (k : Nat) : Nat := if k == 0 then 1 else countOnes 1024 (g.mask (k - 1) &&& lowMask g.vec.vl).toNat

/-- ARRIVE of c workers: its stalls, and the action (R345, R348, R359). -/
def performArrive (s : State) (core slot : Nat) (g : Group) (addr : Word) (c : Nat) : State :=
  match readBarrier s core slot g addr false with
  | (s1, .error x) => stopBarrier s1 core slot g (.arrive addr c) x
  | (s1, .ok (sector, b)) =>
    let d := b.ahead g.vec.sc
    if 4 < d || localOutstanding s1 core slot g then stopBarrier s1 core slot g (.arrive addr c) (.stall none)
    else if d ≤ 0 || b.exp < b.arr.getD (g.vec.sc % 4) 0 + c then scalarFault s1 core slot g.run cBarrier addr
    else
      match actionCut s1 core g.idn.team sector with
      | some t => stopBarrier s1 core slot g (.arrive addr c) (.stall (some t))
      | none => (writeBarrier s1 g.idn.team sector (b.addArr g.vec.sc c)).modGroup core slot fun g => g.run.advance

/-- ARRIVE: a poisoned mask word is consumed after the checks of its object (R343, R350); its action is made at once, or at the lagged pace in a step of its own (R345; log 1). -/
def execArrive (a : BitVec 5) (k : BitVec 4) (s : State) : Out :=
  withRegs s [a.toNat] fun g =>
    if k != 0 && !g.trp.frozen && maskQueued s s.curCore s.curSlot g (k.toNat - 1) then waitHere s g (.drain (.mask (k.toNat - 1)))
    else if k != 0 && (List.range g.vec.vl).any fun e => g.badBit (k.toNat - 1) e then
      .next (match readBarrier s s.curCore s.curSlot g (g.x a.toNat) false with
        | (s1, .error x) => stopBarrier s1 s.curCore s.curSlot g (.drain (.mask (k.toNat - 1))) x
        | (s1, .ok _) => scalarFault s1 s.curCore s.curSlot g cMachine 0)
    else if s.pace = .lagged then waitHere s g (.arrive (g.x a.toNat) (arriveCount g k.toNat))
    else .next (performArrive s s.curCore s.curSlot g (g.x a.toNat) (arriveCount g k.toNat))

/-! ## BWAIT (R344, R348) -/

/-- BWAIT for a phase: it returns once LAST has reached the phase and the checkpoint that this started has committed. -/
def performBwait (s : State) (core slot : Nat) (g : Group) (addr : Word) (phase : Nat) : State :=
  match readBarrier s core slot g addr false with
  | (s1, .error x) => stopBarrier s1 core slot g (.bwait addr phase) x
  | (s1, .ok (_, b)) =>
    let held := g.resilient && b.flags == 1 && (match s1.team g.idn.team with | some t => t.cut | none => false)
    if b.reached phase && !held then s1.setGroup core slot g.run.advance
    else stopBarrier s1 core slot g (.bwait addr phase) (.stall none)

/-- BWAIT (R344). -/
def execBwait (a : BitVec 5) (d : BitVec 2) (s : State) : Out :=
  withRegs s [a.toNat] fun g =>
    .next (performBwait s s.curCore s.curSlot g (g.x a.toNat) ((g.vec.sc + 2 ^ 32 - d.toNat) % 2 ^ 32))

end Sys2Proof.Machine
end

