-- ==== Sys2Proof/Machine/TestBlock.lean ====
section
/-! DEFINITION. The test blocks of the firmware cores (R80, R414). -/

namespace Sys2Proof.Machine

/-- States in which a test block drives its target (R80). -/
def TestBlock.busy (t : TestBlock) : Bool := t.stat == 1 || t.stat == 2 || t.stat == 6

def State.setTest (s : State) (fw : Nat) (t : TestBlock) : State :=
  s.setCore (288 + fw) { s.core (288 + fw) with test := t }

/-- CYCLES: counted while a pattern runs, kept otherwise (R80, R414). -/
def testCycles (s : State) (t : TestBlock) : Nat := if t.stat == 2 then min (s.now - t.started) 249999 else t.cnt

/-- SIG: while a pattern runs, the part accumulated so far, which the manual leaves open (R80). -/
def testSig (s : State) (t : TestBlock) : Word := if t.stat == 2 then Config.partialSignature s.now else t.sig

/-- Whether a core holds a live slot. -/
def State.occupied (s : State) (core : Nat) : Bool := !(liveSlots (s.core core)).isEmpty

/-- Whether another firmware core's block drives a core (R80). -/
def testedElsewhere (s : State) (fw target : Nat) : Bool :=
  (List.range 4).any fun i => i != fw && (s.test i).busy && (s.test i).sel == target

/-- START: permitted in states 0, 3, 4 and 5, on a target without live slots that no other block drives; the state becomes
1, CYCLES and SIG 0 (R80, R414). -/
def startTest (s : State) (fw : Nat) (t : TestBlock) : Option State :=
  if !(t.stat == 0 || t.stat == 3 || t.stat == 4 || t.stat == 5) || s.occupied t.sel || testedElsewhere s fw t.sel then none
  else some (s.setTest fw { t with stat := 1, cnt := 0, sig := 0 })

/-- Whether a pattern has run its 250,000 cycles: an abort is then discarded (R80). -/
def TestBlock.over (s : State) (t : TestBlock) : Bool := t.stat == 2 && t.stopAt.isNone && decide (250000 ≤ s.now - t.started)

/-- ABORT: acts in states 1 and 2. A pattern that runs stops within 32 test cycles, and the state is then 5, CYCLES and SIG as they were
reached; the state is 5 at once where none runs (R80, R414; log 15). -/
def abortTest (s : State) (fw : Nat) (t : TestBlock) : State :=
  if t.stat == 1 then s.setTest fw { t with stat := 5 }
  else if t.stat == 2 && t.stopAt.isNone && !t.over s then s.setTest fw { t with stopAt := some (s.now + Config.abortDelay s.tick % 33) }
  else s.setTest fw t

/-- RESETCORE: permitted in state 5; the state becomes 6 (R80, R414). -/
def resetTest (s : State) (fw : Nat) (t : TestBlock) : Option State :=
  if t.stat == 5 then some (s.setTest fw { t with stat := 6, started := s.now }) else none

/-- A write of sctctl, its reserved bits already judged: the fields first, then the actions that the state permits
(R80). -/
def writeTestControl (s : State) (fw : Nat) (v : Word) : Option State :=
  let t := s.test fw
  let start := v.getLsbD 0
  let abort := v.getLsbD 1
  let reset := v.getLsbD 3
  let t1 := { t with abtpri := (v.extractLsb' 8 4).toNat, abten := v.getLsbD 2 }
  if start && reset then none
  else if start then startTest s fw t1
  else if reset then resetTest s fw t1
  else if abort then some (abortTest s fw t1)
  else some (s.setTest fw t1)

end Sys2Proof.Machine
end

