-- ==== Sys2Proof/Machine/ControlRegs.lean ====
section
/-! DEFINITION. Control registers: numbers and views, reads, writes under the access rules, the waits of R65, epoch writes
(R63 to R80, R144, R259, R420). -/

namespace Sys2Proof.Machine

/-! ## Numbers (R63, R66, R80) -/

/-- Registers with an unprivileged number. -/
def sharedNumbers : List Nat :=
  [0x000, 0x001, 0x002, 0x003, 0x004, 0x005, 0x006, 0x008, 0x009, 0x00A, 0x00B, 0x010, 0x011, 0x018, 0x019, 0x01A,
   0x01B, 0x020, 0x021, 0x022, 0x024, 0x025, 0x026, 0x027, 0x028]

/-- Registers with a privileged number only. -/
def privilegedNumbers : List Nat :=
  [0x200, 0x201, 0x202, 0x203, 0x204, 0x205, 0x206, 0x207, 0x210, 0x211, 0x2C0, 0x2C1]

/-- Whether a number is assigned on a core. -/
def assigned (core num : Nat) : Bool :=
  if num < 0x100 then sharedNumbers.contains num
  else if num < 0x200 then sharedNumbers.contains (num - 0x100)
  else privilegedNumbers.contains num || (isFirmware core && decide (0x300 ≤ num) && decide (num ≤ 0x306))

/-- Whether a number names the privileged view, and the register's own number. -/
def privView (num : Nat) : Bool := decide (0x100 ≤ num)
def baseNumber (num : Nat) : Nat := if 0x100 ≤ num && num < 0x200 then num - 0x100 else num

/-! ## Reads -/

/-- The test block's registers as they read (R80). -/
def readTest (s : State) (core num : Nat) : Word :=
  let t := s.test (core - 288)
  if num == 0x300 then BitVec.ofNat 64 t.sel
  else if num == 0x301 then BitVec.ofNat 64 (t.abtpri * 2 ^ 8 + if t.abten then 4 else 0)
  else if num == 0x302 then BitVec.ofNat 64 t.stat
  else if num == 0x303 then BitVec.ofNat 64 (testCycles s t)
  else if num == 0x304 then testSig s t
  else if num == 0x305 then t.exp
  else t.gen

/-- swfree (R79). -/
def swfreeImage (s : State) (core : Nat) : Word := BitVec.ofNat 64 ((claimedBanks s core).foldl (fun a b => a - 2 ^ b) 0xFF)

/-- The value of a register with an unprivileged number, in either view (R67 to R76, R79). -/
def readShared (s : State) (core slot : Nat) (g : Group) (priv : Bool) (n : Nat) : Word :=
  let nat (x : Nat) : Word := BitVec.ofNat 64 x
  if n == 0x000 then nat g.vec.vl
  else if n == 0x001 then nat g.vec.vlmax
  else if n == 0x002 then g.vec.vt
  else if n == 0x003 then nat g.vec.vst
  else if n == 0x004 then nat g.vec.sc
  else if n == 0x005 then g.vec.fs
  else if n == 0x006 then nat g.mzf
  else if n == 0x008 then g.gra.gm.zeroExtend 64
  else if n == 0x009 then g.gra.gn.zeroExtend 64
  else if n == 0x00A then g.gra.gk.zeroExtend 64
  else if n == 0x00B then g.gra.gf.zeroExtend 64
  else if n == 0x010 then nat g.ord.wseq
  else if n == 0x011 then nat g.ord.wdone
  else if 0x018 ≤ n && n ≤ 0x01B then nat (g.count (n - 0x018))
  else if n == 0x020 then g.ord.pw
  else if n == 0x021 then g.ord.gate
  else if n == 0x022 then g.ord.gcons
  else if n == 0x024 then (if priv then clsImage s core slot g else clsImage s core slot g &&& 0x3F_FFFF#64)
  else if n == 0x025 then nat (s.cyc core)
  else if n == 0x026 then nat g.idn.gpri
  else if n == 0x027 then gidImage core slot g.idn
  else g.idn.tattr.zeroExtend 64

/-- The value of a register with a privileged number only (R77 to R79). -/
def readPrivileged (s : State) (core : Nat) (g : Group) (n : Nat) : Word :=
  if n == 0x200 then g.trp.trpc
  else if n == 0x201 then g.trp.tres
  else if n == 0x202 then g.trp.tcause
  else if n == 0x203 then g.trp.taddr
  else if n == 0x204 then g.trp.telem
  else if n == 0x205 then g.trp.tvec
  else if n == 0x206 then g.trp.tsv0
  else if n == 0x207 then g.trp.tsv1
  else if n == 0x210 then g.trp.ptb
  else if n == 0x211 then g.trp.asid
  else if n == 0x2C0 then BitVec.ofNat 64 (coreidImage core)
  else if n == 0x2C1 then swfreeImage s core
  else readTest s core n

/-- The value of a control register in the view that its number selects. -/
def readControl (s : State) (core slot : Nat) (g : Group) (num : Nat) : Word :=
  if num < 0x200 then readShared s core slot g (privView num) (baseNumber num) else readPrivileged s core g num

/-- Whether an MFCR has to wait for a producer (R18, R420). -/
def readWaits (s : State) (core slot : Nat) (g : Group) (num : Nat) : Bool :=
  let n := baseNumber num
  !g.trp.frozen
    && ((n == 0x005 && !(g.que.vq.isEmpty && g.que.mq.isEmpty))
      || (n == 0x006 && (List.range 12).any fun m => maskQueued s core slot g m)
      || (n == 0x003 && !g.que.vq.isEmpty))

/-- What decoding an MFCR or MTCR refuses on this core and level (R63, R80, R144). -/
def controlFault (core : Nat) (lev : Level) (num : Nat) : Option Nat :=
  if !assigned core num then some cUndefined
  else if lev = .u && privView num then some cPrivileged
  else none

/-- MFCR (R144). -/
def execMfcr (d : BitVec 5) (n : BitVec 10) (s : State) : Out :=
  withGroup s fun g =>
    match controlFault s.curCore g.sca.level n.toNat with
    | some c => .next (s.put (g.raiseConvoy c (if c == cUndefined then wordOf (.mfcr d n) else 0)))
    | none =>
      withBoundary s fun g =>
        if readWaits s s.curCore s.curSlot g n.toNat then waitHere s g (.drain
            (if baseNumber n.toNat == 0x005 then .flags else if baseNumber n.toNat == 0x006 then .masks else .vst))
        else finish s (g.setX d.toNat (readControl s s.curCore s.curSlot g n.toNat))

/-! ## Writes (R64) -/

/-- Bits of a register that MTCR may change, in a view. -/
def writable (priv : Bool) (n : Nat) : Word :=
  if n == 0x004 then 0xFFFF_FFFF
  else if n == 0x005 then 0x1_03FF
  else if n == 0x020 then 0xFFFF_FFFF_FFF8
  else if !priv then 0
  else if n == 0x000 || n == 0x003 then 0x7FF
  else if n == 0x002 then 0x3FFF_FFFF
  else if n == 0x008 || n == 0x009 || n == 0x00A then 0xFFFF_FFFF
  else if n == 0x00B then 0xFFF
  else if n == 0x021 then 0xFFFF_FFFF_FFFF_FFF9
  else if n == 0x022 then 0xFFFF_FFFF_FFFF_FFFF
  else if n == 0x024 then 0xFFFF_0000_0000
  else if n == 0x026 then 0xF
  else if n == 0x200 || n == 0x201 then 0xFFFF_FFFF_FFFF_FFFC
  else if n == 0x202 then 0x37FF
  else if n == 0x203 || n == 0x206 || n == 0x207 then 0xFFFF_FFFF_FFFF_FFFF
  else if n == 0x204 then 0x7FF
  else if n == 0x205 then 0xFFFF_FFFF_F000
  else if n == 0x210 then 0xF_FFFF_FFFF_C000
  else if n == 0x211 then 0xFFF
  else 0

/-- The ranges of written fields (R67, R68, R70 to R73, R77). -/
def inRange (g : Group) (n : Nat) (v : Word) : Bool :=
  let x := v.toNat
  if n == 0x000 then decide (x ≤ g.vec.vlmax)
  else if n == 0x002 then vtValid v
  else if n == 0x003 then
    decide (x ≤ (match g.que.vq with | e :: _ => if g.trp.frozen then e.vl else g.vec.vl | [] => g.vec.vl))
  else if n == 0x008 || n == 0x009 || n == 0x00A then decide (x / 2 ^ 16 % 2 ^ 16 ≤ x % 2 ^ 16)
  else if n == 0x00B then decide (x % 16 ≤ 10) && decide (x / 16 % 16 ≤ 2) && decide (x / 2 ^ 8 % 4 ≤ 2)
  else if n == 0x024 then decide (1 ≤ x / 2 ^ 32 % 32) && decide (x / 2 ^ 32 % 32 ≤ 16)
  else if n == 0x202 then decide (x / 2 ^ 12 % 4 ≤ 2) && decide (x / 2 ^ 8 % 8 ≤ 5)
  else true

/-- The write of the EPOCH and SHARE fields of cls (R74, R259). -/
def writeCls (s : State) (core slot : Nat) (g : Group) (v : Word) : Option State :=
  let e := (v.extractLsb' 37 11).toNat
  let sl := s.slot core slot
  let g1 := { g with idn := { g.idn with share := (v.extractLsb' 32 5).toNat } }
  if e == sl.epoch % 2048 then some (s.setGroup core slot g1)
  else if !g.allDone || sl.away.getLsbD e then none
  else
    let one : BitVec 2048 := 1#2048 <<< e
    let g2 := { g1 with ord := { g1.ord with wseq := 1, wdone := 0, entries := [] } }
    some (s.setSlot core slot { sl with epoch := e, killed := sl.killed &&& ~~~one, group := some g2 })

/-- A write of a group's register whose value passed R64. -/
def writeGroupReg (g : Group) (n : Nat) (v : Word) : Group :=
  if n == 0x000 then { g with vec := { g.vec with vl := v.toNat } }
  else if n == 0x002 then g.setVt v
  else if n == 0x003 then { g with vec := { g.vec with vst := v.toNat } }
  else if n == 0x004 then { g with vec := { g.vec with sc := v.toNat } }
  else if n == 0x005 then { g with vec := { g.vec with fs := v } }
  else if n == 0x008 then { g with gra := { g.gra with gm := v.truncate 32 } }
  else if n == 0x009 then { g with gra := { g.gra with gn := v.truncate 32 } }
  else if n == 0x00A then { g with gra := { g.gra with gk := v.truncate 32 } }
  else if n == 0x00B then { g with gra := { g.gra with gf := v.truncate 12 } }
  else if n == 0x020 then { g with ord := { g.ord with pw := v } }
  else if n == 0x021 then { g with ord := { g.ord with gate := v } }
  else if n == 0x022 then { g with ord := { g.ord with gcons := v } }
  else if n == 0x026 then { g with idn := { g.idn with gpri := v.toNat } }
  else if n == 0x200 then { g with trp := { g.trp with trpc := v } }
  else if n == 0x201 then { g with trp := { g.trp with tres := v } }
  else if n == 0x202 then { g with trp := { g.trp with tcause := v } }
  else if n == 0x203 then { g with trp := { g.trp with taddr := v } }
  else if n == 0x204 then { g with trp := { g.trp with telem := v } }
  else if n == 0x205 then { g with trp := { g.trp with tvec := v } }
  else if n == 0x206 then { g with trp := { g.trp with tsv0 := v } }
  else if n == 0x207 then { g with trp := { g.trp with tsv1 := v } }
  else if n == 0x210 then { g with trp := { g.trp with ptb := v } }
  else if n == 0x211 then { g with trp := { g.trp with asid := v } }
  else g

/-- A write of the test block at level F (R80, R414). -/
def writeTest (s : State) (core num : Nat) (v : Word) : Option State :=
  let fw := core - 288
  let t := s.test fw
  if num == 0x300 then
    if 288 ≤ v.toNat || (t.busy && v.toNat != t.sel) then none else some (s.setTest fw { t with sel := v.toNat })
  else if num == 0x301 then if v &&& ~~~0xF0F#64 != 0 then none else writeTestControl s fw v
  else if num == 0x305 then if t.busy then none else some (s.setTest fw { t with exp := v })
  else if num == 0x306 then if t.busy then none else some (s.setTest fw { t with gen := v })
  else if v == readTest s core num then some s else none

/-- A write of a control register: none where it raises register-access (R64, R80). -/
def writeControl (s : State) (core slot : Nat) (g : Group) (num : Nat) (v : Word) : Option State :=
  let n := baseNumber num
  if 0x300 ≤ num then if g.sca.level = .f then writeTest (s.setGroup core slot g) core num v else none
  else
    let old := readControl s core slot g num
    let rw := writable (privView num) n
    if v &&& ~~~rw != old &&& ~~~rw || (rw != 0 && !inRange g n v) then none
    else if rw == 0 then some (s.setGroup core slot g)
    else if n == 0x024 then writeCls s core slot g v
    else
      let s1 := s.setGroup core slot (writeGroupReg g n v)
      if n == 0x210 then
        let co := s1.core core
        some (s1.setCore core { co with tlb := co.tlb.filter fun e => e.asid != (g.trp.asid.truncate 12 : BitVec 12).toNat })
      else some s1

/-- Whether an MTCR has to wait (R65, R420). DEDUCED (log 44): an MTCR of s_vst outside a trap waits until the vector queue is empty. -/
def writeWaits (g : Group) (num : Nat) : Bool :=
  let n := baseNumber num
  !g.trp.frozen
    && ((n == 0x005 && !(g.que.vq.isEmpty && g.que.mq.isEmpty))
      || (n == 0x020 && g.ord.entries.any fun e => match e.kind with | .notify _ _ => !e.complete | _ => false)
      || ((n == 0x210 || n == 0x211) && !(g.que.vq.isEmpty && g.que.mq.isEmpty && g.que.cq.isEmpty))
      || (n == 0x003 && privView num && !g.que.vq.isEmpty))

/-- MTCR once it waits for nothing: the register is written and the stream goes on, or register-access. -/
def performMtcr (s : State) (core slot : Nat) (g : Group) (num : Nat) (v : Word) : State :=
  match writeControl s core slot g num v with
  | some s1 => s1.modGroup core slot fun g => g.run.advance
  | none => s.setGroup core slot (g.raiseScalar cRegister 0)

/-- MTCR (R144). -/
def execMtcr (a : BitVec 5) (n : BitVec 10) (s : State) : Out :=
  withGroup s fun g =>
    match controlFault s.curCore g.sca.level n.toNat with
    | some c => .next (s.put (g.raiseConvoy c (if c == cUndefined then wordOf (.mtcr a n) else 0)))
    | none =>
      withRegs s [a.toNat] fun g =>
        if writeWaits g n.toNat then waitHere s g (.mtcr n.toNat (g.x a.toNat))
        else .next (performMtcr s s.curCore s.curSlot g n.toNat (g.x a.toNat))

/-- EPOCH_WRITE: the MTCR of s_cls whose EPOCH differs from the current one (R74, R259). -/
def execEpochWrite (a : BitVec 5) (s : State) : Out :=
  withRegs s [a.toNat] fun g =>
    let v := g.x a.toNat
    if g.sca.level = .u then trapHere s g cPrivileged 0
    else if (v.extractLsb' 37 11).toNat == (s.slot s.curCore s.curSlot).epoch % 2048 then .refused (.notEnabled "EPOCH_WRITE")
    else .next (performMtcr s s.curCore s.curSlot g 0x124 v)

/-! ## Ends of the waits (R65) -/

/-- An MTCR that waits goes on, if its wait is for one of the registers named and is over. -/
def endMtcr (s : State) (core slot : Nat) (nums : List Nat) (name : String) : Out :=
  if !s.powered then .fault .poweredOff
  else
    match s.group? core slot with
    | some g =>
      match g.sca.status with
      | .waiting (.mtcr num v) =>
        if nums.contains (baseNumber num) && !writeWaits g num then .next (performMtcr s core slot g.run num v)
        else .refused (.notEnabled name)
      | _ => .refused (.notEnabled name)
    | none => .refused (.notEnabled name)

/-- MTCR_FS (R65); a write of vst, which waits for the vector queue, ends the same way. -/
def execMtcrFs (core slot : Nat) (s : State) : Out := endMtcr s core slot [0x005, 0x003] "MTCR_FS"

/-- MTCR_PW (R65). -/
def execMtcrPw (core slot : Nat) (s : State) : Out := endMtcr s core slot [0x020] "MTCR_PW"

/-- MTCR_PTB (R65, R78). -/
def execMtcrPtb (core slot : Nat) (s : State) : Out := endMtcr s core slot [0x210] "MTCR_PTB"

/-- MTCR_ASID (R65, R78). -/
def execMtcrAsid (core slot : Nat) (s : State) : Out := endMtcr s core slot [0x211] "MTCR_ASID"

end Sys2Proof.Machine
end

