-- ==== Sys2Proof/Machine/Grants.lean ====
section
/-! DEFINITION. Matrix grants: maxima and quanta, the grant algorithm, accumulator storage, SETTILE and VLENQ (R98, R187 to
R192). -/

namespace Sys2Proof.Machine

/-! ## Maxima and quanta (R188, R189) -/

/-- Kb, the block length of an input format (R120). -/
def blockK (ifmt : Nat) : Nat :=
  let b := formatBits ifmt
  if b == 64 then 4 else if 16 ≤ b then 8 else if b == 8 then 16 else 32

/-- Quanta of M and N of a core class. -/
def quantumM (cls : Nat) : Nat := if cls == 0 then 16 else 8
def quantumN : Nat := 8

/-- The M maximum of a class and portion for an accumulator type. -/
def maxM (cls part acc : Nat) : Nat :=
  if cls == 0 then
    if part == 0 then (if acc == 1 then 64 else 128) else if part == 1 then 64 else 32
  else if part == 0 then 16 else 8

/-- The N maximum of the table. -/
def tableN (cls part : Nat) : Nat :=
  if cls == 0 then (if part ≤ 1 then 64 else 32) else if part ≤ 1 then 16 else 8

/-- The K maximum of a class, portion and format. -/
def maxK (cls part ifmt : Nat) : Nat :=
  let b := formatBits ifmt
  if cls == 0 then 1024 / b else if part ≤ 1 then 256 / b else max (blockK ifmt) (128 / b)

/-- Column groups that a core has mapped out, from its core-map entry (R328). -/
def mapOut (s : State) (core : Nat) : Nat :=
  if isFirmware core then 0 else memNat s.mem (Config.cmapBase + 8 * core) 8 / 2 ^ 28 % 16

/-- The N maximum after map-out and protected mode (R189). -/
def maxN (cls part c : Nat) (prot : Bool) : Nat :=
  let nc := if cls == 0 then 64 else 16
  let n := if part ≤ 1 then nc - 8 * c else min (tableN cls part) ((nc - 8 * c) / 16 * 8)
  if prot then n / 16 * 8 else n

/-- The portion granted: the one asked for, or the next larger one whose N maximum is at least 8 (R189). -/
def portionFor (cls c : Nat) (prot : Bool) : Nat → Nat
  | 0 => 0
  | p + 1 => if maxN cls (p + 1) c prot < 8 then portionFor cls c prot p else p + 1

/-- Whether an input format may go with an accumulator type (R187). -/
def pairOk (ifmt acc : Nat) : Bool :=
  if ifmt == 0 then acc == 1 else if ifmt ≤ 6 then decide (acc ≤ 1) else decide (ifmt ≤ 10) && acc == 2

/-- Bytes of an accumulator element (R187). -/
def accBytes (acc : Nat) : Nat := if acc == 1 then 8 else 4

/-! ## Storage (R192) -/

/-- Floor of a slot and shared pool of a class, in units of 1 KiB. -/
def accFloor (cls : Nat) : Nat := if cls == 0 then 4 else 2
def accPool (cls : Nat) : Nat := if cls == 0 then 192 else 16

/-- Units of the shared pool that the groups of a core hold. -/
def accUsed (s : State) (core : Nat) : Nat :=
  (s.core core).slots.foldl (fun a e => a + (match e.2.group with | some g => g.sto.accUnits | none => 0)) 0

/-- Bytes of storage that a group may hold (R192). -/
def accAvail (s : State) (core : Nat) (g : Group) : Nat :=
  let cls := coreClass core
  1024 * (accFloor cls + (accPool cls - accUsed s core) + g.sto.accUnits)

/-- Shared units that a grant needs beyond the floor. -/
def accNeed (cls m n acc : Nat) : Nat := (4 * m * n * accBytes acc + 1023) / 1024 - accFloor cls

/-! ## The algorithm (R190) -/

/-- `dim` of R190: the grant and the valid extent. -/
def grantDim (req mx rem q : Nat) : Nat × Nat :=
  let r := if req == 0 then mx else max req q
  let g := min (min r mx) rem / q * q
  let g := if g < q then q else g
  (g, min g rem)

/-- Halving until the four tiles fit; `fuel` bounds the halvings. -/
def halveDim (q other bytes avail : Nat) : Nat → Nat → Nat
  | 0, g => g
  | fuel + 1, g =>
    if avail < 4 * g * other * bytes && q < g then halveDim q other bytes avail fuel (max q (g / 2 / q * q)) else g

/-- A grant register's image. -/
def grantReg (g v : Nat) : BitVec 32 := BitVec.ofNat 32 (g + v * 2 ^ 16)

/-- An image of gf. -/
def gfImage (ifmt acc part : Nat) (narrowed honoured : Bool) : BitVec 12 :=
  BitVec.ofNat 12 (ifmt + acc * 2 ^ 4 + part * 2 ^ 8 + (if narrowed then 2 ^ 10 else 0) + (if honoured then 2 ^ 11 else 0))

/-- The fields of SETTILE's operands (R187). -/
def tileField (w : Word) (lo len : Nat) : Nat := w.toNat / 2 ^ lo % 2 ^ len

/-- Whether SETTILE's operands are well formed (R187). -/
def tileArgsOk (a b : Word) : Bool :=
  let ifmt := tileField b 48 4
  let acc := tileField b 56 2
  tileField a 48 16 == 0 && tileField b 59 5 == 0 && decide (ifmt ≤ 10) && decide (tileField b 52 4 ≤ 2) && decide (acc ≤ 2)
    && pairOk ifmt acc

/-- The grant that SETTILE computes (R190); none where KEEP meets a forbidden pair. -/
def computeGrant (s : State) (core : Nat) (g : Group) (a b : Word) : Option Grant :=
  let cls := coreClass core
  let prot := g.protected_
  let c := mapOut s core
  let remM := tileField a 0 16
  let remN := tileField a 16 16
  let remK := tileField a 32 16
  let reqM := tileField b 0 16
  let reqN := tileField b 16 16
  let reqK := tileField b 32 16
  let ifmt := tileField b 48 4
  let acc := tileField b 56 2
  let keep := tileField b 58 1 == 1
  if keep && grantOf g.gra.gm != 0 then
    if pairOk ifmt (gfAcc g.gra.gf) then
      let k := grantDim reqK (maxK cls (gfPart g.gra.gf) ifmt) remK (blockK ifmt)
      some { g.gra with
        gk := grantReg k.1 k.2
        gf := gfImage ifmt (gfAcc g.gra.gf) (gfPart g.gra.gf) (gfNarrowed g.gra.gf) (gfHonoured g.gra.gf) }
    else none
  else if remM == 0 || remN == 0 || remK == 0 then some { gm := 0, gn := 0, gk := 0, gf := 0 }
  else
    let part := portionFor cls c prot (tileField b 52 4)
    let mxN := maxN cls part c prot
    let m := grantDim reqM (maxM cls part acc) remM (quantumM cls)
    let n := grantDim reqN mxN remN quantumN
    let k := grantDim reqK (maxK cls part ifmt) remK (blockK ifmt)
    let avail := accAvail s core g
    let bytes := accBytes acc
    let m1 := halveDim (quantumM cls) n.1 bytes avail 16 m.1
    let n1 := halveDim quantumN m1 bytes avail 16 n.1
    some
      { gm := grantReg m1 (min m1 remM), gn := grantReg n1 (min n1 remN), gk := grantReg k.1 k.2,
        gf := gfImage ifmt acc part (decide (mxN < tableN cls part)) false }

/-- Whether a SETTILE changes the geometry (R191). -/
def geometryChanges (old new : Grant) : Bool :=
  grantOf old.gm != grantOf new.gm || grantOf old.gn != grantOf new.gn || gfAcc old.gf != gfAcc new.gf
    || gfPart old.gf != gfPart new.gf || (gfHonoured old.gf && !gfHonoured new.gf)

/-- What SETTILE writes to x d (R190). -/
def grantResult (r : Grant) : Word :=
  BitVec.ofNat 64 (grantOf r.gm + grantOf r.gn * 2 ^ 16 + grantOf r.gk * 2 ^ 32 + gfPart r.gf * 2 ^ 48
    + (if gfNarrowed r.gf then 2 ^ 50 else 0) + (if gfHonoured r.gf then 2 ^ 51 else 0))

/-- Release of the old storage and claim of the new, every tile zero, the latch empty (R191 steps 2 to 4). -/
def Group.regrant (g : Group) (cls : Nat) (r : Grant) : Group :=
  { g with
    gra := r
    sto := { g.sto with accUnits := accNeed cls (grantOf r.gm) (grantOf r.gn) (gfAcc r.gf), honoured := none }
    fil := { g.fil with tiles := [], badTiles := [], latch := none, badLatch := [] } }

/-- SETTILE once its operands are read (R190, R191). -/
def performSettile (s : State) (core slot : Nat) (g : Group) (word : Word) (d : Nat) (a b : Word) : State :=
  match if tileArgsOk a b then computeGrant s core g a b else none with
  | none => s.setGroup core slot (g.raiseScalar cUndefined word)
  | some r =>
    if geometryChanges g.gra r then
      if g.que.mq.isEmpty then
        s.setGroup core slot ((g.run.regrant (coreClass core) r).setX d (grantResult r)).advance
      else s.setGroup core slot (g.wait (.settile d a b))
    else s.setGroup core slot (({ g.run with gra := r }).setX d (grantResult r)).advance

/-- A word of the matrix family on a firmware core is undefined-encoding at decode (R384). -/
def withMatrix (s : State) (word : Word) (f : Group → Out) : Out :=
  withGroup s fun g => if isFirmware s.curCore then .next (s.put (g.raiseConvoy cUndefined word)) else f g

/-- SETTILE (R187, R190). -/
def execSettile (d a b : BitVec 5) (s : State) : Out :=
  withMatrix s (wordOf (.settile d a b)) fun _ => withRegs s [a.toNat, b.toNat] fun g =>
    .next (performSettile s s.curCore s.curSlot g (wordOf (.settile d a b)) d.toNat (g.x a.toNat) (g.x b.toNat))

/-- VLENQ (R98). -/
def execVlenq (d a : BitVec 5) (s : State) : Out :=
  withRegs s [a.toNat] fun g =>
    let count := min (g.x a.toNat).toNat 768
    finish s (g.setX d.toNat (BitVec.ofNat 64 (((count + 1) / 2 * g.vec.vlmax + 47) / 48 * 48)))

end Sys2Proof.Machine
end

