-- ==== Sys2Proof/Machine/Copy.lean ====
section
/-! DEFINITION. The scalar pipeline's part of the copy-queue instructions: COPY, CKICK, QOP and COLL are pushed with what they
read and the grant in force (R16, R19, R268, R278 to R289, R379). What the request engine then does is in Copies.lean, Ports.lean
and Collective.lean. -/

namespace Sys2Proof.Machine

/-- A copy-queue entry captured at push (R268): registers `d` and, where `pair`, d + 1; `a` and `b`. -/
def copyEntry (g : Group) (serial : Nat) (word : Nat) (op : CopyOp) (d a b : Nat) (pair : Bool) (seq : Nat) : CEntry :=
  { serial := serial, pc := g.sca.pc, word := BitVec.ofNat 64 word, op := op, xd := g.x d, xd1 := if pair then g.x (d + 1) else 0,
    xa := g.x a, xb := g.x b, gm := g.gra.gm, gn := g.gra.gn, gk := g.gra.gk, gf := g.gra.gf, seq := seq, begun := false,
    next := 0, allBegun := false, done := none }

/-- The push of a copy-queue word: `cls` is the counter it adds to, 4 for none; `takes` says whether it takes a store-sequence
entry; `tag` is the register it will write, 0 for none. -/
def pushCopy (s : State) (word : Nat) (op : CopyOp) (d a b : Nat) (pair : Bool) (cls : Nat) (takes : Group → Bool) (tag : Nat) : Out :=
  pushOne s ([d, a, b] ++ if pair then [d + 1] else [])
    (fun g => if 16 ≤ g.que.cq.length then some (.queue .copy) else if cls != 4 && 65535 ≤ g.count cls then some (.counter cls) else none) (fun g => if takes g then 1 else 0)
    fun g serial =>
      let r : Group × Nat := if takes g then g.takeEntry (.plain false) else (g, 0)
      let e := copyEntry g serial word op d a b pair r.2
      let g1 := { r.1 with que := { r.1.que with cq := r.1.que.cq ++ [e] } }
      let g2 := if cls == 4 then g1 else g1.countUp cls serial
      g2.setTag tag serial

/-- What a collective does; none for any other instruction. -/
def collOpOf : Instr → Option CopyOp
  | .allred _ _ o f => some (.coll .allred f.toNat o.toNat 0)
  | .redscat _ _ o f => some (.coll .redscat f.toNat o.toNat 0)
  | .allgath _ _ => some (.coll .allgath 0 0 0)
  | .bcast _ _ => some (.coll .bcast 0 0 0)
  | .cabort _ _ => some (.coll .cabort 0 0 0)
  | .cattempt d _ _ => some (.coll .cattempt 0 0 d.toNat)
  | _ => none

/-- The kind of a COPY by its function field, whether it has a format and whether it reads a pair (R281). -/
def copyKind : Nat → Option (CopyFn × Bool × Bool)
  | 0 => some (.linear, false, false)
  | 1 => some (.box, false, true)
  | 2 => some (.tilea, true, true)
  | 3 => some (.tileb, true, true)
  | 4 => some (.tilec, true, true)
  | 5 => some (.fill, true, false)
  | 6 => some (.remote, false, false)
  | _ => none

/-- What a QOP does by its function and mode fields (R278). -/
def qopOf (w : Nat) : Option CopyOp :=
  let p := field w 4 3
  match field w 0 4, field w 7 2 with
  | 0, 0 => if field w 9 6 == 0 && field w 20 5 == 0 then some (.bindMem p) else none
  | 0, 1 => if field w 9 16 == 0 then some (.bindCopy p) else none
  | 0, 2 => if field w 9 16 == 0 then some (.bindFifo p) else none
  | 1, 0 => if field w 9 16 == 0 then some (.unbind p) else none
  | 2, 0 => if field w 9 11 == 0 then some (.stat (field w 20 5) p) else none
  | 3, 0 => if field w 9 16 == 0 then some (.drain p) else none
  | _, _ => none

/-- What a copy-queue word does; none where it is no copy-queue instruction (R278, R281, R288, R379). -/
def copyOpOfWord (w : Nat) : Option CopyOp :=
  match field w 25 7 with
  | 0x26 => (decode26 w).toOption.bind fun i => if i.check.isNone then collOpOf i else none
  | 0x79 =>
    (copyKind (field w 0 4)).bind fun k =>
      let fmt := field w 6 4
      let t := field w 4 2
      if decide (t ≤ 2) && (if k.2.1 then decide (fmt ≤ 10) else fmt == 0) && !(k.2.2 && field w 20 5 == 31) then
        some (.copy k.1 fmt t)
      else none
  | 0x7A => if field w 0 15 == 0 && field w 20 5 == 0 then some .kick else none
  | 0x7B => qopOf w
  | _ => none

/-! ## COPY (R281, R286) -/

/-- A COPY: counted in cc, with an entry where its destination is in the global form. -/
def pushMove (s : State) (word : Nat) (fn : CopyFn) (fmt : Nat) (d a b : BitVec 5) (t : BitVec 2) (pair : Bool) : Out :=
  pushCopy s word (.copy fn fmt t.toNat) d.toNat a.toNat b.toNat pair 0 (fun g => g.x a.toNat >>> 48 == 0) 0

/-- COPY_LINEAR (R283). -/
def execCopyLinear (d a b : BitVec 5) (t : BitVec 2) (s : State) : Out :=
  pushMove s (wordCopyLinear 0xF2000000 d a b t) .linear 0 d a b t false

/-- COPY_BOX (R283). -/
def execCopyBox (d a b : BitVec 5) (t : BitVec 2) (s : State) : Out :=
  pushMove s (wordCopyLinear 0xF2000001 d a b t) .box 0 d a b t true

/-- COPY_TILEA (R283). -/
def execCopyTilea (d a b : BitVec 5) (f : BitVec 4) (t : BitVec 2) (s : State) : Out :=
  pushMove s (wordCopyTilea 0xF2000002 d a b f t) .tilea f.toNat d a b t true

/-- COPY_TILEB (R283). -/
def execCopyTileb (d a b : BitVec 5) (f : BitVec 4) (t : BitVec 2) (s : State) : Out :=
  pushMove s (wordCopyTilea 0xF2000003 d a b f t) .tileb f.toNat d a b t true

/-- COPY_TILEC (R283). -/
def execCopyTilec (d a b : BitVec 5) (f : BitVec 4) (t : BitVec 2) (s : State) : Out :=
  pushMove s (wordCopyTilea 0xF2000004 d a b f t) .tilec f.toNat d a b t true

/-- COPY_FILL (R283). -/
def execCopyFill (d a b : BitVec 5) (f : BitVec 4) (t : BitVec 2) (s : State) : Out :=
  pushMove s (wordCopyTilea 0xF2000005 d a b f t) .fill f.toNat d a b t false

/-- COPY_REMOTE (R283). -/
def execCopyRemote (d a b : BitVec 5) (t : BitVec 2) (s : State) : Out :=
  pushMove s (wordCopyLinear 0xF2000006 d a b t) .remote 0 d a b t false

/-- CKICK: counted in cc, with an entry always (R286, R288). -/
def execCkick (a : BitVec 5) (s : State) : Out :=
  pushCopy s (wordTrap 0xF4000000 a) .kick 0 a.toNat 0 false 0 (fun _ => true) 0

/-! ## QOP (R278) -/

/-- QBIND of a binding record (R279). -/
def execQbindMem (a : BitVec 5) (p : BitVec 3) (s : State) : Out :=
  pushCopy s (wordQbindMem 0xF6000000 a p) (.bindMem p.toNat) 0 a.toNat 0 false 4 (fun _ => false) 0

/-- QBIND of copy arrivals (R279). -/
def execQbindCopy (p : BitVec 3) (s : State) : Out :=
  pushCopy s (wordQbindCopy 0xF6000080 p) (.bindCopy p.toNat) 0 0 0 false 4 (fun _ => false) 0

/-- QBIND of a FIFO (R279). -/
def execQbindFifo (p : BitVec 3) (s : State) : Out :=
  pushCopy s (wordQbindCopy 0xF6000100 p) (.bindFifo p.toNat) 0 0 0 false 4 (fun _ => false) 0

/-- QUNBIND (R279). -/
def execQunbind (p : BitVec 3) (s : State) : Out :=
  pushCopy s (wordQbindCopy 0xF6000001 p) (.unbind p.toNat) 0 0 0 false 4 (fun _ => false) 0

/-- QSTAT: its register is tagged until it completes (R270, R280). -/
def execQstat (d : BitVec 5) (p : BitVec 3) (s : State) : Out :=
  pushCopy s (wordQstat 0xF6000002 d p) (.stat d.toNat p.toNat) 0 0 0 false 4 (fun _ => false) d.toNat

/-- QDRAIN (R279). -/
def execQdrain (p : BitVec 3) (s : State) : Out :=
  pushCopy s (wordQbindCopy 0xF6000003 p) (.drain p.toNat) 0 0 0 false 4 (fun _ => false) 0

/-! ## COLL (R379) -/

/-- A collective: counted in oc. -/
def pushColl (s : State) (word : Nat) (fn : CollFn) (fmt op d a b : Nat) : Out :=
  pushCopy s word (.coll fn fmt op d) 0 a b false 3 (fun _ => false) d

/-- ALLRED (R381). -/
def execAllred (a b : BitVec 5) (o : BitVec 2) (f : BitVec 4) (s : State) : Out :=
  pushColl s (wordAllred 0x4C000000 a b o f) .allred f.toNat o.toNat 0 a.toNat b.toNat

/-- REDSCAT (R381). -/
def execRedscat (a b : BitVec 5) (o : BitVec 2) (f : BitVec 4) (s : State) : Out :=
  pushColl s (wordAllred 0x4C000001 a b o f) .redscat f.toNat o.toNat 0 a.toNat b.toNat

/-- ALLGATH (R381). -/
def execAllgath (a b : BitVec 5) (s : State) : Out := pushColl s (wordAllgath 0x4C000002 a b) .allgath 0 0 0 a.toNat b.toNat

/-- BCAST (R381). -/
def execBcast (a b : BitVec 5) (s : State) : Out := pushColl s (wordAllgath 0x4C000003 a b) .bcast 0 0 0 a.toNat b.toNat

/-- CABORT (R382, R383). -/
def execCabort (a b : BitVec 5) (s : State) : Out := pushColl s (wordAllgath 0x4C000004 a b) .cabort 0 0 0 a.toNat b.toNat

/-- CATTEMPT: its register is tagged until it completes (R382). -/
def execCattempt (d a b : BitVec 5) (s : State) : Out :=
  pushColl s (wordAdd 0x4C000005 d a b) .cattempt 0 0 d.toNat a.toNat b.toNat

end Sys2Proof.Machine
end

