-- ==== Sys2Proof/Machine/Strip.lean ====
section
/-! DEFINITION. SETVL: strips, the negotiation of vlmax over slice storage, gates; progress words as a group reads them
(R31, R32, R83, R84, R100 to R103, R145, R263, R334, R337). -/

namespace Sys2Proof.Machine

/-! ## Slice storage (R83, R84, R100 to R102) -/

/-- Units of 1 KiB that A slices take at a VLMAX (R83). -/
def sliceUnits (alloc vlmax : Nat) (prot : Bool) : Nat := (if prot then 2 else 1) * (alloc * vlmax / 2048)

/-- Base capacity of a class in units (R84). -/
def baseCapacity (cls : Nat) : Nat := if cls == 0 then 384 else 96

/-- Base units that the groups of a core hold. -/
def baseUsed (s : State) (core : Nat) : Nat :=
  (s.core core).slots.foldl (fun a e => a + (match e.2.group with | some g => g.sto.baseUnits | none => 0)) 0

/-- Units of a swing bank that the groups of a core hold. -/
def bankUsed (s : State) (core b : Nat) : Nat :=
  (s.core core).slots.foldl (fun a e => a + (match e.2.group with | some g => FMap.get 0 g.sto.swing b | none => 0)) 0

def baseFree (s : State) (core : Nat) : Nat := baseCapacity (coreClass core) - baseUsed s core

/-- Units a group holds. -/
def Group.unitsHeld (g : Group) : Nat := g.sto.swing.foldl (fun a e => a + e.2) g.sto.baseUnits

/-- Units that a claim could take (R100). -/
def unitsAvailable (s : State) (core : Nat) : Nat :=
  (List.range 8).foldl (fun a b => a + (48 - bankUsed s core b)) (baseFree s core)

/-- Swing banks in the order of a claim: those that serve as slice storage, then those that serve as cache, each highest
first (R101). -/
def bankOrder (s : State) (core : Nat) : List Nat :=
  let used := claimedBanks s core
  (List.range 8).reverse.filter used.contains ++ (List.range 8).reverse.filter fun b => !used.contains b

/-- Units taken from banks in order. -/
def takeBanks (s : State) (core : Nat) : List Nat → Nat → Storage → Storage
  | [], _, st => st
  | b :: bs, n, st =>
    let k := min n (48 - bankUsed s core b)
    if k == 0 then takeBanks s core bs n st
    else takeBanks s core bs (n - k) { st with swing := FMap.set 0 st.swing b (FMap.get 0 st.swing b + k) }

/-- A claim of n units (R101). -/
def claimUnits (s : State) (core : Nat) (st : Storage) (n : Nat) : Storage :=
  let k := min n (baseFree s core)
  takeBanks s core (bankOrder s core) (n - k) { st with baseUnits := st.baseUnits + k }

/-- Units given back from banks, highest first, then from base capacity (R102). -/
def giveBanks : List Nat → Nat → Storage → Storage
  | [], n, st => { st with baseUnits := st.baseUnits - n }
  | b :: bs, n, st =>
    let k := min n (FMap.get 0 st.swing b)
    giveBanks bs (n - k) { st with swing := FMap.set 0 st.swing b (FMap.get 0 st.swing b - k) }

def releaseUnits (st : Storage) (n : Nat) : Storage := giveBanks [7, 6, 5, 4, 3, 2, 1, 0] n st

/-- A group under a new vlmax: elements and mask bits at and above it go (R102). -/
def Group.setVlmax (g : Group) (v : Nat) : Group :=
  { g with
    vec := { g.vec with vlmax := v }
    fil := { g.fil with
      slices := g.fil.slices.filter fun e => decide (e.1 < v)
      badSlices := g.fil.badSlices.filter fun e => decide (e.1 / 48 < v)
      masks := g.fil.masks.foldl (fun m e => FMap.set 0 m e.1 (e.2 &&& lowMask v)) [] } }

/-- Every line in the banks that hold slices is invalidated (R101). -/
def dropClaimed (s : State) (core : Nat) : State :=
  s.setL1 core ((s.core core).l1.filter fun x => (l1Ways s core).contains x.way)

/-- Teams with dirty sectors in the banks that hold slices: each takes a checkpoint before these are invalidated (R101,
R225). -/
def dirtyClaimed (s : State) (core : Nat) : List Nat :=
  dedup (((s.core core).l1.filter fun x => x.dirty != 0 && !(l1Ways s core).contains x.way).map (·.dirty))

/-- The VLMAX that a request asks for (R100). -/
def vlmaxTarget (prot : Bool) (req : Word) : Nat :=
  let r := min (max req.toNat 128) (if prot then 512 else 1024)
  if 1024 ≤ r then 1024 else if 512 ≤ r then 512 else if 256 ≤ r then 256 else 128

/-- The first of the larger VLMAX values whose units can be had. -/
def growTo (need : Nat → Nat) (held avail : Nat) : List Nat → Option Nat
  | [] => none
  | v :: vs => if need v - held ≤ avail then some v else growTo need held avail vs

/-- What a negotiation gives: it is done, or its units are claimed and it waits for teams' checkpoints before it grows to a VLMAX. -/
inductive Negotiated where
  | done (s : State)
  | blocked (s : State) (v : Nat) (teams : List Nat)

/-- The end of a growth to a VLMAX whose units are claimed: the lines of newly claimed banks are invalidated once no dirty sector is in
them (R100, R101, R225). -/
def finishGrowth (s : State) (core slot : Nat) (g : Group) (v : Nat) : Negotiated :=
  match dirtyClaimed s core with
  | [] => .done (dropClaimed (s.setGroup core slot (g.setVlmax v)) core)
  | ts => .blocked s v ts

/-- Growth to a VLMAX: its units are claimed at once, so that whatever else claims storage on the core sees what it leaves (R100, R101,
R103). -/
def growVlmax (s : State) (core slot : Nat) (g : Group) (v : Nat) : Negotiated :=
  let n := sliceUnits g.idn.alloc v g.protected_ - g.unitsHeld
  let g1 := { g with sto := claimUnits s core g.sto n }
  finishGrowth (s.setGroup core slot g1) core slot g1 v

/-- Whether a SETVL has claimed the units it grows by: a pre-emption or a kill takes effect after it (R103). -/
def Group.claiming (g : Group) : Bool :=
  match g.sca.status with
  | .waiting (.claim _ _ _ _ _) => true
  | _ => false

/-- A growth given up by a trap, before SETVL executes again: the units beyond the group's footprint go back (R145). -/
def Group.unclaim (g : Group) : Group :=
  if g.claiming then { g with sto := releaseUnits g.sto (g.unitsHeld - sliceUnits g.idn.alloc g.vec.vlmax g.protected_) } else g

/-- The negotiation of vlmax (R100 to R103). -/
def negotiate (s : State) (core slot : Nat) (g : Group) (req : Word) : Negotiated :=
  let target := vlmaxTarget g.protected_ req
  let need (v : Nat) : Nat := sliceUnits g.idn.alloc v g.protected_
  let held := g.unitsHeld
  if target < g.vec.vlmax then
    .done (s.setGroup core slot { g.setVlmax target with sto := releaseUnits g.sto (held - need target) })
  else
    match growTo need held (unitsAvailable s core)
      ([1024, 512, 256].filter fun v => decide (v ≤ target) && decide (2 * g.vec.vlmax ≤ v)) with
    | none => .done (s.setGroup core slot g)
    | some v => growVlmax s core slot g v

/-- Whether a negotiation waits for another one on its core: one that has claimed its banks, or one of a lower slot that
falls now (R103). -/
def negotiationFirst (s : State) (core slot : Nat) : Bool :=
  (s.core core).slots.any fun e => e.1 != slot && match e.2.group with
    | some g => (match g.sca.status with
      | .waiting (.claim _ _ _ _ _) => true
      | .waiting (.vlmax _ _ _ _ _) => decide (e.1 < slot) && g.que.vq.isEmpty && g.que.mq.isEmpty
      | _ => false)
    | none => false

/-! ## Progress words (R263, R334) -/

/-- The checks of R334 on an address, and its spans. -/
def progressSpans (s : State) (ctx : Ctx) (acc : Access) (addr : Word) : Except (Nat × Word) (List Span) :=
  let top := addr.extractLsb' 48 16
  if addr.toNat % 8 != 0 then .error (cMisaligned, addr)
  else if top != 0 && top != 0xFFFF#16 then .error (cTranslation, addr)
  else if top != 0 then .error (cAccess, addr)
  else
    let sps := spans s ctx acc addr 8
    match accessFault sps with
    | some f => .error f
    | none => if (spanRefs sps).any fun r => decide (2 ≤ r.2.2.1.tier) then .error (cAccess, addr) else .ok sps

/-- A read of a progress word at its home: the word, or what stops it; a fault or another team's checkpoint. -/
def readProgress (s : State) (ctx : Ctx) (addr : Word) : State × Except Stop Word :=
  match progressSpans s ctx .load addr with
  | .error f => (s, .error (.fault f.1 f.2))
  | .ok sps =>
    let r := readSpans ctx homePath 2 true (spanRefs sps) (touchSpans s ctx false sps)
    if r.stall.isSome then (r.s, .error (.stall r.stall))
    else
      match r.fault with
      | some f => (r.s, .error (.fault f.1 f.2))
      | none => (r.s, .ok (BitVec.ofNat 64 r.val))

/-- Fields of a progress word. -/
def progCount (w : Word) : Nat := w.toNat % 2 ^ 62
def progComplete (w : Word) : Bool := w.getLsbD 62
def progPoisoned (w : Word) : Bool := w.getLsbD 63

/-- The test of R263 against a watermark. -/
inductive GateTest where
  | poisoned | pass | wait
  deriving DecidableEq, Repr

def gateTest (w : Word) (need : Nat) : GateTest :=
  if progPoisoned w then .poisoned else if progComplete w || need ≤ progCount w then .pass else .wait

/-! ## SETVL (R145) -/

def gateBound (gate : BitVec 64) : Bool := gate.getLsbD 0
def gateAddr (gate : BitVec 64) : Word := gate &&& 0xFFFF_FFFF_FFF8#64
def gateRatio (gate : BitVec 64) : Nat := (gate.extractLsb' 48 16).toNat

/-- The watermark of a gate for n more elements (R337). -/
def gateNeed (g : Group) (n : Nat) : Nat := ((g.ord.gcons.toNat + n) * gateRatio g.ord.gate + 255) / 256

/-- The strip begins: vl, sc and x d (R31, R32, R145). -/
def Group.beginStrip (g : Group) (d n : Nat) (keep : Bool) : Group :=
  ({ g with vec := { g.vec with vl := n, sc := if keep then g.vec.sc else (g.vec.sc + 1) % 2 ^ 32 } }).setX d (BitVec.ofNat 64 n)

/-- The gate of a SETVL for n elements: read, tested, passed with a settle, failed, or waited for (R145, R263, R337). -/
def passGate (s : State) (core slot : Nat) (g : Group) (d n : Nat) (keep : Bool) : State :=
  let g := g.run
  let s0 := s.setGroup core slot g
  match readProgress s0 (ctxOf s0 core slot g) (gateAddr g.ord.gate) with
  | (s1, .error (.fault c a)) => scalarFault s1 core slot g c a
  | (s1, .error (.stall t)) =>
    let s2 := s1.setGroup core slot (g.wait (.gate d (BitVec.ofNat 64 n) keep))
    match t with
    | some t => askCut s2 t
    | none => s2
  | (s1, .error (.dry _)) => s1.setGroup core slot (g.wait (.gate d (BitVec.ofNat 64 n) keep))
  | (s1, .ok w) =>
    match gateTest w (gateNeed g n) with
    | .poisoned => s1.setGroup core slot (g.raiseScalar cGatePoisoned 0)
    | .pass =>
      let g1 := { g with ord := { g.ord with gcons := g.ord.gcons + BitVec.ofNat 64 n } }
      (settle s1 core).setGroup core slot (g1.beginStrip d n keep).advance
    | .wait => s1.setGroup core slot (g.wait (.gate d (BitVec.ofNat 64 n) keep))

/-- SETVL after its negotiation (R145). -/
def finishSetvl (s : State) (core slot : Nat) (g : Group) (d : Nat) (a : Word) (gated keep : Bool) : State :=
  let cap := s.cap core
  let n := min a.toNat (if cap == 0 then g.vec.vlmax else min g.vec.vlmax cap)
  if gated && gateBound g.ord.gate then passGate s core slot g d n keep
  else s.setGroup core slot (g.run.beginStrip d n keep).advance

/-- A SETVL after a negotiation, or waiting in it (R100, R225). -/
def settleSetvl (core slot : Nat) (d : Nat) (a : Word) (gated keep : Bool) : Negotiated → State
  | .done s1 =>
    match s1.group? core slot with
    | some g1 => finishSetvl s1 core slot g1 d a gated keep
    | none => s1
  | .blocked s1 v ts => ts.foldl askCut (s1.modGroup core slot fun g => g.wait (.claim d a v gated keep))

/-- A negotiating SETVL whose queues are empty (R100, R103). -/
def performSetvl (s : State) (core slot : Nat) (g : Group) (d : Nat) (a req : Word) (gated keep : Bool) : State :=
  if negotiationFirst s core slot then s.setGroup core slot (g.wait (.vlmax d a req gated keep))
  else settleSetvl core slot d a gated keep (negotiate s core slot g.run req)

/-- SETVL (R145, R384). -/
def execSetvl (d a b : BitVec 5) (k gt : BitVec 1) (s : State) : Out :=
  withRegs s [a.toNat, b.toNat] fun g =>
    let req := g.x b.toNat
    let gated := gt == 1
    let keep := k == 1
    if b != 0 && !isFirmware s.curCore && vlmaxTarget g.protected_ req != g.vec.vlmax then
      if g.que.vq.isEmpty && g.que.mq.isEmpty then
        .next (performSetvl s s.curCore s.curSlot g d.toNat (g.x a.toNat) req gated keep)
      else waitHere s g (.vlmax d.toNat (g.x a.toNat) req gated keep)
    else .next (finishSetvl s s.curCore s.curSlot g d.toNat (g.x a.toNat) gated keep)

end Sys2Proof.Machine
end

