-- ==== Sys2Proof/Machine/Counters.lean ====
section
/-! DEFINITION. Engine counters and progress words: WAITC, RDCNT, PGATE, PWAIT, PPUB, and the updates of progress words that
groups make (R238, R261 to R263, R330 to R339). -/

namespace Sys2Proof.Machine

/-! ## WAITC and RDCNT (R333) -/

/-- WAITC of a class for at most n: it waits, or it ends and takes a held fault, which stays held until it is delivered (R289,
R339). -/
def performWaitc (s : State) (core slot : Nat) (g : Group) (cls : Nat) (n : Word) : State :=
  if n.toNat < g.count cls then s.setGroup core slot (g.wait (.waitc cls n))
  else
    match if cls == 0 then g.trp.held else none with
    | some h =>
      let g1 := { g.run with sca := { g.run.sca with openWords := [] } }
      recordFault s core slot g1 { serial := g1.sca.serial, code := cAsync, src := 3, pc := g1.sca.pc, addr := h.1, elem := 0 }
    | none => s.setGroup core slot g.run.advance

/-- WAITC (R333). -/
def execWaitc (a : BitVec 5) (c : BitVec 2) (s : State) : Out :=
  withRegs s [a.toNat] fun g => .next (performWaitc s s.curCore s.curSlot g c.toNat (g.x a.toNat))

/-- RDCNT (R333). -/
def execRdcnt (d : BitVec 5) (c : BitVec 2) (s : State) : Out :=
  withBoundary s fun g => finish s (g.setX d.toNat (BitVec.ofNat 64 (g.count c.toNat)))

/-! ## PGATE and PWAIT (R336, R338) -/

/-- The form of a progress-word address: R334, steps 1 and 2, and the local form. -/
def progressForm (addr : Word) : Option Nat :=
  if addr.toNat % 8 != 0 then some cMisaligned
  else if addr.extractLsb' 48 16 == 0 then none
  else if isLocalForm addr then some cAccess
  else some cTranslation
where
  isLocalForm (a : Word) : Bool := a.extractLsb' 48 16 == 0xFFFF#16

/-- The gate register of a binding (R76, R336). -/
def gateReg (addr ratio : Word) : BitVec 64 := (addr &&& 0xFFFF_FFFF_FFF8#64) ||| ratio <<< 48 ||| 1#64

/-- PGATE (R336). -/
def execPgate (a b : BitVec 5) (s : State) : Out :=
  withRegs s [a.toNat, b.toNat] fun g =>
    let x := g.x a.toNat
    let r := g.x b.toNat
    let word := BitVec.ofNat 64 (wordAllgath 0xFC000000 a b)
    let bind (v : BitVec 64) : Group := { g with ord := { g.ord with gate := v, gcons := 0 } }
    if a == 0 then (if r == 0 then finish s (bind 0) else trapHere s g cUndefined word)
    else
      match progressForm x with
      | some c => trapHere s g c x
      | none => if r >>> 16 != 0 || r == 0 then trapHere s g cUndefined word else finish s (bind (gateReg x r))

/-- PWAIT for a watermark: read, tested, passed with a settle, failed, or waited for (R263, R338). -/
def performPwait (s : State) (core slot : Nat) (g : Group) (addr v : Word) : State :=
  let g := g.run
  match readProgress (s.setGroup core slot g) (ctxOf s core slot g) addr with
  | (s1, .error (.fault c a)) => scalarFault s1 core slot g c a
  | (s1, .error _) => s1.setGroup core slot (g.wait (.pwait addr v))
  | (s1, .ok w) =>
    match gateTest w v.toNat with
    | .poisoned => s1.setGroup core slot (g.raiseScalar cGatePoisoned addr)
    | .pass => (settle s1 core).setGroup core slot g.advance
    | .wait => s1.setGroup core slot (g.wait (.pwait addr v))

/-- PWAIT (R338). -/
def execPwait (a b : BitVec 5) (s : State) : Out :=
  withRegs s [a.toNat, b.toNat] fun g =>
    let v := g.x b.toNat
    if v >>> 62 != 0 then trapHere s g cUndefined (BitVec.ofNat 64 (wordAllgath 0xFC000001 a b))
    else .next (performPwait s s.curCore s.curSlot g (g.x a.toNat) v)

/-! ## PPUB (R339) -/

/-- PPUB: its checks, its entry and count, its witness; one to a page that a resilient team cannot hold asks for the
checkpoint inside which it performs (R267). -/
def execPpub (d a b : BitVec 5) (s : State) : Out :=
  withRegs s [a.toNat, b.toNat] fun g =>
    let x := g.x a.toNat
    let ctx := ctxOf s s.curCore s.curSlot g
    if g.seqFull 1 then trapHere s g cSequence 0
    else if 65535 ≤ g.count 0 then waitHere s g (.push (.counter 0))
    else
      match progressSpans s ctx .atomic x with
      | .error f => trapHere s g f.1 f.2
      | .ok sps =>
        let p := g.takeSerial
        let e := p.1.takeEntry (.ppub x (g.x b.toNat) p.2)
        let g1 := (e.1.countUp 0 p.2).setX d.toNat (s.witness s.curCore s.curSlot e.2)
        let s1 := s.put g1.advance
        if g.resilient && (spanRefs sps).any (fun r => !r.2.2.1.holdable) then .next (askOwnCut s1 g) else .next s1

/-! ## Updates of progress words by groups (R238, R262, R339) -/

/-- Whether an entry of a resilient team can complete at the commit that follows (R255, R266). -/
def commitReady (s : State) (core slot : Nat) (g : Group) (e : SeqEntry) : Bool :=
  (entryOwn s core slot e || (match e.kind with
    | .knot a b => (resolve s a ≠ .pending || ownTeamWitness s g.idn.team a)
        && (resolve s b ≠ .pending || ownTeamWitness s g.idn.team b)
    | _ => false))
    && e.floor.all fun w => resolve s w ≠ .pending || ownTeamWitness s g.idn.team w

/-- Whether every older entry of the group has completed, or in a resilient team will with the commit (R262, R266). -/
def olderDone (s : State) (core slot : Nat) (g : Group) (seq : Nat) : Bool :=
  if g.resilient then g.ord.entries.all fun e => decide (seq ≤ e.seq) || commitReady s core slot g e
  else decide (seq ≤ g.ord.wdone + 1)

/-- An update of a progress word by a group: translated, checked, performed at the home, or held for the commit. It says
which fault it found, and whether it has to wait for its team's checkpoint; `inside` is set inside it. -/
inductive ProgressEnd where
  | done
  | fault (code : Nat) (addr : Word)
  | cut
  deriving DecidableEq, Repr

def updateProgress (s : State) (core slot : Nat) (g : Group) (path seq serial : Nat) (addr : Word) (adds : Bool) (v : Nat)
    (inside : Bool) : State × ProgressEnd :=
  let ctx := ctxOf s core slot g
  match progressSpans s ctx (if adds then .store else .atomic) addr with
  | .error f => (s, .fault f.1 f.2)
  | .ok sps =>
    let refs := spanRefs sps
    if !inside && mustCut s ctx refs then (s, .cut)
    else
      let r := readSpans ctx homePath 2 true refs (touchSpans s ctx true sps)
      match r.fault, refs with
      | some f, _ => (r.s, .fault f.1 f.2)
      | none, (key, _, ref, _) :: _ =>
        let u : Update := .progress key adds v
        let held := if inside then 0 else heldBy ctx ref
        if held == 0 then (dropSectors (performUpdate (countAccess r.s core slot key false true) g.idn.team u).1 core (updateSectors u), .done)
        else
          (sendFlight r.s
            { core := core, slot := slot, epoch := (s.slot core slot).epoch, path := path, seq := seq, serial := serial,
              upd := u, l1 := false, held := held, team := g.idn.team, host := false, performed := false }, .done)
      | none, [] => (r.s, .fault cTranslation addr)

/-- The PPUB entry of the group whose update is due, with its operands. -/
def duePpub (s : State) (core slot : Nat) (g : Group) : Option (SeqEntry × Word × Word × Nat) :=
  (g.ord.entries.filterMap fun e => match e.kind with
    | .ppub a v n => if !e.complete && olderDone s core slot g e.seq then some (e, a, v, n) else none
    | _ => none).head?

/-- The update of a due PPUB: performed, or its fault held; a consumed error in a resilient team asks for a rollback
(R339, R351). It is none where the update has to wait for a checkpoint. -/
def performPpub (s : State) (core slot : Nat) (g : Group) (d : SeqEntry × Word × Word × Nat) (inside : Bool) : Option State :=
  let r := updateProgress s core slot g 0 d.1.seq d.2.2.2 d.2.1 false d.2.2.1.toNat inside
  let complete (h : Option (Word × Nat)) (s : State) : State :=
    s.modGroup core slot fun g =>
      let g1 := settleEngine s core slot (g.markDone d.1.seq)
      match h with
      | some h => { g1 with trp := { g1.trp with held := some (g1.trp.held.getD h) } }
      | none => g1
  match r.2 with
  | .done => some (complete none r.1)
  | .fault c a =>
    match r.1.team g.idn.team with
    | some t =>
      if consumed c && t.resilient.isSome then some (askRoll r.1 g.idn.team
          (failRecord r.1 core slot g { serial := d.2.2.2, code := c, src := 0, pc := g.sca.pc, addr := a, elem := 0 } 4 0))
      else some (complete (some (d.2.1, c)) r.1)
    | none => some (complete (some (d.2.1, c)) r.1)
  | .cut => none

end Sys2Proof.Machine
end

