-- ==== Sys2Proof/Machine/MatrixUnit.lean ====
section
/-! DEFINITION. The matrix unit: boxes, multiplication and accumulation, tile functions, images (R120, R121, R193 to R201,
R205). A tile keeps the stored bits of its elements, wherever its storage lies, so that an honoured grant gives the same
bits (R122, R205). -/

namespace Sys2Proof.Machine

/-- What an entry knows when it runs. -/
structure MatrixEnv where
  core : Nat
  slot : Nat
  e : MEntry
  ctx : Ctx

def MatrixEnv.m (me : MatrixEnv) : Nat := grantOf me.e.gm
def MatrixEnv.n (me : MatrixEnv) : Nat := grantOf me.e.gn
def MatrixEnv.k (me : MatrixEnv) : Nat := grantOf me.e.gk
def MatrixEnv.mv (me : MatrixEnv) : Nat := validOf me.e.gm
def MatrixEnv.nv (me : MatrixEnv) : Nat := validOf me.e.gn
def MatrixEnv.kv (me : MatrixEnv) : Nat := validOf me.e.gk
def MatrixEnv.ifmt (me : MatrixEnv) : Nat := gfIfmt me.e.gf
def MatrixEnv.acc (me : MatrixEnv) : Nat := gfAcc me.e.gf
def MatrixEnv.env (me : MatrixEnv) : RoundEnv := envOf me.e.vt
/-- Slices of an input value, and its bits. -/
def MatrixEnv.w (me : MatrixEnv) : Nat := (formatClass me.ifmt).2
def MatrixEnv.bits (me : MatrixEnv) : Nat := 4 * me.w
/-- Class and width of the accumulator. -/
def accClass (acc : Nat) : Nat × Nat := if acc == 0 then (2, 8) else if acc == 1 then (2, 16) else (0, 8)

/-- A stop that is a fault without an address. -/
def mFault (code : Nat) : Except Stop Work := .error (.fault code 0)

/-! ## Boxes (R193) -/

/-- One row of a box: its first byte, the bit at which its first value starts, and its length in bits. -/
structure BoxRow where
  addr : Word
  off : Nat
  len : Nat

/-- Rows of a box: `rows` rows of `len` bits, at a pitch in bits (a pitch in bytes is eight times as many). -/
def boxRows (x : Word) (pitch : Nat → Word × Nat) (rows len : Nat) : List BoxRow :=
  (List.range rows).map fun i => { addr := x + (pitch i).1, off := (pitch i).2, len := len }

/-- Row starts at a compact pitch of so many bits. -/
def compactPitch (bits i : Nat) : Word × Nat := (BitVec.ofNat 64 (i * bits / 8), i * bits % 8)

/-- Row starts at a pitch of so many bytes. -/
def bytePitch (p : Word) (i : Nat) : Word × Nat := (BitVec.ofNat 64 i * p, 0)

/-- Spans of a row; a byte of a local box outside the local space is an access violation (R193). -/
def rowSpans (s : State) (ctx : Ctx) (acc : Access) (onlyLocal : Bool) (r : BoxRow) : List Span :=
  (spans s ctx acc r.addr (bytesOf r.off r.len)).map fun sp =>
    if onlyLocal && sp.addr.extractLsb' 48 16 != 0xFFFF#16 then { sp with ref := .error cAccess } else sp

/-- The lower of two faults, the first on a tie. -/
def lowerFault (a : Option (Nat × Word)) (b : Nat × Word) : Option (Nat × Word) :=
  match a with
  | none => some b
  | some x => if b.2.toNat < x.2.toNat then some b else some x

/-- The fault of the lowest byte that spans refuse (R201). -/
def lowestRefused (sps : List Span) : Option (Nat × Word) :=
  sps.foldl (fun a sp => match sp.ref with | .error c => lowerFault a (c, sp.addr) | .ok _ => a) none

/-- Faults that reads of runs consume, sector by sector. -/
def runFaults (s : State) (ctx : Ctx) (refs : List (Nat × Nat × Ref × Word)) : List (Nat × Word) :=
  refs.flatMap fun r =>
    (List.range (r.2.1 / 48 + 2)).filterMap fun i =>
      let lo := if i == 0 then r.1 else 48 * (r.1 / 48 + i)
      if r.1 + r.2.1 ≤ lo then none
      else
        let at_ := r.2.2.2 + BitVec.ofNat 64 (lo - r.1)
        (readPiece s ctx 2 2 true r.2.2.1 lo (min (48 - lo % 48) (r.1 + r.2.1 - lo)) at_).fault

/-- A box read at its homes (R193, R201, R256): the values of its rows. `bad` says that the entry also consumes a poisoned word,
which ranks immediately before check-mismatch (R350). -/
def readBox (me : MatrixEnv) (w : Work) (onlyLocal : Bool) (rows : List BoxRow) (bad : Bool) : Except Stop (List Nat × Work) :=
  let sps := rows.map fun r => rowSpans w.s me.ctx .load onlyLocal r
  let refused := lowestRefused sps.flatten
  let s1 := if refused.isSome then w.s else touchSpans w.s me.ctx false sps.flatten
  let outs := sps.map fun sp => readSpans me.ctx 2 2 true (spanRefs sp) s1
  match (outs.filterMap (·.stall)).head? with
  | some t => .error (.stall (some t))
  | none =>
    match (sps.flatMap fun sp => runFaults s1 me.ctx (spanRefs sp)).foldl lowerFault refused with
    | some f => if bad && f.1 == cCheck then .error (.fault cMachine 0) else .error (.fault f.1 f.2)
    | none => if bad then .error (.fault cMachine 0) else .ok ((rows.zip outs).map fun p => p.2.val / 2 ^ p.1.off % 2 ^ p.1.len, { w with s := s1 })

/-- Value j of a row of values of b bits. -/
def boxVal (rows : List Nat) (b i j : Nat) : Nat := rows.getD i 0 / 2 ^ (j * b) % 2 ^ b

/-! ## Tiles and operands -/

/-- Number of the tile of a word. -/
def tileNo (t : BitVec 2) : Nat := t.toNat

/-- A tile element set. -/
def Group.setTile (g : Group) (t i j v : Nat) : Group :=
  { g with fil := { g.fil with tiles := FMap.set 0 g.fil.tiles (tileKey t i j) v } }

/-- A whole tile set to zero; its mark goes (R366). -/
def Group.zeroTile (g : Group) (t : Nat) : Group :=
  { g with fil := { g.fil with
      tiles := g.fil.tiles.filter fun e => e.1 / (65536 * 65536) != t
      badTiles := g.fil.badTiles.filter fun e => e.1 / (65536 * 65536) != t } }

/-- Tile elements in a 64-bit word of the accumulator store (R366). -/
def tilePack (acc : Nat) : Nat := if acc == 1 then 1 else 2

/-- Whether rows below m and columns below n of a tile hold a poisoned word, which a read consumes (R366). -/
def Group.tileBad (g : Group) (acc t m n : Nat) : Bool :=
  g.fil.badTiles.any fun e =>
    e.2 && e.1 / (65536 * 65536) == t && decide (e.1 / 65536 % 65536 < m) && decide (e.1 % 65536 * tilePack acc < n)

/-- The marks of words that a write of rows below m and columns below n covers whole go; `cols` columns are granted (R366). -/
def Group.cleanTile (g : Group) (acc t m n cols : Nat) : Group :=
  { g with fil := { g.fil with badTiles := g.fil.badTiles.filter fun e =>
      !(e.1 / (65536 * 65536) == t && decide (e.1 / 65536 % 65536 < m)
        && decide (min cols ((e.1 % 65536 + 1) * tilePack acc) ≤ n)) } }

/-- All pairs below two bounds, in increasing i then j. -/
def pairsBelow (m n : Nat) : List (Nat × Nat) := (List.range m).flatMap fun i => (List.range n).map fun j => (i, j)

/-- Slices that a name covers under a width and a count (R194, R197). -/
def matrixRange (me : MatrixEnv) (name width count : Nat) : Nat × Nat := (vtBase me.e.vt + name * width, count * width)

/-- Whether a range passes the allocation or slice 767 (R89, R194). -/
def rangeBad (g : Group) (r : Nat × Nat) : Bool := decide (min g.idn.alloc 768 < r.1 + r.2)

/-! ## TLDA and TMMA (R194, R195) -/

/-- The compact rows of an A or B box. -/
def inputRows (me : MatrixEnv) (rows cols valid : Nat) : List BoxRow :=
  boxRows me.e.x (compactPitch (cols * me.bits)) rows (valid * me.bits)

def unitTlda (me : MatrixEnv) (w : Work) (n : BitVec 6) : Except Stop Work := do
  let r := matrixRange me n.toNat me.w me.k
  if me.k == 0 || rangeBad w.g r then .error (.fault cTile 0)
  let p ← readBox me w true (inputRows me me.mv me.k me.kv) false
  let g1 := (List.range (min me.m me.e.vl)).foldl (fun (w : Work) i =>
    (List.range me.k).foldl (fun (w : Work) k =>
      let v := if i < me.mv && k < me.kv then boxVal p.1 me.bits i k else 0
      w.write i (r.1 + k * me.w, me.w) v) w) p.2
  .ok g1

/-- Whether a TMMA takes its A operand from the latch (R196). -/
def latchHit (me : MatrixEnv) (g : Group) (start : Nat) (reuse : Bool) : Bool :=
  match g.fil.latch with
  | some l => reuse && l.start == start && l.gm == me.m && l.gk == me.k && l.ifmt == me.ifmt
  | none => false

/-- Whether a TMMA's A operand holds a poisoned word (R366): of the latch, what it multiplies; of the slices, all that it
copies or multiplies. -/
def operandBad (me : MatrixEnv) (g : Group) (start : Nat) (reuse : Bool) : Bool :=
  if latchHit me g start reuse then
    g.fil.badLatch.any fun e => e.2 && decide (e.1 / 65536 < me.mv) && decide (16 * (e.1 % 65536) < me.kv * me.w)
  else (List.range me.m).any fun i => g.badRange i start (me.k * me.w)

/-- The A operand of a TMMA, keyed by row and column: from the latch or from the slices, with the latch afterwards
(R196). -/
def operandA (me : MatrixEnv) (g : Group) (start : Nat) (reuse : Bool) : FMap Nat × Option Latch :=
  if latchHit me g start reuse then ((g.fil.latch.map (·.vals)).getD [], g.fil.latch)
  else
    let vals := (pairsBelow me.m me.k).foldl (fun (m : FMap Nat) p =>
      FMap.set 0 m (p.1 * 65536 + p.2) (g.slices p.1 (start + p.2 * me.w) me.w)) []
    (vals, if reuse then some { start := start, gm := me.m, gk := me.k, ifmt := me.ifmt, vals := vals } else none)

/-- One block's exact sum, rounded into the accumulator format (R120): its value with the flags. -/
def blockSum (env : RoundEnv) (fmt : Fmt) (ps : List (Val × FlagSet)) : Val × FlagSet :=
  let sum := exactSum env (ps.map (·.1))
  let r := roundTo env fmt sum.1
  (readFloat env fmt r.1, ps.foldl (fun f p => f ||| p.2) (sum.2 ||| r.2))

/-- The blocks of one output element from k0, as R120 takes them: the accumulator (absent at first in mode 1) and the
flags. `fuel` bounds the blocks. -/
def accumulateFloat (env : RoundEnv) (fmt : Fmt) (prod : Nat → Val × FlagSet) (kb kv : Nat) :
    Nat → Nat → Option Nat → FlagSet → Option Nat × FlagSet
  | 0, _, acc, fl => (acc, fl)
  | fuel + 1, k0, acc, fl =>
    if kv ≤ k0 then (acc, fl)
    else
      let ps := (List.range kb).map fun i => if k0 + i < kv then prod (k0 + i) else (Val.zero false, 0)
      let s := blockSum env fmt ps
      let r : Nat × FlagSet := match acc with
        | none => ((roundTo env fmt s.1).1, 0)
        | some a =>
          let x := exactSum env [readFloat env fmt a, s.1]
          let d := roundTo env fmt x.1
          (d.1, x.2 ||| d.2)
      accumulateFloat env fmt prod kb kv fuel (k0 + kb) (some r.1) (fl ||| s.2 ||| r.2)

/-- The same for integer inputs (R121): block sums are exact, each addition wraps or saturates. -/
def accumulateInt (env : RoundEnv) (prod : Nat → Int) (kb kv : Nat) : Nat → Nat → Option Nat → FlagSet → Option Nat × FlagSet
  | 0, _, acc, fl => (acc, fl)
  | fuel + 1, k0, acc, fl =>
    if kv ≤ k0 then (acc, fl)
    else
      let s := (List.range kb).foldl (fun a i => if k0 + i < kv then a + prod (k0 + i) else a) 0
      let r := narrowInt env 0 8 ((match acc with | none => 0 | some a => signedOf 32 a) + s)
      accumulateInt env prod kb kv fuel (k0 + kb) (some r.1) (fl ||| r.2)

/-- One output element (R120, R121). DEDUCED (log 40): with gk.VALID = 0 the element stays as it is under FZ = 2 too, as R195
says, where R120's pseudocode would flush a subnormal one. -/
def dotElement (me : MatrixEnv) (a b : Nat → Nat) (acc : Option Nat) : Nat × FlagSet :=
  let fc := formatClass me.ifmt
  let kb := blockK me.ifmt
  let env := me.env
  if min me.kv me.k == 0 then (acc.getD 0, 0)
  else if me.acc == 2 then
    let v (x : Nat) : Int := (extend env fc.1 fc.2 x).toInt
    let r := accumulateInt env (fun k => v (a k) * v (b k)) kb (min me.kv me.k) (me.k + 1) 0 acc 0
    (r.1.getD 0, r.2)
  else
    let fmt := fmtOf (accClass me.acc).1 (accClass me.acc).2
    -- a subnormal accumulator is flushed at the start under FZ = 2
    let acc0 := acc.map fun x => if env.fz == 2 && isSubnormal fmt x then signBits fmt (decodeFloat fmt x).isNeg 0 else x
    let r := accumulateFloat env fmt (fun k => mulVal (extend env fc.1 fc.2 (a k)) (extend env fc.1 fc.2 (b k))) kb
      (min me.kv me.k) (me.k + 1) 0 acc0 0
    (r.1.getD 0, r.2)

/-- TMMA in either mode (R195). -/
def unitTmma (me : MatrixEnv) (w : Work) (fresh : Bool) (n : BitVec 6) (t : BitVec 2) (reuse : Bool) : Except Stop Work := do
  let r := matrixRange me n.toNat me.w me.k
  if me.n == 0 || me.k == 0 || rangeBad w.g r then .error (.fault cTile 0)
  let p ← readBox me w true (inputRows me me.kv me.n me.nv)
    (operandBad me w.g r.1 reuse || (!fresh && w.g.tileBad me.acc t.toNat me.mv me.nv))
  let a := operandA me p.2.g r.1 reuse
  let old := p.2.g
  let out := (pairsBelow me.mv me.nv).foldl (fun (acc : Group × FlagSet) ij =>
    let v := dotElement me (fun k => FMap.get 0 a.1 (ij.1 * 65536 + k)) (fun k => boxVal p.1 me.bits k ij.2)
      (if fresh then none else some (old.tile t.toNat ij.1 ij.2))
    (acc.1.setTile t.toNat ij.1 ij.2 v.1, acc.2 ||| v.2)) (old, 0)
  let g1 := { out.1 with fil := { out.1.fil with
    latch := a.2, badLatch := if latchHit me old r.1 reuse then out.1.fil.badLatch else [] } }
  { p.2 with g := g1.cleanTile me.acc t.toNat me.mv me.nv me.n }.flag out.2

/-! ## Tile functions (R197) -/

/-- Places and lengths of a C box: values of b bits, a row pitch of x y bytes, or compact where the word names x0. -/
def cRows (me : MatrixEnv) (pitched : Bool) (b : Nat) : List BoxRow :=
  boxRows me.e.x (if pitched then bytePitch me.e.y else compactPitch (me.n * b)) me.mv (me.nv * b)

def unitTzero (_me : MatrixEnv) (w : Work) (t : BitVec 2) : Except Stop Work := .ok { w with g := w.g.zeroTile t.toNat }

def unitTldacc (me : MatrixEnv) (w : Work) (t b : Nat) : Except Stop Work := do
  let bits := 8 * accBytes me.acc
  let p ← readBox me w false (cRows me (b != 0) bits) false
  let g1 := (pairsBelow me.mv me.nv).foldl (fun (g : Group) ij => g.setTile t ij.1 ij.2 (boxVal p.1 bits ij.1 ij.2))
    (p.2.g.zeroTile t)
  .ok { p.2 with g := g1 }

/-- Sender of a matrix write. -/
def MatrixEnv.sender (me : MatrixEnv) : Sender := { ctx := me.ctx, path := 2, seq := 0, serial := me.e.serial, l1 := false }

/-- Writes of an entry, every one translated before any is sent (R201, R267): address, bit, width and value of each; `bad` says
that the entry consumes a poisoned word (R350). A write that cannot be held, or that is larger than what can be held at all,
performs as a whole inside the checkpoint (R267; log 34). -/
def sendAll (me : MatrixEnv) (w : Work) (bad : Bool) (flags : FlagSet) (vals : List (Word × Nat × Nat × Nat)) : Except Stop Work := do
  let sps := vals.map fun v => spans w.s me.ctx .store v.1 (bytesOf v.2.1 v.2.2.1)
  match lowestRefused sps.flatten with
  | some f => .error (.fault f.1 f.2)
  | none =>
    if bad then .error (.fault cMachine 0)
    let w1 ← w.flag flags
    let refs := spanRefs sps.flatten
    let w2 ← if mustCut w1.s me.ctx refs then w1.publish me.core me.slot me.ctx else .ok w1
    let s3 := (vals.zip sps).foldl (fun s p => sendBits s { me.sender with direct := mustCut w2.s me.ctx refs } p.2 p.1.2.1 p.1.2.2.1 p.1.2.2.2) w2.s
    .ok { w2 with s := s3 }

/-- conv of R197: round into a float class, narrow into an integer class. DEDUCED (log 40): a subnormal tile element is an
operand of the conversion, which FZ = 2 takes as zero (R109). -/
def tileConv (env : RoundEnv) (acc cls w bits : Nat) : Nat × FlagSet :=
  let ac := accClass acc
  narrow env cls w (extend env ac.1 ac.2 bits)

def unitTstacc (me : MatrixEnv) (w : Work) (t b fmt : Nat) : Except Stop Work :=
  let fc := formatClass fmt
  let bits := 4 * fc.2
  let one (ij : Nat × Nat) : (Word × Nat × Nat × Nat) × FlagSet :=
    let v := tileConv me.env me.acc fc.1 fc.2 (w.g.tile t ij.1 ij.2)
    let row := if b != 0 then bytePitch me.e.y ij.1 else compactPitch (me.n * bits) ij.1
    let bit := row.2 + ij.2 * bits
    ((me.e.x + row.1 + BitVec.ofNat 64 (bit / 8), bit % 8, bits, v.1), v.2)
  let all := (pairsBelow me.mv me.nv).map one
  sendAll me w (w.g.tileBad me.acc t me.mv me.nv) (all.foldl (fun f v => f ||| v.2) 0) (all.map (·.1))

def unitTtov (me : MatrixEnv) (w : Work) (t : Nat) (n : BitVec 6) : Except Stop Work :=
  let ewd := vtEwd me.e.vt
  let r := matrixRange me n.toNat ewd me.n
  if rangeBad w.g r then .error (.fault cTile 0)
  else if w.g.tileBad me.acc t (min me.m me.e.vl) me.n then .error (.fault cMachine 0)
  else
    let out := (pairsBelow (min me.m me.e.vl) me.n).foldl (fun (acc : Work × FlagSet) ij =>
      let v := tileConv me.env me.acc (vtDcls me.e.vt) ewd (w.g.tile t ij.1 ij.2)
      (acc.1.write ij.1 (r.1 + ij.2 * ewd, ewd) v.1, acc.2 ||| v.2)) (w, 0)
    out.1.flag out.2

def unitTfromv (me : MatrixEnv) (w : Work) (t : Nat) (n : BitVec 6) : Except Stop Work :=
  let ews := vtEws me.e.vt
  let r := matrixRange me n.toNat ews me.n
  let ac := accClass me.acc
  if rangeBad w.g r then .error (.fault cTile 0)
  else if (List.range me.m).any fun i => w.g.badRange i r.1 r.2 then .error (.fault cMachine 0)
  else
    let out := (pairsBelow me.m me.n).foldl (fun (acc : Group × FlagSet) ij =>
      let v := narrow me.env ac.1 ac.2 (extend me.env (vtScls me.e.vt) ews (w.g.slices ij.1 (r.1 + ij.2 * ews) ews))
      (acc.1.setTile t ij.1 ij.2 v.1, acc.2 ||| v.2)) (w.g.zeroTile t, 0)
    { w with g := out.1 }.flag out.2

def unitTrel (w : Work) : Except Stop Work := .ok { w with g := { w.g with fil := { w.g.fil with latch := none, badLatch := [] } } }

/-! ## The image (R198, R199) -/

/-- The number that an image's bytes form: header, then the granted elements row by row. -/
def tileImage (gm gn gk : BitVec 32) (gf : BitVec 12) (tileAt : Nat → Nat → Nat) (t : Nat) : List Byte :=
  let s := accBytes (gfAcc gf)
  let m := grantOf gm
  let n := grantOf gn
  let le2 (x : Nat) : List Byte := toBytes 2 x
  le2 m ++ le2 n ++ le2 (grantOf gk) ++ le2 (validOf gm) ++ le2 (validOf gn) ++ le2 (validOf gk)
    ++ [BitVec.ofNat 8 (gfIfmt gf), BitVec.ofNat 8 (gfAcc gf),
        BitVec.ofNat 8 (gfPart gf + (if gfNarrowed gf then 4 else 0) + (if gfHonoured gf then 8 else 0)), BitVec.ofNat 8 t]
    ++ toBytes 4 (m * n) ++ toBytes 4 (m * n * s) ++ List.replicate 40 0
    ++ (pairsBelow m n).flatMap fun ij => toBytes s (tileAt ij.1 ij.2)

def unitTsave (me : MatrixEnv) (w : Work) (t : Nat) : Except Stop Work :=
  let bytes := tileImage me.e.gm me.e.gn me.e.gk me.e.gf (w.g.tile t) t
  sendAll me w (w.g.tileBad me.acc t me.m me.n) 0 [(me.e.x, 0, 8 * bytes.length, leBytes bytes)]

/-- The checks of R199 on a header, read as one number: the row length and valid extents where they hold. -/
def headerOk (h acc m n : Nat) : Option (Nat × Nat × Nat) :=
  let f (lo len : Nat) : Nat := h / 2 ^ (8 * lo) % 2 ^ (8 * len)
  let mg := f 0 2
  let ng := f 2 2
  let mv := f 6 2
  let nv := f 8 2
  if f 24 40 == 0 && decide (f 15 1 < 4) && decide (f 14 1 < 16) && decide (f 12 1 < 16) && f 13 1 == acc
      && decide (mv ≤ mg) && decide (nv ≤ ng) && decide (mv ≤ m) && decide (nv ≤ n)
      && f 16 4 == mg * ng && f 20 4 == mg * ng * accBytes acc then some (ng, mv, nv) else none

def unitTrestore (me : MatrixEnv) (w : Work) (t : Nat) : Except Stop Work := do
  let p ← readBox me w false [{ addr := me.e.x, off := 0, len := 512 }] false
  match headerOk (p.1.getD 0 0) me.acc me.m me.n with
  | none => mFault cTile
  | some (ng, mv, nv) =>
    let b := 8 * accBytes me.acc
    let rows := boxRows (me.e.x + 64) (fun i => (BitVec.ofNat 64 (i * ng * (b / 8)), 0)) mv (nv * b)
    let q ← readBox me p.2 false rows false
    let g1 := (pairsBelow mv nv).foldl (fun (g : Group) ij => g.setTile t ij.1 ij.2 (boxVal q.1 b ij.1 ij.2)) (q.2.g.zeroTile t)
    .ok { q.2 with g := g1 }

/-! ## An entry (R200, R201) -/

/-- Whether a float class takes part in a pairing of R197. -/
def pairClass (acc cls : Nat) : Bool := if acc == 2 then isIntClass cls else decide (2 ≤ cls)

/-- Checks 1 and 2 of R201, and the M and N part of check 3, for the captured grant; `cls` is the class that a
conversion of R197 meets, where there is one. -/
def grantChecked (me : MatrixEnv) (word : Word) (usesN : Bool) (convOk : Bool) (f : Except Stop Work) : Except Stop Work :=
  if me.m == 0 then .error (.fault cTile 0)
  else if !pairOk me.ifmt me.acc || !convOk then .error (.fault cUndefined word)
  else if usesN && me.n == 0 then .error (.fault cTile 0)
  else f

/-- What the matrix unit does for each matrix-queue instruction. -/
def matrixEffect (me : MatrixEnv) (w : Work) : Instr → Except Stop Work
  | .tlda n x => grantChecked me (wordOf (.tlda n x)) false true (unitTlda me w n)
  | .tmma n x t r => grantChecked me (wordOf (.tmma n x t r)) true true (unitTmma me w false n t (r == 1))
  | .tmmaOvr n x t r => grantChecked me (wordOf (.tmmaOvr n x t r)) true true (unitTmma me w true n t (r == 1))
  | .tzero t => grantChecked me (wordOf (.tzero t)) true true (unitTzero me w t)
  | .tldacc t a b => grantChecked me (wordOf (.tldacc t a b)) true true (unitTldacc me w t.toNat b.toNat)
  | .tstacc t a b f =>
    grantChecked me (wordOf (.tstacc t a b f)) true
      (if me.acc == 2 then f.toNat ≤ 1 || (7 ≤ f.toNat && f.toNat ≤ 10) else f.toNat ≤ 6)
      (unitTstacc me w t.toNat b.toNat f.toNat)
  | .tsave t a => grantChecked me (wordOf (.tsave t a)) true true (unitTsave me w t.toNat)
  | .trestore t a => grantChecked me (wordOf (.trestore t a)) true true (unitTrestore me w t.toNat)
  | .ttov t n => grantChecked me (wordOf (.ttov t n)) true (pairClass me.acc (vtDcls me.e.vt)) (unitTtov me w t.toNat n)
  | .tfromv t n => grantChecked me (wordOf (.tfromv t n)) true (pairClass me.acc (vtScls me.e.vt)) (unitTfromv me w t.toNat n)
  | .trel => if me.m != 0 && !pairOk me.ifmt me.acc then .error (.fault cUndefined (wordOf .trel)) else unitTrel w
  | _ => .ok w

/-- The head entry of a group's matrix queue run to its end, or stopped. -/
def runMatrix (s : State) (core slot : Nat) (g : Group) (e : MEntry) : Except Stop Work :=
  matrixEffect { core := core, slot := slot, e := e, ctx := ctxOf s core slot g }
    { s := s, g := g, flags := 0, xreg := none, pend := [], rows := [], view := none, upset := none } e.instr

/-- The head entry of a group's matrix queue executes; one that faults has no effect (R201). -/
def executeMatrix (s : State) (core slot : Nat) (g : Group) (e : MEntry) (rest : List MEntry) : State :=
  let setHead (g : Group) (e : MEntry) : Group := { g with que := { g.que with mq := e :: rest } }
  match runMatrix s core slot g e with
  | .ok w => w.s.setGroup core slot (setHead w.g { e with begun := true, done := some { flags := w.flags, xreg := none } })
  | .error (.stall cut) =>
    let s1 := s.setGroup core slot (setHead g { e with begun := true })
    match cut with
    | some t => askCut s1 t
    | none => s1
  | .error (.dry _) => s
  | .error (.fault code addr) =>
    recordFault s core slot (setHead g { e with begun := false })
      { serial := e.serial, code := code, src := 2, pc := e.pc, addr := addr, elem := 0 }

/-- Whether executing the head would get anywhere. -/
def matrixMoves (s : State) (core slot : Nat) (g : Group) (e : MEntry) : Bool :=
  match runMatrix s core slot g e with
  | .error (.stall cut) => cut.isSome && !(match cut.bind s.team with | some t => t.cut | none => true)
  | _ => true

end Sys2Proof.Machine
end

