-- ==== Sys2Proof/Machine/CopyShape.lean ====
section
/-! DEFINITION. What a copy moves: the fields of its control and pitch words, its rows, its checks, its destination bytes
(R281 to R285, R313). -/

namespace Sys2Proof.Machine

/-- A copy's operands: its kind, format code and target, the four words it reads, the captured grant, and the word that
undefined-encoding reports. -/
structure CopyArgs where
  fn : CopyFn
  fmt : Nat
  target : Nat
  xd : Word
  xd1 : Word
  xa : Word
  xb : Word
  gm : BitVec 32
  gn : BitVec 32
  gk : BitVec 32
  gf : BitVec 12
  word : Word

/-- Fields of the control word (R282). -/
def CopyArgs.tgt (a : CopyArgs) : Nat := tileField a.xd 50 14
def CopyArgs.phase (a : CopyArgs) : Nat := tileField a.xd 48 2
def CopyArgs.rows (a : CopyArgs) : Nat := tileField a.xd 32 16
def CopyArgs.bytes (a : CopyArgs) : Nat := tileField a.xd 0 32
/-- Pitches of the source and the destination (R282). -/
def CopyArgs.sp (a : CopyArgs) : Nat := tileField a.xd1 0 32
def CopyArgs.dp (a : CopyArgs) : Nat := tileField a.xd1 32 32

def CopyFn.isTile (f : CopyFn) : Bool := f == .tilea || f == .tileb || f == .tilec

/-- The rectangle of a tile kind: grants and valid extents of its rows and columns (R283). -/
def CopyArgs.rect (a : CopyArgs) : (Nat × Nat) × (Nat × Nat) :=
  let m := (grantOf a.gm, validOf a.gm)
  let n := (grantOf a.gn, validOf a.gn)
  let k := (grantOf a.gk, validOf a.gk)
  match a.fn with
  | .tilea => (m, k)
  | .tileb => (k, n)
  | _ => (m, n)

/-- Format code of the destination of a tile kind (R283). -/
def CopyArgs.dfmt (a : CopyArgs) : Nat := if a.fn == .tilea || a.fn == .tileb then gfIfmt a.gf else a.fmt

/-- Whether the copy converts its values (R283). -/
def CopyArgs.converts (a : CopyArgs) : Bool := a.fn.isTile && a.dfmt != a.fmt

/-- The first check of R285. DEDUCED (log 15): a box of 0 bytes a row is out of range, as R282 has rows from 1. -/
def CopyArgs.wellFormed (a : CopyArgs) : Bool :=
  let target := match a.target with
    | 0 => a.tgt == 0 && a.phase == 0
    | 1 => true
    | 2 => decide (a.tgt < 8) && a.phase == 0
    | _ => false
  let size := if a.fn.isTile then a.rows == 0 && a.bytes == 0
    else if a.fn == .box then decide (1 ≤ a.rows) && decide (1 ≤ a.bytes) && decide (a.rows * a.bytes ≤ 262144)
    else a.rows == 0 && decide (1 ≤ a.bytes) && decide (a.bytes ≤ 262144)
  let format := if a.fn.isTile || a.fn == .fill then decide (a.fmt ≤ 10) else a.fmt == 0
  target && size && format && ((a.fn != .tilea && a.fn != .tileb) || a.dp == 0)
    && (!a.converts || (decide (a.fmt ≤ 6) && decide (a.dfmt ≤ 6)))

/-- One row of a copy: where it goes, where it comes from, how many values, and their widths in bits on each side. -/
structure CopyRow where
  dst : Word
  src : Word
  n : Nat
  sbits : Nat
  dbits : Nat

def CopyRow.srcLen (r : CopyRow) : Nat := (r.n * r.sbits + 7) / 8
def CopyRow.dstLen (r : CopyRow) : Nat := (r.n * r.dbits + 7) / 8

/-- The rows of a copy (R283). -/
def CopyArgs.layout (a : CopyArgs) : List CopyRow :=
  let at_ (base : Word) (r pitch : Nat) : Word := base + BitVec.ofNat 64 (r * pitch)
  if a.fn.isTile then
    let q := a.rect
    let sb := formatBits a.fmt
    let db := formatBits a.dfmt
    let sp := if a.sp == 0 then q.2.1 * sb / 8 else a.sp
    let dp := if a.dp == 0 then q.2.1 * db / 8 else a.dp
    (List.range q.1.2).map fun r => { dst := at_ a.xa r dp, src := at_ a.xb r sp, n := q.2.2, sbits := sb, dbits := db }
  else if a.fn == .box then
    (List.range a.rows).map fun r =>
      { dst := at_ a.xa r a.dp, src := at_ a.xb r a.sp, n := a.bytes, sbits := 8, dbits := 8 }
  else [{ dst := a.xa, src := a.xb, n := a.bytes, sbits := 8, dbits := 8 }]

/-- Counted bytes of a copy (R284). -/
def CopyArgs.counted (a : CopyArgs) : Nat := (a.layout.map (·.dstLen)).foldl (· + ·) 0

/-- A row with the spans of its source and of its destination, translated once: its bytes are moved under the entries that its checks
used (R218, R285). -/
structure RowSpans where
  row : CopyRow
  src : List Span
  dst : List Span

/-- The rows of a copy, translated. -/
def CopyArgs.rowSpans (a : CopyArgs) (s : State) (ctx : Ctx) : List RowSpans :=
  a.layout.map fun r =>
    { row := r, src := if a.fn == .fill then [] else spans s ctx .load r.src r.srcLen, dst := spans s ctx .store r.dst r.dstLen }

/-- Spans of the source and of the destination. -/
def srcSpans (rs : List RowSpans) : List Span := rs.flatMap (·.src)
def dstSpans (rs : List RowSpans) : List Span := rs.flatMap (·.dst)

/-- The lowest address of a list. -/
def lowestAddr : List Word → Option Word
  | [] => none
  | a :: as =>
    match lowestAddr as with
    | some b => some (if b.toNat < a.toNat then b else a)
    | none => some a

/-- The lowest address that spans refuse with a code. -/
def lowestOf (code : Nat) (sps : List Span) : Option Word :=
  lowestAddr (sps.filterMap fun sp => match sp.ref with
    | .error c => if c == code then some sp.addr else none
    | .ok _ => none)

/-- Whether a span lies in a tier 3 page. -/
def Span.remote (sp : Span) : Bool := match sp.ref with
  | .ok r => !r.local_ && r.tier == 3
  | .error _ => false

/-- Whether a span's page refuses it. -/
def Span.refused (sp : Span) : Bool := match sp.ref with
  | .ok _ => false
  | .error _ => true

/-- Spans with those that a test picks made violations. -/
def forbid (p : Span → Bool) (sps : List Span) : List Span := sps.map fun sp => if p sp then { sp with ref := .error cAccess } else sp

/-- The space and tier rules of R283, as violations of the spans: only the remote kind touches a tier 3 page, on exactly one
side, and tilea and tileb write the local space. -/
def CopyArgs.ruled (a : CopyArgs) (src dst : List Span) : List Span × List Span :=
  if a.fn == .remote then
    -- bytes that their pages refuse say nothing about the sides
    let far (sps : List Span) : Bool := sps.all fun sp => sp.refused || sp.remote
    let near (sps : List Span) : Bool := sps.all fun sp => sp.refused || !sp.remote
    let one := (far src && near dst) || (far dst && near src)
    if one then (src, dst) else (forbid (fun _ => true) src, forbid (fun _ => true) dst)
  else
    let far (sp : Span) : Bool := sp.remote
    let tile := a.fn == .tilea || a.fn == .tileb
    (forbid far src, forbid (fun sp => far sp || (tile && sp.addr.extractLsb' 48 16 != 0xFFFF#16)) dst)

/-- The fourth check of R285: translation-not-valid if any byte raises it, else access-violation, at the lowest source byte
that raises it, or the lowest destination byte. -/
def CopyArgs.refused (a : CopyArgs) (src dst : List Span) : Option (Nat × Word) :=
  let find (code : Nat) (src dst : List Span) : Option (Nat × Word) :=
    ((lowestOf code src).orElse fun _ => lowestOf code dst).map fun w => (code, w)
  (find cTranslation src dst).orElse fun _ =>
    let r := a.ruled src dst
    find cAccess r.1 r.2

/-! ## Bytes -/

/-- A source byte's key with its page. -/
def keyedRefs (refs : List (Nat × Nat × Ref × Word)) : List (Nat × Ref × Word) :=
  refs.flatMap fun r => (List.range r.2.1).map fun i => (r.1 + i, r.2.2.1, r.2.2.2 + BitVec.ofNat 64 i)

/-- Bits written of byte i of a row of `bits` bits. -/
def rowMask (bits i : Nat) : Byte := BitVec.ofNat 8 (2 ^ (min 8 (bits - 8 * i)) - 1)

/-- The pattern of a fill: the low w bits of x b, repeated from bit 0 (R283). -/
def fillByte (xb : Word) (w i : Nat) : Byte :=
  let v := xb.toNat % 2 ^ w
  if w == 4 then BitVec.ofNat 8 (v + 16 * v) else BitVec.ofNat 8 (v / 2 ^ (8 * (i % (w / 8))))

/-- Whether a source byte is checked: the local space, a checked page, or data that leaves by a link (R229). -/
def sourceChecked (r : Ref) (egress : Bool) : Bool := r.local_ || r.chk || decide (2 ≤ r.tier) || egress

/-- The bytes of a row that are moved. -/
def movedBytes (r : CopyRow) (src : List (Nat × Ref × Word)) (dst : List (Nat × Ref × Word)) : List CopyByte :=
  ((dst.zip src).zip (List.range dst.length)).map fun p =>
    { key := p.1.1.1, mask := rowMask (r.n * r.dbits) p.2, val := 0, src := some (p.1.2.1, p.1.2.2.2),
      chk := sourceChecked p.1.2.2.1 (decide (2 ≤ p.1.1.2.1.tier)), saved := false }

/-- The bytes of a row that are built from a number. -/
def builtBytes (bits : Nat) (v : Nat) (dst : List (Nat × Ref × Word)) : List CopyByte :=
  (dst.zip (List.range dst.length)).map fun p =>
    { key := p.1.1, mask := rowMask bits p.2, val := BitVec.ofNat 8 (v / 2 ^ (8 * p.2)), src := none, chk := false, saved := false }

/-- The values of a row converted under RNE, without flush or saturation (R283). -/
def convertRow (sfmt dfmt n v : Nat) : Nat :=
  let sc := formatClass sfmt
  let dc := formatClass dfmt
  (List.range n).foldl (fun a j =>
    let x := v / 2 ^ (j * formatBits sfmt) % 2 ^ formatBits sfmt
    a + (convertVal RoundEnv.plain true dc.1 dc.2 (extend RoundEnv.plain sc.1 sc.2 x)).1 * 2 ^ (j * formatBits dfmt)) 0

/-- Bytes in copy order as pieces, one for each destination sector reached (R346). -/
def toPieces : List CopyByte → List (List CopyByte)
  | [] => []
  | b :: bs =>
    match toPieces bs with
    | (c :: cs) :: rest => if c.key / 48 == b.key / 48 then (b :: c :: cs) :: rest else [b] :: (c :: cs) :: rest
    | rest => [b] :: rest

/-- The sector as a copy of a team reads it: at its home, with what the team holds uncommitted (R258, R264). -/
def teamSector (s : State) (team sector : Nat) : L1Sector := if team == 0 then homeSector s sector else heldSector s team sector

/-- A byte of a sector. -/
def L1Sector.byte (x : L1Sector) (key : Nat) : Byte := BitVec.ofNat 8 (x.data.toNat / 2 ^ (8 * (key % 48)))

/-- The fault that reading a byte of a source sector meets; a machine-check names the sector's first byte (R229, R366,
R367). -/
def L1Sector.refuses (x : L1Sector) (chk : Bool) (key : Nat) (addr : Word) : Option (Nat × Word) :=
  if x.bad then some (cMachine, addr - BitVec.ofNat 64 (key % 48)) else if chk && x.delta != 0 then some (cCheck, addr) else none

/-- Whether a byte lies behind a window of a remote device that has been closed: a read returns its sector with the error marker (R377). -/
def closedWindow (s : State) (key : Nat) : Bool := decide (remoteKey 0 0 ≤ key) && Config.remoteClosed (s.tick + key / 48)

/-- The first fault that source bytes meet, in order. -/
def sourceFault (s : State) (team : Nat) (src : List (Nat × Bool × Word)) : Option (Nat × Word) :=
  (src.filterMap fun b => ((teamSector s team (b.1 / 48)).refuses b.2.1 b.1 b.2.2).orElse fun _ =>
    if closedWindow s b.1 then some (cCheck, b.2.2) else none).head?

/-- A row whose values are converted: its bytes, or the fault of its source (R283, R285 step 5). -/
def convertedBytes (s : State) (team : Nat) (a : CopyArgs) (r : CopyRow) (src dst : List (Nat × Ref × Word)) :
    List CopyByte × Option (Nat × Word) :=
  match sourceFault s team (src.map fun b => (b.1, sourceChecked b.2.1 false, b.2.2)) with
  | some f => ([], some f)
  | none =>
    let v := leBytes (src.map fun b => (teamSector s team (b.1 / 48)).byte b.1)
    (builtBytes (r.n * r.dbits) (convertRow a.fmt a.dfmt r.n v) dst, none)

/-- The destination bytes of a copy, row by row, up to a row whose conversion meets a fault. -/
def CopyArgs.buildRows (a : CopyArgs) (s : State) (team : Nat) : List RowSpans → List CopyByte × Option (Nat × Word)
  | [] => ([], none)
  | q :: qs =>
    let r := q.row
    let dst := keyedRefs (spanRefs q.dst)
    let src := keyedRefs (spanRefs q.src)
    let row : List CopyByte × Option (Nat × Word) :=
      if a.fn == .fill then
        (builtBytes (r.n * 8) (leBytes ((List.range r.n).map (fillByte a.xb (formatBits a.fmt)))) dst, none)
      else if a.converts then convertedBytes s team a r src dst
      else (movedBytes r src dst, none)
    match row.2 with
    | some f => (row.1, some f)
    | none =>
      let rest := a.buildRows s team qs
      (row.1 ++ rest.1, rest.2)

end Sys2Proof.Machine
end

