-- ==== Sys2Proof/Machine/Copies.lean ====
section
/-! DEFINITION. The copy request engine: requests begun under their limits, sectors performed, what a request reports and how
it ends (R269, R275, R283 to R290, R346, R359; log 15, log 34). -/

namespace Sys2Proof.Machine

/-! ## Entries and jobs -/

/-- A change of one copy-queue entry. -/
def Group.modCopy (g : Group) (serial : Nat) (f : CEntry → CEntry) : Group :=
  { g with que := { g.que with cq := g.que.cq.map fun e => if e.serial == serial then f e else e } }

/-- The operands of a COPY entry. -/
def CEntry.args (e : CEntry) (fn : CopyFn) (fmt target : Nat) : CopyArgs :=
  { fn := fn, fmt := fmt, target := target, xd := e.xd, xd1 := e.xd1, xa := e.xa, xb := e.xb, gm := e.gm, gn := e.gn,
    gk := e.gk, gf := e.gf, word := e.word }

/-- Counted bytes of the requests begun and not complete (R287). -/
def Group.jobBytes (g : Group) : Nat := g.que.jobs.foldl (fun a j => a + j.bytes) 0

/-- Whether beginning a request would pass a limit (R287). -/
def Group.copyFull (g : Group) (counted : Nat) : Bool :=
  decide (64 ≤ g.que.jobs.length) || decide (262144 < g.jobBytes + counted)

/-- Program order of requests. -/
def CopyJob.before (a b : CopyJob) : Bool := decide (a.serial < b.serial) || (a.serial == b.serial && decide (a.idx < b.idx))

/-- Keys that a piece writes, and keys it reads. -/
def pieceDst (p : List CopyByte) : List Nat := p.map (·.key)
def pieceSrc (p : List CopyByte) : List Nat := p.filterMap fun b => b.src.map (·.1)

/-- Keys that a request still writes, and still reads. -/
def CopyJob.dstKeys (j : CopyJob) : List Nat := j.pieces.flatMap pieceDst
def CopyJob.srcKeys (j : CopyJob) : List Nat := j.pieces.flatMap pieceSrc

/-- Runs of keys that an access reaches. -/
def runsAt (s : State) (ctx : Ctx) (acc : Access) (addr : Word) (n : Nat) : List (Nat × Nat) :=
  (spanRefs (spans s ctx acc addr n)).map fun r => (r.1, r.2.1)

/-- Whether runs hold one of some keys, or meet other runs. -/
def runsHold (rs : List (Nat × Nat)) (keys : List Nat) : Bool :=
  keys.any fun k => rs.any fun r => decide (r.1 ≤ k) && decide (k < r.1 + r.2)
def runsMeet (a b : List (Nat × Nat)) : Bool :=
  a.any fun x => b.any fun y => decide (x.1 < y.1 + y.2) && decide (y.1 < x.1 + x.2)

/-- Keys that writes of a group's copy path write which are on their way to their homes (R372). -/
def copyFlightKeys (s : State) (core slot : Nat) : List Nat :=
  (s.flights.filter fun f => f.of s core slot && f.path == 3 && f.held == 0 && !f.performed).flatMap fun f => updateKeys f.upd

/-- Whether an access of the copy path at a place in program order has to wait for older requests and collectives of the group:
for their writes of what it reads or writes, those on their way to the host included, and for their reads of what it writes (R253,
R290). -/
def copyBlocks (s : State) (core slot : Nat) (g : Group) (serial : Nat) (reads writes : List (Nat × Nat)) : Bool :=
  g.que.jobs.any (fun j => decide (j.serial ≤ serial) && (runsHold (reads ++ writes) j.dstKeys || runsHold writes j.srcKeys))
    || runsHold (reads ++ writes) (copyFlightKeys s core slot)
    || s.fabric.runs.any fun r => r.core == core && r.slot == slot && decide (r.serial < serial) && runsMeet (reads ++ writes) r.writes

/-- A port's arrivals with those of one request begun, in stream order (R275). -/
def insertArrival (serial idx : Nat) : List Arrival → List Arrival
  | [] => [{ serial := serial, idx := idx, complete := false, nibbles := [] }]
  | a :: as =>
    if a.serial == serial && a.idx == idx then { a with complete := false, nibbles := [] } :: as
    else if serial < a.serial || (serial == a.serial && idx < a.idx) then
      { serial := serial, idx := idx, complete := false, nibbles := [] } :: a :: as
    else a :: insertArrival serial idx as

/-! ## The end of requests and entries (R285, R286, R289) -/

/-- A copy-queue entry has completed but for its place in its queue: its store-sequence entry has sent its bytes. -/
def Group.copyDone (g : Group) (serial : Nat) (x : Option (Nat × Word)) : Group :=
  let g1 := g.modCopy serial fun e => { e with done := some { flags := 0, xreg := x } }
  match g.que.cq.find? (·.serial == serial) with
  | some e => if e.seq == 0 then g1 else g1.markSent e.seq
  | none => g1

/-- An entry whose requests are all begun and over is done. -/
def Group.copyOver (g : Group) (serial : Nat) : Group :=
  match g.que.cq.find? (·.serial == serial) with
  | some e => if e.allBegun && !(g.que.jobs.any (·.serial == serial)) then g.copyDone serial none else g
  | none => g

/-- The requests of a list after the one that failed: those begun are given up, and nothing of them arrives (R289). -/
def Group.dropLater (g : Group) (serial idx : Nat) : Group :=
  let later (j : CopyJob) : Bool := j.serial == serial && decide (idx < j.idx)
  let g1 := { g with que := { g.que with jobs := g.que.jobs.filter fun j => !later j } }
  (g.que.jobs.filter fun j => later j && j.target == 2).foldl (fun (g : Group) j =>
    g.modArrival j.place j.serial j.idx fun a => { a with complete := true }) g1

/-- A fault of a request: a COPY's is recorded, a list's is held; a consumed error of a resilient team asks for a rollback
(R285, R289, R351). -/
def failRequest (s : State) (core slot : Nat) (serial : Nat) (listed : Bool) (record : Word) (code : Nat) (addr : Word) : State :=
  match s.group? core slot with
  | none => s
  | some g =>
    let pc := match g.que.cq.find? (·.serial == serial) with
      | some e => e.pc
      | none => 0
    let rolls := match s.team g.idn.team with
      | some t => t.resilient.isSome && consumed code
      | none => false
    if rolls || !listed then
      recordFault s core slot (g.modCopy serial fun e => { e with begun := false, allBegun := false, next := 0 })
        { serial := serial, code := code, src := 3, pc := pc, addr := addr, elem := 0 }
    else
      let g1 := { g with trp := { g.trp with held := some (g.trp.held.getD (record, code)) } }
      s.setGroup core slot ((g1.modCopy serial fun e => { e with allBegun := true }).copyOver serial)

/-- Whether a held write reports arrivals of a request. -/
def Flight.brings (f : Flight) (core slot : Nat) (j : CopyJob) : Bool :=
  f.core == core && f.slot == slot && f.held != 0 && (match f.report with
    | some (.port _ serial idx _ _) => serial == j.serial && idx == j.idx
    | _ => false)

/-- The arrivals of a request are complete: at once, or with the last of its sectors that its team still holds (R266, R275). -/
def endArrivals (s : State) (core slot : Nat) (j : CopyJob) : State :=
  match s.flights.reverse.span fun f => !f.brings core slot j with
  | (after, f :: before) =>
    let f1 := match f.report with
      | some (.port p serial idx ns _) => { f with report := some (.port p serial idx ns true) }
      | _ => f
    { s with flights := before.reverse ++ f1 :: after.reverse }
  | (_, []) => actReport s core slot 0 (.port j.place j.serial j.idx [] true)

/-- A request is over: its arrivals are complete, and its fault, where it ends with one, is acted on. -/
def endJob (s : State) (core slot : Nat) (j : CopyJob) : State :=
  let s0 := s.modGroup core slot fun g =>
    { g with que := { g.que with jobs := g.que.jobs.filter fun x => !(x.serial == j.serial && x.idx == j.idx) } }
  let s1 := if j.target == 2 then endArrivals s0 core slot j else s0
  match j.fault with
  | some f =>
    failRequest (if j.listed then s1.modGroup core slot fun g => g.dropLater j.serial j.idx else s1) core slot j.serial j.listed
      j.record f.code f.addr
  | none => s1.modGroup core slot fun g => g.copyOver j.serial

/-! ## Beginning a request (R285, R287) -/

/-- The third check of R285: the key of the barrier object, which the group may reach, or the port's number. -/
def checkTarget (s : State) (core slot : Nat) (g : Group) (a : CopyArgs) : Except Nat Nat :=
  match a.target with
  | 0 => .ok 0
  | 1 =>
    match s.teamOf g with
    | some t =>
      let key := padKey t.core (t.region + 48 * a.tgt)
      let addr := 0xFFFF_0000_0078_0000#64 + BitVec.ofNat 64 (48 * a.tgt)
      if t.size < 48 * a.tgt + 48 || (accessFault (spans s (ctxOf s core slot g) .atomic addr 48)).isSome
          || poisoned s (key / 48) || mismatched s (key / 48)
          || !(Barrier.ofNat (sectorData s (key / 48)).toNat).ok then .error cBarrier
      else .ok key
    | none => .error cBarrier
  | _ => if (g.port (a.tgt % 8)).kind = .copy then .ok (a.tgt % 8) else .error cStreamPort

/-- What beginning a request comes to. -/
inductive BeginEnd where
  | begun (s : State)
  | fault (code : Nat) (addr : Word)
  /-- A limit, an older request, or another team's checkpoint. -/
  | wait (team : Option Nat)

/-- A request begins: its checks in order, its bytes; where a resilient team cannot hold its writes it begins inside a
checkpoint, after the interval before it is published (R267, R283, R285). -/
def beginRequest (s : State) (core slot : Nat) (g : Group) (a : CopyArgs) (serial idx : Nat) (record : Word) (listed : Bool) :
    BeginEnd :=
  let ctx := ctxOf s core slot g
  if !a.wellFormed then .fault cUndefined a.word
  else if a.fn.isTile && (a.rect.1.1 == 0 || a.rect.2.1 == 0) then .fault cTile 0
  else if g.copyFull a.counted then .wait none
  else
    match checkTarget s core slot g a with
    | .error c => .fault c 0
    | .ok place =>
      let rows := a.rowSpans s ctx
      let src := srcSpans rows
      let dst := dstSpans rows
      match a.refused src dst with
      | some f => .fault f.1 f.2
      | none =>
        let refs := spanRefs dst
        let srcKeys := spanKeys (spanRefs src)
        let older := g.que.jobs.filter fun j => decide (j.serial < serial) || (j.serial == serial && decide (j.idx < idx))
        if a.converts && (older.any (fun j => sharesKey j.dstKeys srcKeys)
            || copyBlocks s core slot g serial (srcKeys.map fun k => (k, 1)) []) then .wait none
        else
          match if a.converts then (srcKeys.filterMap fun k => foreignLogged s g.idn.team (k / 48)).head? else none with
          | some t => .wait (some t)
          | none =>
            let resilient := match ctx.team with
              | some t => t.resilient.isSome
              | none => false
            let direct := resilient && refs.any fun r => !r.2.2.1.local_ && !r.2.2.1.holdable
            if direct && !ctx.inside s then .wait (some g.idn.team)
            else
              let s1 := if direct then publish s g.idn.team else s
              let s2 := touchSpans (touchSpans s1 ctx false src) ctx true dst
              let built := a.buildRows s2 g.idn.team rows
              let toLocal := refs.any fun r => r.2.2.1.local_
              let job : CopyJob :=
                { serial := serial, idx := idx, pieces := toPieces built.1,
                  hold := if resilient && !direct && !toLocal then g.idn.team else 0, bytes := a.counted,
                  target := a.target, place := place, phase := a.phase, toLocal := toLocal, record := record,
                  listed := listed
                  fault := built.2.map fun f => { serial := serial, code := f.1, src := 3, pc := 0, addr := f.2, elem := 0 } }
              let s3 := s2.modGroup core slot fun g =>
                let g1 := { g with que := { g.que with jobs := g.que.jobs ++ [job] } }
                if a.target == 2 then
                  let q := g1.port place
                  g1.setPort place { q with arrivals := insertArrival serial idx q.arrivals }
                else g1
              .begun (if job.pieces.isEmpty then endJob s3 core slot job else s3)

/-- A request record as its six doublewords (R313): none where a reserved bit or an unassigned code stands. -/
def recordArgs (e : CEntry) (v : Nat) : Option (CopyArgs × Bool) :=
  let f (lo len : Nat) : Nat := v / 2 ^ lo % 2 ^ len
  let fn : Option CopyFn := match f 256 4 with
    | 0 => some .linear
    | 1 => some .box
    | 2 => some .tilea
    | 3 => some .tileb
    | 4 => some .tilec
    | 5 => some .fill
    | 6 => some .remote
    | _ => none
  match fn with
  | none => none
  | some fn =>
    if f 266 5 != 0 || f 272 112 != 0 then none
    else
      some ({ fn := fn, fmt := f 262 4, target := f 260 2, xd := BitVec.ofNat 64 (f 0 64), xd1 := BitVec.ofNat 64 (f 64 64),
              xa := BitVec.ofNat 64 (f 128 64), xb := BitVec.ofNat 64 (f 192 64), gm := e.gm, gn := e.gn, gk := e.gk,
              gf := e.gf, word := e.word }, f 271 1 == 1)

/-- The next record of a list begins (R288, R289). -/
def beginRecord (s : State) (core slot : Nat) (g : Group) (e : CEntry) : BeginEnd :=
  let rec_ := e.xa + BitVec.ofNat 64 (48 * e.next)
  if !isLocal rec_ then .fault cAccess rec_
  else if (rec_.extractLsb' 0 19).toNat % 48 != 0 then .fault cMisaligned rec_
  else if copyBlocks s core slot g e.serial (runsAt s (ctxOf s core slot g) .load rec_ 48) [] then .wait none
  else
    let r := readMem s (ctxOf s core slot g) 3 2 true rec_ 48
    if r.stall.isSome then .wait r.stall
    else
      match r.fault with
      | some f => .fault f.1 f.2
      | none =>
        match recordArgs e r.val with
        | none => .fault cUndefined rec_
        | some (a, last) =>
          if !last && e.next == 63 then .fault cUndefined rec_
          else
            match beginRequest r.s core slot g a e.serial e.next rec_ true with
            | .begun s1 =>
              .begun (s1.modGroup core slot fun g =>
                (g.modCopy e.serial fun e => { e with next := e.next + 1, allBegun := e.allBegun || last }).copyOver e.serial)
            | x => x

/-- The entry whose request is begun next: bound, with a request still to begin. -/
def Group.bound (g : Group) : Option CEntry := g.que.cq.find? fun e => e.begun && !e.allBegun && e.done.isNone

/-- The request engine begins the bound COPY or the next record of the bound list: none where it has to wait. -/
def beginBound (s : State) (core slot : Nat) (g : Group) (e : CEntry) : Option State :=
  match e.op with
  | .copy fn fmt target =>
    match beginRequest s core slot g (e.args fn fmt target) e.serial 0 0 false with
    | .begun s1 =>
      -- a request that failed as it began executes again as a whole (R285)
      some (s1.modGroup core slot fun g =>
        (g.modCopy e.serial fun e => if e.begun then { e with allBegun := true } else e).copyOver e.serial)
    | .fault c a => some (failRequest s core slot e.serial false 0 c a)
    | .wait t => t.bind fun t => if (s.team t).any (!·.cut) then some (askCut s t) else none
  | .kick =>
    match beginRecord s core slot g e with
    | .begun s1 => some s1
    | .fault c a => some (failRequest s core slot e.serial true (e.xa + BitVec.ofNat 64 (48 * e.next)) c a)
    | .wait t => t.bind fun t => if (s.team t).any (!·.cut) then some (askCut s t) else none
  | _ => none

/-! ## Performing a sector (R283, R346) -/

/-- The value of a destination byte at its moment. -/
def CopyByte.value (b : CopyByte) (s : State) (team : Nat) : Byte :=
  match b.src with
  | none => b.val
  | some (k, _) =>
    if b.saved && Config.copyOverlap (s.tick + b.key) then b.val else (teamSector s team (k / 48)).byte k

/-- Whether a piece is one whole sector moved unchanged, each byte once, and the sector it comes from (R227). -/
def wholeMove (p : List CopyByte) : Option Nat :=
  match p with
  | { key := k, src := some (f, _), .. } :: _ =>
    if k % 48 == 0 && f % 48 == 0 && p.map (·.key) == (List.range 48).map (k + ·)
        && p.all (fun b => b.mask == 0xFF && (match b.src with | some (x, _) => x + k == b.key + f | none => false))
      then some (f / 48)
    else none
  | _ => none

/-- The sector that a whole move takes: as it stands, or where the copy has itself written into it perhaps as it stood before, with the
check value and mark that it has or had (R227, R283). -/
def movedSector (s : State) (team f : Nat) (p : List CopyByte) : L1Sector :=
  let x := teamSector s team f
  match p.find? (·.saved) with
  | none => x
  | some b =>
    if Config.copyOverlap (s.tick + 48 * f) then
      let bytes := p.map fun c => match c.src with
        | some (k, _) => if c.saved then c.val else x.byte k
        | none => c.val
      { x with data := BitVec.ofNat 384 (leBytes bytes), delta := b.delta, bad := b.bad }
    else x

/-- Bytes of later pieces whose source a piece is about to write keep what stood there, and how its sector stood (R283). -/
def saveBytes (s : State) (team : Nat) (keys : List Nat) (ps : List (List CopyByte)) : List (List CopyByte) :=
  ps.map fun p => p.map fun b =>
    match b.src with
    | some (k, _) =>
      if !b.saved && keys.contains k then
        let x := teamSector s team (k / 48)
        { b with val := x.byte k, saved := true, delta := x.delta, bad := x.bad }
      else b
    | none => b

/-- Bytes that a write of a sector adds to a team's undo log (R359). -/
def unlogged (s : State) (team sector : Nat) : Nat :=
  match regionTeam s (48 * sector) with
  | some (n, t) => if n == team && t.resilient.isSome && !logged t sector then 52 else 0
  | none => 0

/-- Whether a resilient team has to take a checkpoint before a piece: its set has no way, or the uncommitted bytes would pass
their limit (R224, R359). -/
def pieceFull (s : State) (core team : Nat) (j : CopyJob) (p : List CopyByte) : Bool :=
  match p with
  | [] => false
  | b :: _ =>
    let sector := b.key / 48
    -- the sector of the barrier object that the same action writes
    let object := if j.target == 1 && j.hold == 0 then unlogged s team (j.place / 48) else 0
    if j.hold == 0 then
      let own := if sector == j.place / 48 && j.target == 1 then 0 else unlogged s team sector
      own + object != 0 && decide (196608 < uncommitted s core + own + object)
    else
      let dirty := if (s.core core).l1.any fun x => x.sector == sector && x.dirty == team then 0 else 48
      !hasWay s core sector || (dirty != 0 && decide (196608 < uncommitted s core + dirty))

/-- What performing a piece comes to. -/
inductive PieceEnd where
  | done (s : State)
  | fault (code : Nat) (addr : Word)
  | wait (team : Nat)

/-- The stream values' bits in a byte: both halves, or the low half where a row ends in it (R275). -/
def byteNibbles (mask v : Byte) : List (BitVec 4) :=
  if mask == 0xFF then [v.extractLsb' 0 4, v.extractLsb' 4 4] else [v.extractLsb' 0 4]

/-- What a piece writes: a whole sector with the check value and mark of its source, or bytes (R227, R283). -/
def pieceUpdate (s : State) (team : Nat) (p : List CopyByte) : Update :=
  match wholeMove p, (pieceDst p).head? with
  | some f, some k =>
    let x := movedSector s team f p
    .move (k / 48) x.data x.delta x.bad
  | _, _ => .store (p.map fun b => (b.key, b.value s team, b.mask))

/-- What a piece reports as it performs (R275, R284, R346). -/
def pieceReport (s : State) (team : Nat) (j : CopyJob) (p : List CopyByte) : Option Report :=
  if j.target == 1 then some (.barrier j.place j.phase p.length)
  else if j.target == 2 then
    some (.port j.place j.serial j.idx (p.flatMap fun b => byteNibbles b.mask (b.value s team)) false)
  else none

/-- The write of a piece with its report: held by its team, on its way to the host, whose completion performs it (R372; log 18), or
performed at the home in one action. -/
def writePiece (s : State) (core slot : Nat) (g : Group) (j : CopyJob) (seq : Nat) (p : List CopyByte) : State :=
  let team := g.idn.team
  let u := pieceUpdate s team p
  let report := pieceReport s team j p
  let host := s.pace = .lagged && (updateKeys u).any isHostKey
  if j.hold != 0 || host then
    sendFlight s
      { core := core, slot := slot, epoch := (s.slot core slot).epoch, path := 3, seq := seq, serial := j.serial, upd := u,
        l1 := false, held := j.hold, team := team, host := host, performed := false, report := report }
  else
    let s0 := match (updateKeys u).head? with
      | some k => countAccess s core slot k false (beyondClass core k == some 12)
      | none => s
    let s1 := dropSectors (performUpdate s0 team u).1 core (updateSectors u)
    match report with
    | some r => actReport s1 core slot team r
    | none => s1

/-- One sector moved by a copy engine, and the die-cache sectors that it reads (R303; log 35). -/
def countPiece (s : State) (core slot : Nat) (p : List CopyByte) : State :=
  let read := dedup ((pieceSrc p).map (· / 48))
  (read.filter fun x => beyondClass core (48 * x) == some 12).foldl (fun a x => countDie a core slot (48 * x)) (s.count core slot 15 1)

/-- The next piece of a request performs, in one action with what it reports (R275, R284, R346). -/
def performPiece (s : State) (core slot : Nat) (g : Group) (j : CopyJob) : PieceEnd :=
  match j.pieces with
  | [] => .done (endJob s core slot j)
  | p :: ps =>
    let team := g.idn.team
    let seq := match g.que.cq.find? (·.serial == j.serial) with
      | some e => e.seq
      | none => 0
    let blocked := ((pieceDst p).filterMap (foreignRegion s team)
      ++ (pieceSrc p).filterMap fun k => foreignLogged s team (k / 48)).head?
    match blocked with
    | some t => .wait t
    | none =>
      match sourceFault s team (p.filterMap fun b => b.src.map fun f => (f.1, b.chk, f.2)) with
      | some f => .fault f.1 f.2
      | none =>
        let inside := (s.team team).any (·.inside)
        let full := pieceFull s core team j p
        if full && !inside then .wait team
        else
          let s0 := countPiece (if full then publish s team else s) core slot p
          let j1 := { j with pieces := saveBytes s0 team (pieceDst p) ps }
          let s1 := (writePiece s0 core slot g j seq p).modGroup core slot fun g =>
            { g with que := { g.que with jobs := g.que.jobs.map fun x => if x.serial == j.serial && x.idx == j.idx then j1 else x } }
          .done (if ps.isEmpty then endJob s1 core slot j1 else s1)

/-- The queued convoy that is the next to read a port. -/
def Group.portReader (g : Group) (n : Nat) : Option VEntry :=
  g.que.vq.find? fun e => e.done.isNone && e.members.any fun i => (pushInfo i).any (·.port == some n)

/-- Slices of the values that a port holds: as its next reader takes them, else a free width (R271, R275, R280; log 15). -/
def portWidth (s : State) (g : Group) (n : Nat) : Nat :=
  match g.portReader n with
  | some e => max 1 (vtEws e.vt)
  | none => 1 + Config.arrivalWidth s.tick % 16

/-- Pieces of arrival streams that some keys' bytes hold. -/
def arrivingPieces (ps : List (List CopyByte)) : Nat :=
  ps.foldl (fun a p => p.foldl (fun a b => a + (if b.mask == 0xFF then 2 else 1)) a) 0

/-- Whether the values of a request's next piece would pass what a port may buffer, those of its older requests still to come among
them, which no younger one keeps out (R271). DEDUCED (log 15): a copy that has to complete though nothing reads it goes on all the same:
before a pre-emption (`drain`) or a checkpoint, and as its group exits (R142, R269, R361). -/
def portFull (s : State) (g : Group) (drain : Bool) (j : CopyJob) : Bool :=
  let held := (g.port j.place).arrivals.foldl (fun a x => a + x.nibbles.length) 0
  let older := (g.que.jobs.filter fun o => o.before j && o.target == 2 && o.place == j.place).foldl (fun a o => a + arrivingPieces o.pieces) 0
  let must := drain || (s.teamOf g).any (·.cut) || (g.sca.status == .exiting && (g.portReader j.place).isNone)
  j.target == 2 && !must
    && decide (4 * g.vec.vlmax * portWidth s g j.place < held + older + arrivingPieces (j.pieces.take 1))

/-- Requests whose next piece may go: it keeps the order of one path on every byte, the requests of a list go one after the other,
so that none after a failing one performs, and its port has room (R253, R271, R289, R290). -/
def Group.readyJobs (g : Group) (s : State) (core slot : Nat) (drain : Bool) : List CopyJob :=
  g.que.jobs.filter fun j =>
    let dst := (j.pieces.head?.map pieceDst).getD []
    let src := (j.pieces.head?.map pieceSrc).getD []
    !(g.que.jobs.any fun o => o.before j
        && (o.serial == j.serial || sharesKey o.dstKeys dst || sharesKey o.dstKeys src || sharesKey o.srcKeys dst))
      && !(s.fabric.runs.any fun r => r.core == core && r.slot == slot && decide (r.serial < j.serial) && runsHold r.writes (dst ++ src))
      && !sharesKey (copyFlightKeys s core slot) (dst ++ src)
      && !portFull s g drain j

/-- A piece performs; a source error ends its request after the sectors written (R285 step 5). -/
def stepJob (s : State) (core slot : Nat) (g : Group) (j : CopyJob) : Option State :=
  match performPiece s core slot g j with
  | .done s1 => some s1
  | .fault c a =>
    some (endJob s core slot
      { j with pieces := [], fault := some { serial := j.serial, code := c, src := 3, pc := 0, addr := a, elem := 0 } })
  | .wait t => if (s.team t).any (!·.cut) then some (askCut s t) else none

end Sys2Proof.Machine
end

