-- ==== Sys2Proof/Machine/Ports.lean ====
section
/-! DEFINITION. QOP on a group's stream ports, and the fetching of record ports (R271 to R280, R312). -/

namespace Sys2Proof.Machine

/-! ## Binding records (R273, R279, R312) -/

/-- The binding that a record's 64 bytes give, or the fault of the checks of R279. DESIGN CHOICE (log 48): a FMT byte whose nibble is 11 to
15 and whose bits [7:4] are not 0 is a stream-port fault, though both checks of R279 and R309 fail for it and no order is given. -/
def bindingOf (word record : Word) (v : Nat) : Except (Nat × Word) Binding :=
  let f (lo len : Nat) : Nat := v / 2 ^ (8 * lo) % 2 ^ (8 * len)
  let count := f 24 5
  let fmt := f 29 1
  let sfmt := f 30 1
  let sblock := f 32 3
  let stride := BitVec.ofNat 64 (f 8 8)
  let powers := (List.range 17).map (2 ^ ·)
  if (11 ≤ fmt % 16 && fmt < 16) || (sblock != 0 && 11 ≤ sfmt % 16 && sfmt < 16) then .error (cUndefined, word)
  else if 16 ≤ fmt || 16 ≤ sfmt || f 31 1 != 0 || f 35 29 != 0 || count == 0
      || (sblock != 0 && (!powers.contains sblock || 7 ≤ sfmt)) || (sblock == 0 && sfmt != 0)
      || (stride != 0 && formatBits fmt == 4) then .error (cStreamPort, record)
  else .ok { base := BitVec.ofNat 64 (f 0 8), stride := stride, sbase := BitVec.ofNat 64 (f 16 8), count := count, fmt := fmt,
             sfmt := sfmt, sblock := sblock }

/-- A port bound anew and empty. -/
def Port.bound (k : PortKind) (b : Binding) : Port := { Port.empty with kind := k, bind := b }

/-! ## The functions (R279, R280) -/

/-- Values that reads could take now (R280), of so many slices each at a copy-arrival port. -/
def portAvail (serial width : Nat) (p : Port) : Nat :=
  min 4096 (match p.kind with
    | .unbound => 0
    | .record => (p.fetched.takeWhile (·.fault.isNone)).length
    | .copy => (arrivedNibbles serial p.arrivals).length / width
    | .fifo => p.fifo.length)

/-- The status word of QSTAT (R280). -/
def portStatus (s : State) (ctx : Ctx) (g : Group) (serial n : Nat) : Word :=
  let p := g.port n
  let avail := portAvail serial (portWidth s g n) p
  let done := match p.kind with
    | .unbound => false
    | .record => decide (p.bind.count ≤ p.pos)
    | .copy => avail == 0 && !g.olderCopy s ctx serial n
    | .fifo => avail == 0
  let kind := match p.kind with
    | .unbound => 0
    | .record => 1
    | .copy => 2
    | .fifo => 3
  if p.kind = .unbound then 0
  else BitVec.ofNat 64 (p.pos % 2 ^ 32 * 2 ^ 32 + avail * 2 ^ 16 + (if done then 8 else 0) + kind)

/-- QDRAIN's effect on a port (R279). -/
def Port.drain (p : Port) : Port :=
  match p.kind with
  | .unbound => p
  | .record => { p with pos := max p.pos p.bind.count, fetched := [] }
  | .copy => p.pass (p.arrivals.flatMap (·.nibbles)) []
  | .fifo => { p with fifo := [] }

/-- Whether a QOP has to wait for older copies (R279). -/
def portWaits (s : State) (ctx : Ctx) (g : Group) (e : CEntry) : Bool :=
  match e.op with
  | .drain n => (g.port n).kind = .copy && g.olderCopy s ctx e.serial n
  | _ => false

/-- QBIND of kind 0: the port is unbound, the record is read and checked; a fault of the record's bytes reports the record's
address (R279, R312). It waits for older copies that still write the record (R253). -/
def bindRecord (s : State) (core slot : Nat) (g : Group) (e : CEntry) (n : Nat) : Option State :=
  let g1 := g.setPort n .empty
  let s1 := s.setGroup core slot g1
  let r := readMem s1 (ctxOf s core slot g) 3 2 true e.xa 64
  if copyBlocks s core slot g e.serial (runsAt s (ctxOf s core slot g) .load e.xa 64) [] then none
  else if r.stall.isSome then r.stall.bind fun t => if (s.team t).any (!·.cut) then some (askCut s t) else none
  else
    match r.fault with
    | some f => some (failRequest r.s core slot e.serial false 0 f.1 e.xa)
    | none =>
      match bindingOf e.word e.xa r.val with
      | .error f => some (failRequest r.s core slot e.serial false 0 f.1 f.2)
      | .ok b => some (r.s.modGroup core slot fun g => (g.setPort n (.bound .record b)).copyDone e.serial none)

/-- A QOP acts on its port; none where it waits for another team's checkpoint. -/
def executeQop (s : State) (core slot : Nat) (g : Group) (e : CEntry) : Option State :=
  let plain (g : Group) : Option State := some (s.setGroup core slot (g.copyDone e.serial none))
  match e.op with
  | .bindMem n => bindRecord s core slot g e n
  | .bindCopy n => plain (g.setPort n (.bound .copy Port.empty.bind))
  | .bindFifo n => plain (g.setPort n (.bound .fifo Port.empty.bind))
  | .unbind n => plain (g.setPort n .empty)
  | .drain n => plain (g.setPort n (g.port n).drain)
  | .stat d n => some (s.setGroup core slot (g.copyDone e.serial (if d == 0 then none else some (d, portStatus s (ctxOf s core slot g) g e.serial n))))
  | _ => none

/-! ## Fetching (R271, R274) -/

/-- Whether a record port has a value to fetch and room for it. -/
def portFetches (g : Group) (n : Nat) : Bool :=
  let p := g.port n
  p.kind = .record && decide (p.fetched.length < portDepth g) && decide (p.pos + p.fetched.length < p.bind.count)

/-- One value of a record port is fetched; none where the fetch waits for a checkpoint that is asked for already. -/
def fetchPort (s : State) (core slot : Nat) (g : Group) (n : Nat) : Option State :=
  let p := g.port n
  match fetchValue s (ctxOf s core slot g) p.bind (p.pos + p.fetched.length) with
  | (s1, .ok f) => some (s1.modGroup core slot fun g => g.setPort n { g.port n with fetched := (g.port n).fetched ++ [f] })
  | (_, .error t) => t.bind fun t => if (s.team t).any (!·.cut) then some (askCut s t) else none

end Sys2Proof.Machine
end

