-- ==== Sys2Proof/Machine/Collective.lean ====
section
/-! DEFINITION. Collectives: the communicator and its descriptor, contributions, the reduction in rank order, results, attempts
(R378 to R383; log 33). -/

namespace Sys2Proof.Machine

/-! ## Communicators (R378) -/

/-- What a communicator's entry says to a group. -/
structure Comm where
  comm : Nat
  n : Nat
  rank : Nat
  ranks : Nat

/-- Reads an entry of the communicator table. -/
def commEntry (s : State) (comm : Nat) : Nat := memNat s.mem (s.trowel.commbase.toNat + 64 * comm) 64

def entryField (v lo len : Nat) : Nat := v / 2 ^ (8 * lo) % 2 ^ (8 * len)

/-- The check of R382 step 1. -/
def checkComm (s : State) (g : Group) (word xb : Word) : Except (Nat × Word) Comm :=
  let c := xb.toNat % 2 ^ 12
  let v := commEntry s c
  if xb >>> 12 != 0 then .error (cUndefined, word)
  else if s.trowel.commcount.toNat ≤ c || entryField v 0 1 % 2 == 0
      || entryField v 14 2 % 2 ^ 12 != (g.trp.asid.truncate 12 : BitVec 12).toNat || entryField v 10 2 == 0 then
    .error (cAccess, xb)
  else .ok { comm := c, n := entryField v 10 2, rank := entryField v 12 2, ranks := entryField v 16 8 }

/-- The present attempt of a communicator. -/
def attemptOf (s : State) (comm : Nat) : BitVec 32 := FMap.get 0 s.fabric.attempts comm

/-! ## Sizes (R380, R381) -/

/-- Bytes of an element of a reduction. -/
def elemBytes (fmt : Nat) : Nat := formatBits fmt / 8

/-- Bytes of a rank's contribution. -/
def CollRun.length (r : CollRun) : Nat :=
  match r.fn with
  | .allred | .redscat => r.count * elemBytes r.fmt
  | _ => r.count

/-- Bytes of a rank's result. -/
def CollRun.result (r : CollRun) : Nat :=
  match r.fn with
  | .allred => r.count * elemBytes r.fmt
  | .redscat => r.count / r.n * elemBytes r.fmt
  | .allgath => r.n * r.count
  | _ => r.count

/-- Whether a rank contributes. -/
def CollRun.gives (r : CollRun) (rank : Nat) : Bool := r.fn != .bcast || rank == r.root

/-- The limits of a descriptor (R380). -/
def CollRun.ok (r : CollRun) (v : Nat) : Bool :=
  entryField v 36 28 == 0 && entryField v 30 2 == 0 && decide (1 ≤ r.count) && decide (r.length ≤ 67108864)
    && decide (r.result ≤ 67108864) && (r.fn != .redscat || r.count % r.n == 0) && (r.fn != .bcast || decide (r.root < r.n))

/-! ## Contributions (R382) -/

/-- Byte i of a rank's contribution to a collective, where it has arrived. -/
def arrivedByte (inbox : List Contribution) (r : CollRun) (rank i : Nat) : Option Byte :=
  (inbox.filterMap fun c =>
    if c.comm == r.comm && c.attempt == r.attempt && c.seq == r.seq && c.rank == rank && decide (c.offset ≤ i) then c.data[i - c.offset]?
    else none).head?

/-- A rank's whole contribution, where it has arrived. -/
def arrivedAll (inbox : List Contribution) (r : CollRun) (rank : Nat) : Option (List Byte) :=
  (List.range r.length).mapM fun i => arrivedByte inbox r rank i

/-- The operator of a reduction on patterns (R113, R381). -/
def collOp (op cls w : Nat) (x y : Nat) : Nat × FlagSet :=
  let env := RoundEnv.plain
  let f : Val → Val → Val × FlagSet := if op == 0 then addVal env else minMaxVal (op == 1)
  floatOp env cls w f x y

/-- Element i of the reduction, over the ranks' contributions in rank order (R381). -/
def reduceElement (r : CollRun) (data : List (List Byte)) (i : Nat) : List Byte :=
  let fc := formatClass r.fmt
  let b := elemBytes r.fmt
  let ts : List Partial := data.map fun d => (some (leBytes ((d.drop (i * b)).take b)), 0)
  toBytes b (((halvingSum (collOp r.op fc.1 fc.2) ts).1).getD 0)

/-- What DST receives. -/
def CollRun.output (r : CollRun) (data : List (List Byte)) : List Byte :=
  match r.fn with
  | .allred => (List.range r.count).flatMap (reduceElement r data)
  | .redscat => (List.range (r.count / r.n)).flatMap fun i => reduceElement r data (r.rank * (r.count / r.n) + i)
  | _ => data.flatten

/-! ## What is sent (R375, R376, R382) -/

/-- Ports that may carry flits to a device now: those of its route entry that are up (R375, R376). -/
def routePorts (s : State) (dev : Nat) : BitVec 64 := BitVec.ofNat 64 (memNat s.mem (s.trowel.rtbase.toNat + 8 * dev) 8) &&& s.fabric.ports

/-- The port by which every flit to a line of a device leaves; 64 where its route entry names none that is up (R376). -/
def routePort (s : State) (dev line : Nat) : Nat :=
  let ps := (List.range 64).filter (routePorts s dev).getLsbD
  ps.getD (Config.routeHash dev line % ps.length) 64

/-- The device number of a rank (R378). -/
def rankDevice (s : State) (comm rank : Nat) : Nat := memNat s.mem (entryField (commEntry s comm) 16 8 + 2 * rank) 2

/-- The flits in which a rank sends its contribution to its peers (R382 step 4). -/
def contributionFlits (s : State) (r : CollRun) : List SentFlit :=
  if r.gives r.rank then
    ((List.range r.n).filter (· != r.rank)).flatMap fun j =>
      let dev := rankDevice s r.comm j
      (List.range ((r.length + 191) / 192)).map fun i =>
        { comm := r.comm, attempt := r.attempt, seq := r.seq, dev := dev, offset := 192 * i, port := routePort s dev (192 * i) }
  else []

/-- Whether a flit is of a collective. -/
def SentFlit.of (f : SentFlit) (r : CollRun) : Bool := f.comm == r.comm && f.attempt == r.attempt && f.seq == r.seq

/-- Whether a contribution is to a collective. -/
def Contribution.of (c : Contribution) (r : CollRun) : Bool := c.comm == r.comm && c.attempt == r.attempt && c.seq == r.seq

/-- What a rank's flits say of the collective (R379, R380). -/
def CollRun.head (r : CollRun) : CollHead :=
  let fn := match r.fn with
    | .allred => 0
    | .redscat => 1
    | .allgath => 2
    | .bcast => 3
    | .cabort => 4
    | .cattempt => 5
  { fn := fn, op := r.op, fmt := r.fmt, count := r.count, root := r.root }

/-- Whether a contribution of a rank at an offset disagrees with a collective begun here under the same number (R380). -/
def CollRun.disagrees (r : CollRun) (rank offset : Nat) (head : CollHead) : Bool :=
  head != r.head || !r.gives rank || decide (r.length ≤ offset)

/-! ## The end of a collective (R382, R383) -/

/-- Bytes written as a copy writes them (R264): at their homes, or on their way to the host, whose completion performs them (R372; log
18). -/
def collWrite (s : State) (core slot serial team : Nat) (ctx : Ctx) (addr : Word) (bs : List Byte) : State :=
  let sps := spans s ctx .store addr bs.length
  let s1 := touchSpans s ctx true sps
  let cells := ((spanKeys (spanRefs sps)).zip bs).map fun p => (p.1, p.2, 0xFF#8)
  let far := if s.pace = .lagged then cells.filter fun c => isHostKey c.1 else []
  let u : Update := .store (cells.filter fun c => !(s.pace = .lagged && isHostKey c.1))
  let s2 := dropSectors (performUpdate s1 team u).1 core (updateSectors u)
  let seq := (((s.group? core slot).bind fun g => g.que.cq.find? (·.serial == serial)).map (·.seq)).getD 0
  (dedup (far.map (·.1 / 48))).foldl (fun a x =>
    sendFlight a
      { core := core, slot := slot, epoch := (s.slot core slot).epoch, path := 3, seq := seq, serial := serial
        upd := .store (far.filter (·.1 / 48 == x)), l1 := false, held := 0, team := team, host := true, performed := false }) s2

/-- The team of another group whose checkpoint a write has to wait for. -/
def collBlocked (s : State) (team : Nat) (ctx : Ctx) (addr : Word) (n : Nat) : Option Nat :=
  ((spanKeys (spanRefs (spans s ctx .store addr n))).filterMap (foreignRegion s team)).head?

/-- One run looked at: aborted where its attempt is old, finished where every contribution is there and every flit that it sent has been
acknowledged, else left. -/
def finishRun (s : State) (r : CollRun) : State :=
  let gone (s : State) : State := { s with fabric := { s.fabric with runs := s.fabric.runs.filter (· != r) } }
  match s.group? r.core r.slot with
  | none => gone s
  | some g =>
    let ctx := ctxOf s r.core r.slot g
    let team := g.idn.team
    let ended (s : State) : State := (gone s).modGroup r.core r.slot fun g => g.copyDone r.serial none
    let status (s : State) (v : Nat) : State := collWrite s r.core r.slot r.serial team ctx (r.desc + 32) (toBytes 4 v)
    if r.attempt != attemptOf s r.comm then ended (status s 1)
    else if s.fabric.sent.any (·.of r) then s
    else
      match ((List.range r.n).filter r.gives).mapM (arrivedAll s.fabric.inbox r) with
      | none => s
      | some data =>
        match collBlocked s team ctx r.dst r.result with
        | some t => askCut s t
        | none =>
          let s1 := ended (status (collWrite s r.core r.slot r.serial team ctx r.dst (r.output data)) 0)
          { s1 with fabric := { s1.fabric with inbox := s1.fabric.inbox.filter fun c => !c.of r } }

/-- Every begun collective looked at. -/
def finishColls (s : State) : State := s.fabric.runs.foldl finishRun s

/-- An attempt newer than the device's own: taken over, the token sent on, older packets dropped, older collectives ended
(R383). -/
def advanceAttempt (s : State) (comm : Nat) (attempt : BitVec 32) : State :=
  if (attempt - attemptOf s comm).toInt ≤ 0 then s
  else
    finishColls { s with fabric := { s.fabric with
      attempts := FMap.set 0 s.fabric.attempts comm attempt
      tokens := s.fabric.tokens ++ [(comm, attempt)]
      inbox := s.fabric.inbox.filter fun c => c.comm != comm || c.attempt == attempt
      sent := s.fabric.sent.filter fun c => c.comm != comm || c.attempt == attempt } }

/-! ## A collective begins (R382) -/

/-- The descriptor's bytes (R380). -/
def collRun (core slot : Nat) (e : CEntry) (fn : CollFn) (fmt op : Nat) (c : Comm) (v : Nat) : CollRun :=
  { core := core, slot := slot, serial := e.serial, fn := fn, fmt := fmt, op := op, comm := c.comm, n := c.n, rank := c.rank,
    attempt := BitVec.ofNat 32 (entryField v 24 4), seq := BitVec.ofNat 32 (entryField v 20 4), root := entryField v 28 2,
    count := entryField v 16 4, dst := BitVec.ofNat 64 (entryField v 8 8), desc := e.xa, writes := [] }

/-- A collective that moves data: its limits, the faults of its addresses, its own contribution (R380 to R382). -/
def beginData (s : State) (core slot : Nat) (g : Group) (e : CEntry) (r : CollRun) (v : Nat) : State :=
  let ctx := ctxOf s core slot g
  let fail (s : State) (c : Nat) (a : Word) : State := failRequest s core slot e.serial false 0 c a
  let src := BitVec.ofNat 64 (entryField v 0 8)
  if !r.ok v then fail s cUndefined e.word
  else if r.attempt != attemptOf s r.comm then
    (collWrite s core slot e.serial g.idn.team ctx (e.xa + 32) (toBytes 4 1)).modGroup core slot fun g => g.copyDone e.serial none
  else
    let a : CopyArgs := { fn := .linear, fmt := 0, target := 0, xd := 0, xd1 := 0, xa := r.dst, xb := src, gm := 0, gn := 0,
                          gk := 0, gf := 0, word := e.word }
    let ssp := if r.gives r.rank then spans s ctx .load src r.length else []
    let dsp := spans s ctx .store r.dst r.result ++ spans s ctx .store (e.xa + 32) 4
    match a.refused ssp dsp with
    | some f => fail s f.1 f.2
    | none =>
      let s1 := touchSpans s ctx false ssp
      let keys := keyedRefs (spanRefs ssp)
      let r := { r with writes := (spanRefs dsp).map fun x => (x.1, x.2.1) }
      match sourceFault s1 g.idn.team (keys.map fun k => (k.1, true, k.2.2)) with
      | some f => fail s1 f.1 f.2
      | none =>
        let bs := keys.map fun k => (teamSector s1 g.idn.team (k.1 / 48)).byte k.1
        let own : Contribution :=
          { comm := r.comm, attempt := r.attempt, seq := r.seq, rank := r.rank, offset := 0, head := r.head, data := bs, port := 64 }
        let s2 := { s1 with fabric := { s1.fabric with
          runs := s1.fabric.runs ++ [r]
          inbox := s1.fabric.inbox ++ (if r.gives r.rank then [own] else [])
          sent := s1.fabric.sent ++ contributionFlits s r } }
        let s3 := (s2.count core slot 15 ((bs.length + 47) / 48)).modGroup core slot fun g =>
          g.modCopy e.serial fun e => { e with begun := true, allBegun := true }
        -- a peer's header that disagrees aborts it as it begins (R383)
        if s.fabric.inbox.any fun c => c.of r && r.disagrees c.rank c.offset c.head then advanceAttempt s3 r.comm (r.attempt + 1)
        else finishRun s3 r

/-- Whether a collective waits for older copies and collectives of its group: for their writes of its descriptor, its contribution
and its result, and for their reads of its result (R253, R264, R290). -/
def collWaits (s : State) (core slot : Nat) (g : Group) (e : CEntry) : Bool :=
  let ctx := ctxOf s core slot g
  let at_ (acc : Access) (a : Word) (n : Nat) : List (Nat × Nat) := runsAt s ctx acc a n
  let desc := at_ .load e.xa 64
  let v := (readMem s ctx 3 2 true e.xa 64).val
  match e.op with
  | .coll fn fmt op _ =>
    if fn = .cattempt || fn = .cabort then copyBlocks s core slot g e.serial desc desc
    else
      let c : Comm := { comm := 0, n := entryField (commEntry s (e.xb.toNat % 2 ^ 12)) 10 2, rank := 0, ranks := 0 }
      let r := collRun core slot e fn fmt op c v
      copyBlocks s core slot g e.serial desc desc
        || (r.ok v && copyBlocks s core slot g e.serial (at_ .load (BitVec.ofNat 64 (entryField v 0 8)) r.length) (at_ .store r.dst r.result))
  | _ => false

/-- A read of the descriptor by a collective: none where it waits for a checkpoint that is asked for already. -/
def readDescriptor (s : State) (core slot : Nat) (g : Group) (e : CEntry) (f : State → Nat → State) : Option State :=
  let q := readMem s (ctxOf s core slot g) 3 2 true e.xa 64
  match q.stall, q.fault with
  | some t, _ => if (s.team t).any (!·.cut) then some (askCut s t) else none
  | none, some x => some (failRequest q.s core slot e.serial false 0 x.1 x.2)
  | none, none => some (f q.s q.val)

/-- CATTEMPT writes the present attempt, and to the descriptor unless its register is x0 (R382). -/
def runCattempt (s : State) (core slot : Nat) (g : Group) (e : CEntry) (c : Comm) (d : Nat) : State :=
  let v := attemptOf s c.comm
  let finish_ (s : State) : State := s.modGroup core slot fun g =>
    g.copyDone e.serial (if d == 0 then none else some (d, v.zeroExtend 64))
  if e.word.toNat / 2 ^ 15 % 32 == 0 then finish_ s
  else
    let ctx := ctxOf s core slot g
    match accessFault (spans s ctx .store (e.xa + 24) 4) with
    | some f => failRequest s core slot e.serial false 0 f.1 f.2
    | none => finish_ (collWrite s core slot e.serial g.idn.team ctx (e.xa + 24) (toBytes 4 v.toNat))

/-- A COLL bound by the copy arbiter. In a resilient team it asks for the checkpoint inside which it performs, after the
interval before it is published (R266, R361 step 4); none where that is asked for already. -/
def executeColl (s : State) (core slot : Nat) (g : Group) (e : CEntry) (fn : CollFn) (fmt op d : Nat) : Option State :=
  match checkComm s g e.word e.xb with
  | .error f => some (failRequest s core slot e.serial false 0 f.1 f.2)
  | .ok c =>
    let resilient := (s.teamOf g).any (·.resilient.isSome)
    let inside := (s.teamOf g).any (·.inside)
    if collWaits s core slot g e then none
    else if resilient && !inside then if (s.teamOf g).any fun t => !t.cut then some (askCut s g.idn.team) else none
    else
      let s1 := if resilient then publish s g.idn.team else s
      match fn with
      | .cattempt => some (runCattempt s1 core slot g e c d)
      | .cabort =>
        readDescriptor s1 core slot g e fun s2 v =>
          if !(collRun core slot e fn fmt op c v).ok v then failRequest s2 core slot e.serial false 0 cUndefined e.word
          else
          let s3 := s2.modGroup core slot fun g => g.copyDone e.serial none
          if BitVec.ofNat 32 (entryField v 24 4) == attemptOf s2 c.comm then advanceAttempt s3 c.comm (attemptOf s2 c.comm + 1) else s3
      | _ => readDescriptor s1 core slot g e fun s2 v => beginData s2 core slot g e (collRun core slot e fn fmt op c v) v

end Sys2Proof.Machine
end

