-- ==== Sys2Proof/Machine/Trowel.lean ====
section
/-! DEFINITION. What the Trowel does for every other part: journal entries, messages, progress words under a queue's address
space, commands and their results, energy accounts (R293 to R306, R319, R374). -/

namespace Sys2Proof.Machine

/-! ## The journal (R298, R319) -/

/-- Key of byte 0 of the journal: physical, or in host memory where JBASE[63] is 1 (R310). -/
def journalBase (s : State) : Nat :=
  let b := (s.trowel.jbase.extractLsb' 0 52).toNat
  if s.trowel.jbase.getLsbD 63 then hostKey b else b

/-- Codes of the journal's states (R298). -/
def CmdState.code : CmdState → Nat
  | .accepted => 1
  | .started => 2
  | .done => 3
  | .failed => 4
  | .cancelled => 5
  | .abandoned => 6

/-- The bytes of a journal entry (R319). -/
def journalBytes (state reason queue kind seq ring jgen : Nat) (tag : Word) (stamp : Nat) : List Byte :=
  let b (v : Nat) : Byte := BitVec.ofNat 8 v
  let body := [b state, b reason] ++ toBytes 2 queue ++ [b kind, 0, 0, 0] ++ toBytes 8 (seq % 2 ^ 48) ++ toBytes 4 ring
    ++ toBytes 4 jgen ++ toBytes 8 tag.toNat ++ toBytes 8 stamp ++ List.replicate 20 0
  body ++ toBytes 4 (crc32c body).toNat

/-- A journal entry written, or rewritten (R298); an entry that a smaller JLOG has put outside the ring is not (log 37). -/
def writeJournal (s : State) (idx : Nat) (bs : List Byte) : State :=
  if idx < 2 ^ s.trowel.jlog then writeBytes s (journalBase s + 64 * idx) bs else s

/-- A command's journal entry in a state. -/
def journalCommand (s : State) (q : Nat) (c : Command) (st : CmdState) (reason : Nat) (tag : Word) : State :=
  writeJournal s c.jidx (journalBytes st.code reason q c.kind c.seq c.ring c.jgen tag s.refTicks)

/-- Whether the entry at JHEAD belongs to a command that is not final (R298). -/
def journalFull (s : State) : Bool :=
  s.queues.any fun q => q.2.commands.any fun c => c.jidx == s.trowel.jhead

/-- JHEAD at an index, or wrapped to 0 where the ring has no such entry (R298). -/
def Trowel.headAt (t : Trowel) (n : Nat) : Trowel :=
  if 2 ^ t.jlog ≤ n then { t with jhead := 0, jgen := (t.jgen + 1) % 2 ^ 32 } else { t with jhead := n }

/-- JHEAD after an acceptance (R298). -/
def advanceJournal (s : State) : State := { s with trowel := s.trowel.headAt (s.trowel.jhead + 1) }

/-! ## Messages (R374) -/

def sendMsg (s : State) (kind queue : Nat) (value : Word) : State :=
  { s with msgs := s.msgs ++ [{ kind := kind, queue := queue, value := value }] }

/-! ## Progress words (R293, R294, R334) -/

/-- A progress word of a command, or why it cannot be used. -/
def trowelWord (s : State) (ctx : Ctx) (acc : Access) (addr : Word) : Except (Nat × Word) (List Span) :=
  match progressSpans s ctx acc addr with
  | .error f => .error f
  | .ok sps =>
    match spanRefs sps with
    | (key, _, r, _) :: _ =>
      if poisoned s (key / 48) then .error (cMachine, addr)
      else if r.chk && mismatched s (key / 48) then .error (cCheck, addr)
      else .ok sps
    | [] => .error (cTranslation, addr)

/-- Bits OR-ed into a progress word where it can be translated, as one update (R294, R369). -/
def markWord (s : State) (ctx : Ctx) (addr : Word) (bits : Nat) : State :=
  if addr == 0 then s
  else
    match progressSpans s ctx .store addr with
    | .error _ => s
    | .ok sps =>
      match spanRefs sps with
      | (key, _, _, _) :: _ => (performUpdate (touchSpans s ctx true sps) 0 (.progress key false bits)).1
      | [] => s

/-- The complete and poisoned bits. -/
def completeBit : Nat := 2 ^ 62
def poisonedBit : Nat := 2 ^ 63

/-! ## Commands -/

/-- The command of a queue whose journal entry has that index: no two commands that are not final share one (R298). -/
def CmdQueue.command (c : CmdQueue) (j : Nat) : Option Command := c.commands.find? (·.jidx == j)

/-- A change of one command. -/
def modCommand (s : State) (q j : Nat) (f : Command → Command) : State :=
  let c := s.queue q
  s.setQueue q { c with commands := c.commands.map fun x => if x.jidx == j then f x else x }

/-- A change of one task. -/
def modTask (s : State) (n : Nat) (f : Task → Task) : State :=
  match s.task n with
  | some k => s.setTask n (some (f k))
  | none => s

/-- A command has reached its result; the first stands (R295 step 4). -/
def resultCommand (s : State) (q j : Nat) (st : CmdState) (reason : Nat) (tag : Word) : State :=
  modCommand s q j fun c => { c with result := some (c.result.getD (st, reason, tag)) }

/-- A command's journal entry becomes STARTED (R295 step 3). -/
def startCommand (s : State) (q : Nat) (c : Command) : State :=
  modCommand (journalCommand s q c .started 0 0) q c.jidx fun c => { c with state := .started }

/-- Doubleword i of a command. -/
def Command.dw (c : Command) (i : Nat) : Word := c.words.getD i 0

/-- The table of R296 for one command, with the REASON it gives; and whether it cancels it. -/
def cancelCommand (s : State) (q : Nat) (c : Command) (reason : Nat) : State × Bool :=
  if c.result.isSome then (s, false)
  else if c.state = .accepted then
    (resultCommand (if c.task == 0 then s else s.setTask c.task none) q c.jidx .cancelled reason 0, true)
  else if c.kind == 1 then
    match s.task c.task with
    | some t => if t.kill.isSome then (s, false) else (s.setTask c.task (some { t with kill := some reason }), true)
    | none => (s, false)
  else if c.kind == 4 || c.kind == 5 then (resultCommand s q c.jidx .cancelled reason 0, true)
  else (s, false)

/-- The commands of a queue that satisfy a test, cancelled in order; and how many were. -/
def cancelWhere (s : State) (q reason : Nat) (p : Command → Bool) : State × Nat :=
  ((s.queue q).commands.filter p).foldl (fun a c =>
    let r := cancelCommand a.1 q c reason
    (r.1, if r.2 then a.2 + 1 else a.2)) (s, 0)

/-! ## Energy accounts (R303 to R306, R329) -/

/-- Coefficient of an event class, 0 before the driver writes ECTBASE (R329). -/
def coefficient (s : State) (cls : Nat) : Nat := if s.trowel.ectSet then memNat s.mem (s.trowel.ectbase.toNat + 4 * cls) 4 else 0

/-- Events of a class counted for a slot: MACs in units of 1,024, cycles from the clock, and for each access to the die cache the free
number of sectors that it has moved to and from HBM4 or DDR-5; each counter saturates (R303, R330; log 35). -/
def activityCount (s : State) (core slot cls : Nat) : Nat :=
  let sl := s.slot core slot
  let n := FMap.get 0 sl.activity cls
  let since := FMap.get 0 sl.activity 16
  min (2 ^ 32 - 1)
    (if cls == 0 then s.now - since
     else if 6 ≤ cls && cls ≤ 10 then n / 1024
     else if cls == 13 || cls == 14 then
       (List.range n).foldl (fun a i => a + Config.traffic (((since * 292 + core) * 32 + slot * 2 + cls % 2) * 2 ^ 32 + i)) 0
     else n)

/-- The queue that a group's work is charged to. -/
def queueOf (s : State) (g : Group) : Option Nat :=
  (s.teamOf g).bind fun t => (s.task t.task).map (·.queue)

/-- A queue whose charge has reached its budget is descheduled (R306). -/
def CmdQueue.deschedule (c : CmdQueue) : CmdQueue := if c.budget != 0 && decide (c.budget ≤ c.charge) then { c with descheduled := true } else c

/-- The counters of a slot read, cleared and charged to its queue (R304). -/
def chargeSlot (s : State) (core slot : Nat) : State :=
  match (s.group? core slot).bind (queueOf s) with
  | none => s
  | some q =>
    let pj := (List.range 16).foldl (fun a i => a + activityCount s core slot i * coefficient s i) 0
    let c := s.queue q
    let sum := c.remainder + pj
    let s1 := s.setQueue q ({ c with charge := c.charge + sum / 1000000, remainder := sum % 1000000 }).deschedule
    s1.setSlot core slot { s1.slot core slot with activity := FMap.set 0 [] 16 s.now }

/-! ## The firmware cores' duties (R384) -/

/-- Whether a firmware core has the duties of a die: one of the die's own, or the first of the other die. -/
def dutyTaken (s : State) (die : Nat) : Bool :=
  let up (i : Nat) : Bool := !(s.core (288 + i)).down
  up (2 * die) || up (2 * die + 1) || up (2 * (1 - die))

/-! ## The core map (R328) -/

/-- The map entry of a core. -/
def mapEntry (s : State) (core : Nat) : Word := BitVec.ofNat 64 (memNat s.mem (Config.cmapBase + 8 * core) 8)

/-- STATE of a core's entry. -/
def mapState (s : State) (core : Nat) : Nat := ((mapEntry s core).extractLsb' 21 3).toNat

/-- The entry with another STATE, or another MAPOUT, as one write. -/
def setMapState (s : State) (core st : Nat) : State :=
  writeNat s (Config.cmapBase + 8 * core) 8 (((mapEntry s core) &&& ~~~(7#64 <<< 21)) ||| (BitVec.ofNat 64 st <<< 21)).toNat

def setMapOut (s : State) (core n : Nat) : State :=
  writeNat s (Config.cmapBase + 8 * core) 8 (((mapEntry s core) &&& ~~~(15#64 <<< 28)) ||| (BitVec.ofNat 64 n <<< 28)).toNat

/-- A bit of an array of doublewords in memory, written where it changes. -/
def writeFlag (s : State) (base i : Nat) (v : Bool) : State :=
  let key := base + i / 8
  let old := memNat s.mem key 1
  if Nat.testBit old (i % 8) == v then s else writeNat s key 1 (old ^^^ 2 ^ (i % 8))

end Sys2Proof.Machine
end

