-- ==== Sys2Proof/Machine/Image.lean ====
section
/-! DEFINITION. Context images: the bytes of a pre-empted team, and a team read back from them (R198, R309, R322 to R327; log
28). -/

namespace Sys2Proof.Machine

/-! ## Bytes -/

/-- Zeros up to a multiple of 64. -/
def pad64 (bs : List Byte) : List Byte := bs ++ List.replicate (alignUp 64 bs.length - bs.length) 0

/-- A little-endian field of an image. -/
def imgNat (bs : List Byte) (off n : Nat) : Nat := leBytes ((bs.drop off).take n)

/-- A part of an image. -/
def imgPart (bs : List Byte) (off n : Nat) : List Byte := (bs.drop off).take n

def imgWord (bs : List Byte) (off : Nat) : Word := BitVec.ofNat 64 (imgNat bs off 8)

/-! ## Saved queue entries (R325) -/

/-- An instruction's word as stored. -/
def wordBytes (i : Instr) : List Byte := toBytes 4 ((encode i).getD 0)

def vectorEntryImage (e : VEntry) (head : Bool) (vst : Nat) : List Byte :=
  let words := e.members.flatMap wordBytes
  let flags := (if head then 1 else 0) + (if e.det then 2 else 0) + (if e.notify then 4 else 0)
  let caps := (e.caps.flatMap id).take 9
  words ++ List.replicate (16 - words.length) 0 ++ toBytes 1 e.members.length ++ toBytes 1 flags
    ++ toBytes 2 (if head then vst else 0) ++ toBytes 2 e.vl ++ toBytes 2 e.vlmax ++ toBytes 4 0 ++ toBytes 4 e.sc
    ++ toBytes 4 (e.vt.toNat % 2 ^ 30) ++ [0] ++ toBytes 6 e.pw.toNat ++ toBytes 5 (e.seq % 2 ^ 38) ++ toBytes 8 e.gate.toNat
    ++ caps.flatMap (fun w => toBytes 8 w.toNat) ++ List.replicate (8 * (9 - caps.length)) 0

def matrixEntryImage (e : MEntry) : List Byte :=
  wordBytes e.instr ++ toBytes 4 0 ++ toBytes 8 e.x.toNat ++ toBytes 8 e.y.toNat ++ toBytes 8 e.vt.toNat
    ++ toBytes 4 e.gm.toNat ++ toBytes 4 e.gn.toNat ++ toBytes 4 e.gk.toNat ++ toBytes 2 e.gf.toNat ++ toBytes 2 e.vl
    ++ List.replicate 16 0

def copyEntryImage (e : CEntry) : List Byte :=
  toBytes 4 e.word.toNat ++ toBytes 4 0 ++ toBytes 8 e.xd.toNat ++ toBytes 8 e.xd1.toNat ++ toBytes 8 e.xa.toNat
    ++ toBytes 8 e.xb.toNat ++ toBytes 6 (e.seq % 2 ^ 38) ++ toBytes 4 e.gm.toNat ++ toBytes 4 e.gn.toNat
    ++ toBytes 4 e.gk.toNat ++ toBytes 2 e.gf.toNat ++ toBytes 4 0

/-! ## Ports (R312, R326) -/

def bindingImage (b : Binding) : List Byte :=
  toBytes 8 b.base.toNat ++ toBytes 8 b.stride.toNat ++ toBytes 8 b.sbase.toNat ++ toBytes 5 b.count ++ toBytes 1 b.fmt
    ++ toBytes 1 b.sfmt ++ [0] ++ toBytes 3 b.sblock ++ List.replicate 29 0

/-- The 4-bit pieces that a copy-arrival port holds. -/
def Port.pieces (p : Port) : List (BitVec 4) := p.arrivals.flatMap (·.nibbles)

/-- Pieces as bytes, the low half first. -/
def nibbleBytes : List (BitVec 4) → List Byte
  | [] => []
  | [a] => [BitVec.ofNat 8 a.toNat]
  | a :: b :: ns => BitVec.ofNat 8 (a.toNat + 16 * b.toNat) :: nibbleBytes ns

/-- The saved values of a port, its NSAVED and its BITOFF. -/
def portSaved (p : Port) : List Byte × Nat × Nat :=
  match p.kind with
  | .copy =>
    let bs := nibbleBytes (if p.odd then p.half :: p.pieces else p.pieces)
    (bs, bs.length, if p.odd then 4 else 0)
  | .fifo => (p.fifo.flatMap fun v => toBytes 8 v.1 ++ toBytes 1 v.2 ++ List.replicate 7 0, p.fifo.length, 0)
  | _ => ([], 0, 0)

def PortKind.code : PortKind → Nat
  | .unbound => 0
  | .record => 1
  | .copy => 2
  | .fifo => 3

def portHeader (p : Port) : List Byte :=
  let v := portSaved p
  (if p.kind = .record then bindingImage p.bind else List.replicate 64 0) ++ toBytes 1 p.kind.code ++ toBytes 1 v.2.2
    ++ List.replicate 6 0 ++ toBytes 8 p.pos ++ toBytes 4 v.2.1 ++ List.replicate 44 0

def portsImage (g : Group) : List Byte :=
  (List.range 8).flatMap (fun q => portHeader (g.port q)) ++ (List.range 8).flatMap fun q => pad64 (portSaved (g.port q)).1

/-! ## Group images (R323, R324) -/

def slicesImage (g : Group) : List Byte :=
  (List.range g.vec.vlmax).flatMap fun e =>
    toBytes (g.idn.alloc / 2) ((FMap.get 0 g.fil.slices e).toNat % 2 ^ (4 * g.idn.alloc))

def masksImage (g : Group) : List Byte := (List.range 12).flatMap fun m => toBytes (g.vec.vlmax / 8) (g.mask m).toNat

def tilesImage (g : Group) : List Byte :=
  if grantOf g.gra.gm == 0 then []
  else (List.range 4).flatMap fun t => tileImage g.gra.gm g.gra.gn g.gra.gk g.gra.gf (g.tile t) t

/-- A box of values of b bits, row by row without gaps (R193). -/
def packBits (b : Nat) (vs : List Nat) : Nat := vs.foldr (fun v a => v % 2 ^ b + 2 ^ b * a) 0

def latchImage (g : Group) : List Byte :=
  match g.fil.latch with
  | none => []
  | some l =>
    let b := formatBits l.ifmt
    toBytes (l.gm * l.gk * b / 8) (packBits b ((pairsBelow l.gm l.gk).map fun ij => FMap.get 0 l.vals (ij.1 * 65536 + ij.2)))

def queuesImage (g : Group) : List Byte :=
  (g.que.vq.zipIdx.flatMap fun p => vectorEntryImage p.1 (p.2 == 0) g.vec.vst) ++ g.que.mq.flatMap matrixEntryImage
    ++ g.que.cq.flatMap copyEntryImage

/-- Everything after the control area. -/
def sectionsImage (g : Group) : List Byte :=
  pad64 (slicesImage g) ++ pad64 (masksImage g) ++ pad64 (tilesImage g) ++ pad64 (latchImage g) ++ portsImage g ++ queuesImage g

def latchTag (g : Group) : Nat :=
  match g.fil.latch with
  | none => 0
  | some l => l.start + l.gm * 2 ^ 16 + l.gk * 2 ^ 32 + l.ifmt * 2 ^ 48 + 2 ^ 63

/-- The doublewords of the control area but the last four (R323). -/
def controlWords (s : State) (core slot : Nat) (g : Group) : List Nat :=
  (List.range 31).map (fun r => (g.x (r + 1)).toNat)
    ++ [g.resumePc.toNat,
        g.vec.vl + g.vec.vlmax * 2 ^ 16 + g.vec.vst * 2 ^ 32 + g.sca.level.code * 2 ^ 48
          + (if g.trp.frozen then 2 ^ 50 else 0) + g.sca.latch.toNat * 2 ^ 52,
        g.vec.vt.toNat, g.vec.sc + g.vec.fs.toNat * 2 ^ 32, g.gra.gm.toNat + g.gra.gn.toNat * 2 ^ 32,
        g.gra.gk.toNat + g.gra.gf.toNat * 2 ^ 32, g.ord.wseq, g.ord.wdone,
        g.count 0 + g.count 1 * 2 ^ 16 + g.count 2 * 2 ^ 32 + g.count 3 * 2 ^ 48,
        g.ord.pw.toNat, g.ord.gate.toNat, g.ord.gcons.toNat, (clsImage s core slot g).toNat,
        (gidImage core slot g.idn).toNat, g.idn.gpri + g.idn.tattr.toNat * 2 ^ 8, latchTag g]
    ++ [g.trp.trpc.toNat, g.trp.tres.toNat, g.trp.tcause.toNat, g.trp.taddr.toNat, g.trp.telem.toNat, g.trp.tvec.toNat,
        g.trp.tsv0.toNat, g.trp.tsv1.toNat, g.trp.ptb.toNat, g.trp.asid.toNat,
        (match g.trp.held with | some h => h.1.toNat | none => 0),
        (match g.trp.held with | some h => h.2 + 2 ^ 8 | none => 0),
        g.que.vq.length + g.que.mq.length * 2 ^ 16 + g.que.cq.length * 2 ^ 32]

/-- A group's image. -/
def groupImage (s : State) (core slot : Nat) (g : Group) : List Byte :=
  let body := sectionsImage g
  (controlWords s core slot g ++ [512 + body.length, 0, 0, 0]).flatMap (toBytes 8 ·) ++ body

/-! ## Team images (R322) -/

/-- The team region's part: its bytes and its stored check values. -/
def regionImage (s : State) (t : Team) : List Byte :=
  let lo := padKey t.core t.region
  pad64 (memBytes s.mem lo t.size
    ++ (List.range (t.size / 48)).flatMap fun i => toBytes 4 (storedCheck s.mem s.chk (lo / 48 + i)).toNat)

def teamHeader (t : Team) (k : Task) (total : Nat) : List Byte :=
  let body := toBytes 8 k.descr.addr.toNat ++ toBytes 4 t.cluster ++ toBytes 1 t.cidx ++ toBytes 1 k.descr.groups
    ++ toBytes 1 (coreClass t.core) ++ [0] ++ toBytes 4 t.size ++ toBytes 4 t.frame ++ toBytes 8 0 ++ toBytes 8 total
    ++ toBytes 2 k.queue ++ List.replicate 18 0
  body ++ toBytes 4 (crc32c body).toNat

/-- A team's whole image. -/
def teamImage (s : State) (t : Team) (k : Task) (gs : List (Nat × Nat × Group)) : List Byte :=
  let body := regionImage s t ++ gs.flatMap fun e => groupImage s e.1 e.2.1 e.2.2
  teamHeader t k (64 + body.length) ++ body

/-! ## Reading an image back (R327) -/

/-- Whether bits outside a mask are zero. -/
def onlyBits (v mask : Nat) : Bool := v &&& mask == v

/-- Bits that the control area defines, where a doubleword has reserved ones (R69 to R78, R323). -/
def controlMasks : List (Nat × Nat) :=
  [(32, 0x0077_07FF_07FF_07FF), (33, 0x3FFF_FFFF), (34, 0x1_03FF_FFFF_FFFF), (36, 0xFFF_FFFF_FFFF), (37, 2 ^ 38 - 1),
   (38, 2 ^ 38 - 1), (40, 0xFFFF_FFFF_FFF8), (41, 0xFFFF_FFFF_FFFF_FFF9), (43, 0x3FFF_FFFF_003F_FFFF),
   (44, 2 ^ 41 - 1), (45, 0xF0F), (46, 0x800F_FFFF_FFFF_03FF), (49, 0x37FF), (51, 0x7FF), (52, 0xFFFF_FFFF_F000),
   (55, 0xF_FFFF_FFFF_C000), (56, 0xFFF), (58, 0x1FF), (59, 0x1F_001F_003F), (61, 0), (62, 0), (63, 0)]

/-- The place of each section of a group image. -/
structure Sections where
  alloc : Nat
  vlmax : Nat
  gm : Nat
  gn : Nat
  gk : Nat
  gf : BitVec 12
  held : Bool
  slices : Nat
  masks : Nat
  tiles : Nat
  latch : Nat
  ports : Nat
  /-- Place and size of each port's saved values. -/
  saved : List (Nat × Nat)
  queues : Nat
  nv : Nat
  nm : Nat
  nc : Nat
  size : Nat

/-- Bytes of a port's saved values by its header. -/
def savedSize (kind n : Nat) : Nat := if kind == 2 then n else if kind == 3 then 16 * n else 0

/-- Ports' saved values laid one after the other. -/
def layPorts (bs : List Byte) (ports : Nat) : Nat → Nat → List (Nat × Nat)
  | 0, _ => []
  | n + 1, off =>
    let h := ports + 128 * (7 - n)
    let size := savedSize (imgNat bs (h + 64) 1) (imgNat bs (h + 80) 4)
    (off, size) :: layPorts bs ports n (off + alignUp 64 size)

def sectionsOf (bs : List Byte) : Sections :=
  let dw (i : Nat) : Nat := imgNat bs (8 * i) 8
  let alloc := dw 43 / 2 ^ 48 % 1024
  let vlmax := dw 32 / 2 ^ 16 % 2048
  let gm := dw 35 % 2 ^ 16
  let gn := dw 35 / 2 ^ 32 % 2 ^ 16
  let gk := dw 36 % 2 ^ 16
  let gf := BitVec.ofNat 12 (dw 36 / 2 ^ 32)
  let held := decide (2 ^ 63 ≤ dw 46)
  let masks := 512 + alignUp 64 (alloc * vlmax / 2)
  let tiles := masks + alignUp 64 (12 * vlmax / 8)
  let latch := tiles + (if gm == 0 then 0 else alignUp 64 (4 * (64 + gm * gn * accBytes (gfAcc gf))))
  let ports := latch
    + (if held then alignUp 64 (dw 46 / 2 ^ 16 % 2 ^ 16 * (dw 46 / 2 ^ 32 % 2 ^ 16) * formatBits (dw 46 / 2 ^ 48 % 16) / 8) else 0)
  let saved := layPorts bs ports 8 (ports + 1024)
  let queues := saved.foldl (fun a p => max a (p.1 + alignUp 64 p.2)) (ports + 1024)
  let nv := dw 59 % 64
  let nm := dw 59 / 2 ^ 16 % 32
  let nc := dw 59 / 2 ^ 32 % 32
  { alloc := alloc, vlmax := vlmax, gm := gm, gn := gn, gk := gk, gf := gf, held := held, slices := 512, masks := masks,
    tiles := tiles, latch := latch, ports := ports, saved := saved, queues := queues, nv := nv, nm := nm, nc := nc,
    size := queues + 128 * nv + 64 * (nm + nc) }

/-- The vector or matrix instruction of a saved word. -/
def savedWord (bs : List Byte) (off : Nat) : Option Instr :=
  (decodeQueued (imgNat bs off 4)).toOption.filter fun i => i.check.isNone

/-- The members of a saved vector entry, where each word is a vector-queue instruction and the unused words are 0. -/
def vectorWords (bs : List Byte) (h : Nat) : Option (List Instr) :=
  let n := imgNat bs (h + 16) 1
  let is := (List.range n).filterMap fun i => (savedWord bs (h + 4 * i)).filter fun i => (pushInfo i).isSome
  if n == 0 || decide (4 < n) || is.length != n || imgNat bs (h + 4 * n) (16 - 4 * n) != 0 then none else some is

/-- The instruction of a saved matrix entry. -/
def matrixWord (bs : List Byte) (h : Nat) : Option Instr := (savedWord bs h).filter isMatrix
where
  isMatrix : Instr → Bool
    | .tlda _ _ | .tmma _ _ _ _ | .tmmaOvr _ _ _ _ | .tzero _ | .tldacc _ _ _ | .tstacc _ _ _ _ | .tsave _ _ | .trestore _ _ => true
    | .ttov _ _ | .tfromv _ _ | .trel => true
    | _ => false

/-- What the word of a saved copy entry does. -/
def copyWord (bs : List Byte) (h : Nat) : Option CopyOp := copyOpOfWord (imgNat bs h 4)

/-- The reserved fields of a group image, doubleword 60 against its sections, and queue entries whose words are of their queue. -/
def groupImageOk (bs : List Byte) (x : Sections) : Bool :=
  imgNat bs 480 8 == x.size
    && controlMasks.all (fun m => onlyBits (imgNat bs (8 * m.1) 8) m.2)
    && (List.range (if x.gm == 0 then 0 else 4)).all (fun t =>
      let h := x.tiles + t * (64 + x.gm * x.gn * accBytes (gfAcc x.gf))
      imgNat bs (h + 24) 40 == 0 && decide (imgNat bs (h + 15) 1 < 4) && decide (imgNat bs (h + 14) 1 < 16)
        && decide (imgNat bs (h + 12) 1 < 16))
    && (List.range 8).all (fun q =>
      let h := x.ports + 128 * q
      imgNat bs (h + 84) 44 == 0 && imgNat bs (h + 66) 6 == 0 && decide (imgNat bs (h + 65) 1 < 8) && decide (imgNat bs (h + 64) 1 < 4)
        && imgNat bs (h + 35) 29 == 0 && imgNat bs (h + 31) 1 == 0 && decide (imgNat bs (h + 29) 1 < 16)
        && decide (imgNat bs (h + 30) 1 < 16) && decide (imgNat bs (h + 32) 3 < 2 ^ 17))
    && (List.range x.nv).all (fun i =>
      let h := x.queues + 128 * i
      [18, 20, 22].all (fun o => decide (imgNat bs (h + o) 2 < 2 ^ 11))
        && imgNat bs (h + 36) 1 == 0 && imgNat bs (h + 24) 4 == 0 && decide (imgNat bs (h + 17) 1 < 8)
        && decide (imgNat bs (h + 43) 5 < 2 ^ 38) && decide (imgNat bs (h + 32) 4 < 2 ^ 30) && imgNat bs (h + 37) 6 % 8 == 0
        && imgNat bs (h + 48) 8 / 2 % 4 == 0 && (vectorWords bs h).isSome)
    && (List.range x.nm).all (fun i =>
      let h := x.queues + 128 * x.nv + 64 * i
      imgNat bs (h + 48) 16 == 0 && imgNat bs (h + 4) 4 == 0 && decide (imgNat bs (h + 24) 8 < 2 ^ 30)
        && decide (imgNat bs (h + 44) 2 < 2 ^ 12) && decide (imgNat bs (h + 46) 2 < 2 ^ 11) && (matrixWord bs h).isSome)
    && (List.range x.nc).all (fun i =>
      let h := x.queues + 128 * x.nv + 64 * (x.nm + i)
      imgNat bs (h + 60) 4 == 0 && imgNat bs (h + 4) 4 == 0 && decide (imgNat bs (h + 40) 6 < 2 ^ 38)
        && decide (imgNat bs (h + 58) 2 < 2 ^ 12) && (copyWord bs h).isSome)

/-- Captured values dealt out to members by how many each has, in order. -/
def cutCaps : List Word → List Nat → List (List Word)
  | _, [] => []
  | ws, n :: ns => ws.take n :: cutCaps (ws.drop n) ns

/-- The saved entry of a queue at an index, none where the image holds more of them than were saved (log 28). -/
def savedEntry {α : Type} (es : List α) (i : Nat) : Option α := es[i]?

/-- A vector entry as its image gives it. What the image does not carry, its place in program order, its address and the witnesses it
was given, is the saved entry's; one that was not saved comes at place `serial` (log 28). -/
def readVectorEntry (bs : List Byte) (h serial : Nat) (old : Option VEntry) : VEntry :=
  let ms := (vectorWords bs h).getD []
  { serial := (old.map (·.serial)).getD serial
    pc := (old.map (·.pc)).getD 0
    members := ms
    caps := cutCaps ((List.range 9).map fun i => imgWord bs (h + 56 + 8 * i)) (ms.map fun i => ((pushInfo i).map (·.regs.length)).getD 0)
    vl := imgNat bs (h + 20) 2
    vlmax := imgNat bs (h + 22) 2
    sc := imgNat bs (h + 28) 4
    vt := BitVec.ofNat 64 (imgNat bs (h + 32) 4)
    pw := BitVec.ofNat 64 (imgNat bs (h + 37) 6)
    seq := imgNat bs (h + 43) 5
    gate := imgWord bs (h + 48)
    det := imgNat bs (h + 17) 1 / 2 % 2 == 1
    notify := imgNat bs (h + 17) 1 / 4 % 2 == 1
    wits := (old.map (·.wits)).getD []
    begun := false
    prog := { (old.map (·.prog)).getD .fresh with short := none }
    done := none }

/-- A matrix entry as its image gives it. -/
def readMatrixEntry (bs : List Byte) (h serial : Nat) (old : Option MEntry) : MEntry :=
  { serial := (old.map (·.serial)).getD serial
    pc := (old.map (·.pc)).getD 0
    instr := (matrixWord bs h).getD .trel
    x := imgWord bs (h + 8)
    y := imgWord bs (h + 16)
    vl := imgNat bs (h + 46) 2
    vt := imgWord bs (h + 24)
    gm := BitVec.ofNat 32 (imgNat bs (h + 32) 4)
    gn := BitVec.ofNat 32 (imgNat bs (h + 36) 4)
    gk := BitVec.ofNat 32 (imgNat bs (h + 40) 4)
    gf := BitVec.ofNat 12 (imgNat bs (h + 44) 2)
    begun := false
    done := none }

/-- A copy entry as its image gives it; how far a CKICK list has been begun is the saved entry's. -/
def readCopyEntry (bs : List Byte) (h serial : Nat) (old : Option CEntry) : CEntry :=
  { serial := (old.map (·.serial)).getD serial
    pc := (old.map (·.pc)).getD 0
    word := BitVec.ofNat 64 (imgNat bs h 4)
    op := (copyWord bs h).getD .kick
    xd := imgWord bs (h + 8)
    xd1 := imgWord bs (h + 16)
    xa := imgWord bs (h + 24)
    xb := imgWord bs (h + 32)
    gm := BitVec.ofNat 32 (imgNat bs (h + 46) 4)
    gn := BitVec.ofNat 32 (imgNat bs (h + 50) 4)
    gk := BitVec.ofNat 32 (imgNat bs (h + 54) 4)
    gf := BitVec.ofNat 12 (imgNat bs (h + 58) 2)
    seq := imgNat bs (h + 40) 6
    begun := false
    next := (old.map (·.next)).getD 0
    allBegun := (old.map (·.allBegun)).getD false
    done := none }

/-- Counts as the image gives them: what the image has fewer of is the oldest, what it has more of never completes (R75; log 28). -/
def fitCounts (serial : Nat) (n : Nat → Nat) (cs : List Counted) : List Counted :=
  (List.range 4).flatMap fun k =>
    let mine := cs.filter (·.cls == k)
    mine.drop (mine.length - n k) ++ List.replicate (n k - mine.length) { cls := k, serial := serial, complete := false }

/-- Bytes as pieces. -/
def bytesPieces (bs : List Byte) : List (BitVec 4) := bs.flatMap fun b => [b.extractLsb' 0 4, b.extractLsb' 4 4]

/-- Pieces dealt out to the arrivals they came from; any that are left are the last one's. -/
def refill : List (BitVec 4) → List Arrival → List Arrival
  | [], [] => []
  | ns, [] => [{ serial := 0, idx := 0, complete := true, nibbles := ns }]
  | ns, [a] => [{ a with nibbles := ns }]
  | ns, a :: as => { a with nibbles := ns.take a.nibbles.length } :: refill (ns.drop a.nibbles.length) as

def readPort (bs : List Byte) (h : Nat) (p : Nat × Nat) (old : Port) : Port :=
  let kind := imgNat bs (h + 64) 1
  let vals := imgPart bs p.1 p.2
  let odd := kind == 2 && imgNat bs (h + 65) 1 / 4 == 1
  let ns := (bytesPieces vals).drop (if odd then 1 else 0)
  -- a stream that ends in the low half of a byte was padded by a piece
  let kept := if ns.length == old.pieces.length + 1 then ns.dropLast else ns
  let b : Binding :=
    { base := imgWord bs h, stride := imgWord bs (h + 8), sbase := imgWord bs (h + 16), count := imgNat bs (h + 24) 5,
      fmt := imgNat bs (h + 29) 1, sfmt := imgNat bs (h + 30) 1, sblock := imgNat bs (h + 32) 3 }
  { kind := if kind == 0 then .unbound else if kind == 1 then .record else if kind == 2 then .copy else .fifo
    bind := if kind == 1 then b else Port.empty.bind
    pos := imgNat bs (h + 72) 8
    fetched := []
    half := if odd then BitVec.ofNat 4 (imgNat vals 0 1) else 0
    odd := odd
    arrivals := if kind == 2 then refill kept old.arrivals else []
    fifo := if kind == 3 then (List.range (p.2 / 16)).map fun i => (imgNat vals (16 * i) 8, imgNat vals (16 * i + 8) 1) else [] }

/-- The register files as an image gives them. -/
def readFiles (bs : List Byte) (x : Sections) (old : Files) : Files :=
  let dw (i : Nat) : Nat := imgNat bs (8 * i) 8
  let es := accBytes (gfAcc x.gf)
  let b := formatBits (dw 46 / 2 ^ 48 % 16)
  let lgm := dw 46 / 2 ^ 16 % 2 ^ 16
  let lgk := dw 46 / 2 ^ 32 % 2 ^ 16
  let lv := imgNat bs x.latch (lgm * lgk * b / 8)
  { old with
    slices := (List.range x.vlmax).foldl (fun m e =>
      FMap.set 0 m e (BitVec.ofNat 3072 (imgNat bs (x.slices + e * (x.alloc / 2)) (x.alloc / 2)))) []
    masks := (List.range 12).foldl (fun m i =>
      FMap.set 0 m i (BitVec.ofNat 1024 (imgNat bs (x.masks + i * (x.vlmax / 8)) (x.vlmax / 8)))) []
    tiles := (List.range (if x.gm == 0 then 0 else 4)).foldl (fun m t =>
      (pairsBelow x.gm x.gn).foldl (fun m ij =>
        FMap.set 0 m (tileKey t ij.1 ij.2)
          (imgNat bs (x.tiles + t * (64 + x.gm * x.gn * es) + 64 + (ij.1 * x.gn + ij.2) * es) es)) m) []
    latch := if x.held then
        some { start := dw 46 % 1024, gm := lgm, gk := lgk, ifmt := dw 46 / 2 ^ 48 % 16
               vals := (pairsBelow lgm lgk).foldl (fun m ij =>
                 FMap.set 0 m (ij.1 * 65536 + ij.2) (lv / 2 ^ ((ij.1 * lgk + ij.2) * b) % 2 ^ b)) [] }
      else none
    ports := ((List.range 8).zip x.saved).foldl (fun m p =>
      FMap.set .empty m p.1 (readPort bs (x.ports + 128 * p.1) p.2 (FMap.get .empty old.ports p.1))) [] }

/-- A group read back from its image; what the image does not carry is the saved group's (log 28). -/
def readGroup (bs : List Byte) (x : Sections) (old : Group) : Group :=
  let dw (i : Nat) : Nat := imgNat bs (8 * i) 8
  let w (i : Nat) : Word := imgWord bs (8 * i)
  let c := dw 32
  let n := old.sca.serial
  { sca := { old.sca with
      serial := n + x.nv + x.nm + x.nc + 1
      x := (List.range 31).foldl (fun m r => FMap.set 0 m (r + 1) (w r)) []
      pc := w 31, level := Level.ofCode (c / 2 ^ 48 % 4), status := .running, openWords := []
      latch := BitVec.ofNat 3 (c / 2 ^ 52), yieldUntil := 0 }
    vec := { vl := c % 2048, vlmax := x.vlmax, vst := c / 2 ^ 32 % 2048, sc := dw 34 % 2 ^ 32, vt := w 33
             fs := BitVec.ofNat 64 (dw 34 / 2 ^ 32 % 2 ^ 17) }
    gra := { gm := BitVec.ofNat 32 (dw 35), gn := BitVec.ofNat 32 (dw 35 / 2 ^ 32), gk := BitVec.ofNat 32 (dw 36), gf := x.gf }
    ord := { old.ord with
      counted := fitCounts (n + x.nv + x.nm + x.nc) (fun k => dw 39 / 2 ^ (16 * k) % 2 ^ 16) old.ord.counted
      wseq := dw 37, wdone := dw 38, pw := w 40, gate := w 41, gcons := w 42 }
    trp := { old.trp with
      trpc := w 47, tres := w 48, tcause := w 49, taddr := w 50, telem := w 51, tvec := w 52, tsv0 := w 53, tsv1 := w 54
      ptb := w 55, asid := w 56, frozen := c / 2 ^ 50 % 2 == 1
      held := if dw 58 / 2 ^ 8 % 2 == 1 then some (w 57, dw 58 % 256) else none }
    idn := { old.idn with
      cluster := dw 44 / 2 ^ 8 % 2 ^ 20, cidx := dw 44 / 2 ^ 4 % 16, gidx := dw 44 % 16
      share := dw 43 / 2 ^ 32 % 32, gpri := dw 45 % 16, tattr := BitVec.ofNat 4 (dw 45 / 2 ^ 8), alloc := x.alloc }
    fil := readFiles bs x old.fil
    sto := { baseUnits := 0, swing := [], accUnits := 0, honoured := none }
    que := { old.que with
      vq := (List.range x.nv).map fun i => readVectorEntry bs (x.queues + 128 * i) (n + i) (savedEntry old.que.vq i)
      mq := (List.range x.nm).map fun i =>
        readMatrixEntry bs (x.queues + 128 * x.nv + 64 * i) (n + x.nv + i) (savedEntry old.que.mq i)
      cq := (List.range x.nc).map fun i =>
        readCopyEntry bs (x.queues + 128 * x.nv + 64 * (x.nm + i)) (n + x.nv + x.nm + i) (savedEntry old.que.cq i)
      jobs := [] } }

/-- The groups of a team image from an offset, with the sizes checked; none where a check fails. -/
def readGroups (bs : List Byte) : List Group → Nat → Option (List (List Byte × Sections × Group) × Nat)
  | [], off => some ([], off)
  | g :: gs, off =>
    let part := bs.drop off
    let x := sectionsOf part
    if groupImageOk part x then
      match readGroups bs gs (off + x.size) with
      | some (rest, n) => some ((part, x, readGroup part x g) :: rest, n)
      | none => none
    else none

/-- The checks of R327 on a team image, and its groups. -/
def readTeam (bs : List Byte) (size : Nat) (old : List Group) : Option (List Group) :=
  let p := imgNat bs 16 4
  if imgNat bs 60 4 != (crc32c (bs.take 60)).toNat || imgNat bs 15 1 != 0 || imgNat bs 24 8 != 0 || imgNat bs 42 18 != 0
      || 2 ^ 12 ≤ imgNat bs 40 2 then none
  else
    match readGroups bs old (64 + alignUp 64 (p + p / 12)) with
    | some (gs, total) => if imgNat bs 32 8 == total && total == size then some (gs.map (·.2.2)) else none
    | none => none

end Sys2Proof.Machine
end

