-- ==== Sys2Proof/Machine/Start.lean ====
section
/-! DEFINITION. A group as the front end starts it (R33, R66 to R79, R99). -/

namespace Sys2Proof.Machine

/-- What a group is started with. -/
structure StartArgs where
  entry : Word
  argp : Word
  vlmax : Nat
  gidx : Nat
  cidx : Nat
  cluster : Nat
  region : Nat
  frame : Nat
  team : Nat
  share : Nat
  gpri : Nat
  tattr : BitVec 4
  alloc : Nat
  tvec : Word
  ptb : Word
  asid : Word
  units : Nat

/-- Top of a group's private frame (R209). -/
def framePointer (a : StartArgs) : Word := memberBase a.cidx + BitVec.ofNat 64 a.region - BitVec.ofNat 64 (a.gidx * a.frame)
where
  /-- Member-form address of offset 0 of a member's region. -/
  memberBase (cidx : Nat) : Word := 0xFFFF_0000_0000_0000 + BitVec.ofNat 64 (cidx * 0x8_0000)

/-- The x registers at entry (R33). -/
def entryRegs (a : StartArgs) : FMap Word :=
  let put (m : FMap Word) (r : Nat) (v : Word) : FMap Word := FMap.set 0 m r v
  let m := put [] 2 (framePointer a)
  let m := put m 3 a.argp
  let m := put m 4 (BitVec.ofNat 64 a.vlmax)
  let m := put m 5 (BitVec.ofNat 64 a.gidx)
  let m := put m 6 (BitVec.ofNat 64 a.cidx)
  let m := put m 7 (BitVec.ofNat 64 a.cluster)
  put m 8 (framePointer.memberBase a.cidx)

/-- A group right after its start: every register not named in R33 at its reset value (R67 to R78). -/
def freshGroup (a : StartArgs) : Group :=
  { sca := { x := entryRegs a, pc := a.entry, level := .u, status := .running, openWords := [], openPc := 0,
             latch := 0, tags := [], serial := 1, yieldUntil := 0 }
    vec := { vl := 0, vlmax := a.vlmax, vst := 0, sc := 0, vt := 0, fs := 0 }
    gra := { gm := 0, gn := 0, gk := 0, gf := 0 }
    ord := { wseq := 1, wdone := 0, entries := [], counted := [], floor := [], pw := 0, gate := 0, gcons := 0 }
    trp := { trpc := 0, tres := 0, tcause := 0, taddr := 0, telem := 0, tvec := a.tvec, tsv0 := 0, tsv1 := 0,
             ptb := a.ptb, asid := a.asid, frozen := false, pending := [], held := none }
    idn := { team := a.team, cluster := a.cluster, cidx := a.cidx, gidx := a.gidx, share := a.share, gpri := a.gpri,
             tattr := a.tattr, alloc := a.alloc }
    fil := { slices := [], masks := [], tiles := [], latch := none, ports := [], badSlices := [], badMasks := [],
             badTiles := [], badLatch := [] }
    sto := { baseUnits := a.units, swing := [], accUnits := 0, honoured := none }
    que := { vq := [], mq := [], cq := [], jobs := [], bad := [] } }

/-- The group of a firmware core after its core's reset: level F, outside any task, vlmax 8 and 768 slices (R68, R83, R384). DESIGN CHOICE
(log 19): no task gives it SHARE, gpri, tattr, CLUSTER, CIDX, GIDX, tvec and its x registers; SHARE is 1, each other is 0, and the page
table is a free value in ptb's field [51:14], whose other bits are reserved (R78). -/
def firmwareGroup (fw : Nat) : Group :=
  let g := freshGroup
    { entry := Config.firmwareEntry fw &&& ~~~3#64, argp := 0, vlmax := 8, gidx := 0, cidx := 0, cluster := 0, region := 0, frame := 0, team := 0,
      share := 1, gpri := 0, tattr := 0, alloc := 768, tvec := 0, ptb := Config.firmwarePtb fw &&& 0x000F_FFFF_FFFF_C000#64
      asid := (Config.firmwareAsid fw).zeroExtend 64, units := 0 }
  { g with sca := { g.sca with x := [], level := .f } }

/-- The epoch that a slot takes when a group starts or resumes in it: the next value whose away bit is 0 (R259). -/
def nextEpoch (away : BitVec 2048) : Nat → Nat → Nat
  | 0, e => (e + 1) % 2048
  | n + 1, e => let e1 := (e + 1) % 2048; if away.getLsbD e1 then nextEpoch away n e1 else e1

/-- A group enters a slot: the slot's epoch advances, the killed bit of the new value is cleared, the deficits of the
slot are 0 (R21, R259). -/
def State.enterSlot (s : State) (core slot : Nat) (g : Group) : State :=
  let sl := s.slot core slot
  let e := nextEpoch sl.away 2047 sl.epoch
  let bit : BitVec 2048 := 1#2048 <<< e
  let s1 := s.setSlot core slot { sl with epoch := e, killed := sl.killed &&& ~~~bit, group := some g, activity := FMap.set 0 [] 16 s.now }
  let co := s1.core core
  s1.setCore core { co with deficits := co.deficits.filter fun d => d.1 % 16 != slot }

end Sys2Proof.Machine
end

