-- ==== Sys2Proof/Machine/Place.lean ====
section
/-! DEFINITION. Placement: which cores fit, where a cluster goes, how its teams and groups start, and which clusters make room
(R10 to R12, R33, R103, R301, R302, R358, R413; log 36). -/

namespace Sys2Proof.Machine

/-! ## What one member core has to give (R204, R301) -/

/-- The needs of one team: slots, units of slice storage, region bytes, and the grants its groups bring. -/
structure Demand where
  task : Nat
  groups : Nat
  units : Nat
  region : Nat
  prot : Bool
  /-- Checkpoint areas that the cluster of a resilient task reserves in the context pool, and its descriptor. -/
  areas : Option (Nat × Descr)
  /-- gm.GRANT, gn.GRANT, gk.GRANT and gf of each group that resumes. -/
  grants : List (Nat × Nat × Nat × BitVec 12)

/-- Whether `size` places from `at_` meet none of the occupied ranges and stay within the limit. -/
def rangeFree (occ : List (Nat × Nat)) (limit at_ size : Nat) : Bool :=
  decide (at_ + size ≤ limit) && !(occ.any fun r => decide (at_ < r.1 + r.2) && decide (r.1 < at_ + size))

/-- The lowest free multiple of `align`. -/
def lowestFree (occ : List (Nat × Nat)) (align limit size : Nat) : Option Nat :=
  (0 :: occ.map fun r => alignUp align (r.1 + r.2)).foldl (fun best c =>
    if rangeFree occ limit c size && (match best with | some b => decide (c < b) | none => true) then some c else best) none

/-- Ranges of a scratchpad in use: team regions and reservations (R204, R209). -/
def padRanges (s : State) (core : Nat) : List (Nat × Nat) :=
  (s.teams.filterMap fun e => e.2.bind fun t => if t.core == core then some (t.region, t.size) else none)
    ++ (s.core core).slots.filterMap fun e => e.2.group.bind fun g => g.sto.honoured

/-- Whether a grant lies within the maxima of a core (R188, R189). -/
def grantNative (s : State) (core : Nat) (prot : Bool) (r : Nat × Nat × Nat × BitVec 12) : Bool :=
  let cls := coreClass core
  let f := r.2.2.2
  decide (r.1 ≤ maxM cls (gfPart f) (gfAcc f)) && decide (r.2.1 ≤ maxN cls (gfPart f) (mapOut s core) prot)
    && decide (r.2.2.1 ≤ maxK cls (gfPart f) (gfIfmt f))

/-- Bytes of a grant's four tiles. -/
def tileBytes (r : Nat × Nat × Nat × BitVec 12) : Nat := 4 * r.1 * r.2.1 * accBytes (gfAcc r.2.2.2)

/-- For each group in order, none where its tiles go to the store, or the bytes of its reservation (R204). -/
def reservations (s : State) (core : Nat) (prot : Bool) :
    Nat → List (Nat × Nat × Nat × BitVec 12) → List (Option Nat)
  | _, [] => []
  | free, r :: rs =>
    let need := accNeed (coreClass core) r.1 r.2.1 (gfAcc r.2.2.2)
    if r.1 == 0 then none :: reservations s core prot free rs
    else if grantNative s core prot r && decide (need ≤ free) then none :: reservations s core prot (free - need) rs
    else some (tileBytes r) :: reservations s core prot free rs

/-- Reservations laid at the lowest free offsets that are multiples of 192. -/
def layReservations : List (Nat × Nat) → List (Option Nat) → Option (List (Option (Nat × Nat)))
  | _, [] => some []
  | occ, none :: rs => (layReservations occ rs).map (none :: ·)
  | occ, some n :: rs =>
    match lowestFree occ 192 524288 n with
    | none => none
    | some o => (layReservations ((o, n) :: occ) rs).map (some (o, n) :: ·)

/-- Where a team would lie in a core's scratchpad: its region and its groups' reservations. -/
def padPlan (s : State) (core : Nat) (d : Demand) : Option (Nat × List (Option (Nat × Nat))) :=
  match lowestFree (padRanges s core) 192 524288 d.region with
  | none => none
  | some o =>
    (layReservations ((o, d.region) :: padRanges s core)
      (reservations s core d.prot (accPool (coreClass core) - accUsed s core) d.grants)).map ((o, ·))

/-- Slots free on a core, lowest first. -/
def freeSlots (s : State) (core : Nat) : List Nat :=
  (List.range (coreSlots core)).filter fun k => (s.group? core k).isNone

/-! ## The context pool (R322, R358) -/

/-- Ranges of the context pool in use, from its base: images and checkpoint areas. -/
def poolRanges (s : State) : List (Nat × Nat) :=
  let base := s.trowel.ctxbase.toNat
  (s.saved.map fun v => (v.addr - base, v.size))
    ++ s.teams.filterMap fun e => e.2.bind fun t => t.resilient.map fun r => (r.area - base, r.areaSize)

/-- Room of that many bytes in the pool, as an address. -/
def poolRoom (s : State) (size : Nat) : Option Nat :=
  (lowestFree (poolRanges s) 64 s.trowel.ctxsize.toNat size).map (s.trowel.ctxbase.toNat + ·)

/-- Bytes of a checkpoint area on a core: for each group the largest image that it can come to, at the requested VLMAX, with
the tiles and the latch that its core class can hold and full ports; and the undo log (R323, R324, R326, R358; log 36). -/
def areaBytes (core : Nat) (d : Descr) : Nat :=
  let cls := coreClass core
  let tiles := 256 + 1024 * (accFloor cls + accPool cls)
  let latch := 128 * maxM cls 0 0 * (if cls == 0 then 8 else 2) / 8
  d.groups * (512 + alignUp 64 (d.slices * d.vlmax / 2) + alignUp 64 (12 * d.vlmax / 8) + tiles + alignUp 64 latch
    + 1024 + 512 * d.vlmax) + 196608

/-- Whether n areas of a size fit one after the other. -/
def areasFit (limit size : Nat) : Nat → List (Nat × Nat) → Bool
  | 0, _ => true
  | n + 1, occ =>
    match lowestFree occ 64 limit size with
    | some o => areasFit limit size n ((o, size) :: occ)
    | none => false

/-- Whether a core is being cleared, or has lost a column group and is not back in service: its event is still to be journaled (R368). -/
def beingCleared (s : State) (core : Nat) : Bool :=
  s.trowel.removals.any (·.1 == core) || s.trowel.events.any fun e => e.1 == 18 && e.2 % 4096 == core

/-- Whether a core is in service, holds no team of the task, and fits, as do the checkpoint areas of its cluster, which are of one
size in a rectangle (R11, R189, R301, R358). -/
def coreFits (s : State) (core : Nat) (d : Demand) : Bool :=
  mapState s core == 0 && !beingCleared s core && !(s.teams.any fun e => e.2.any fun t => t.core == core && t.task == d.task)
    && decide (8 ≤ maxN (coreClass core) 0 (mapOut s core) d.prot) && decide (d.groups ≤ (freeSlots s core).length)
    && decide (d.units ≤ unitsAvailable s core) && (padPlan s core d).isSome
    && match d.areas with
      | some (n, r) => areasFit s.trowel.ctxsize.toNat (areaBytes core r) n (poolRanges s)
      | none => true

/-! ## The search (R301) -/

/-- Whether a column belongs to a partition (R307). -/
def partHas (s : State) (part col : Nat) : Bool :=
  let w := FMap.get 0 s.trowel.parts part
  w.getLsbD 0 && w.getLsbD (col + 1)

/-- Classes in the order of the search. -/
def classOrder (klass : Nat) : List Nat := if klass == 0 then [0] else if klass == 1 then [1] else [0, 1]

/-- Cores of a rectangle, row-major. -/
def rectCores (row0 col0 w h : Nat) : List Nat :=
  (List.range h).flatMap fun r => (List.range w).map fun c => (row0 + r) * 24 + col0 + c

/-- Whether a rectangle of a die whose placement some firmware core serves may hold a cluster (R301, R384); `fits` takes the core's index in the cluster and its number. -/
def rectFits (s : State) (part cls row0 col0 w h : Nat) (fits : Nat → Nat → Bool) : Bool :=
  decide (col0 + w ≤ 24) && dutyTaken s (coreDie col0)
    && ((List.range w).all fun c => (coreClass (col0 + c) == cls) && partHas s part (col0 + c) && coreDie (col0 + c) == coreDie col0)
    && ((rectCores row0 col0 w h).zipIdx.all fun p => fits p.2 p.1)

/-- The search for a cluster's rectangle, over classes in order. -/
def searchRect (s : State) (part w h : Nat) (classes : List Nat) (fits : Nat → Nat → Bool) : Option (List Nat) :=
  classes.findSome? fun cls =>
    (List.range (13 - h)).findSome? fun row0 =>
      (List.range 24).findSome? fun col0 =>
        if rectFits s part cls row0 col0 w h fits then some (rectCores row0 col0 w h) else none

/-! ## Checkpoint areas (R358) -/

/-- The image of a team's groups written to its checkpoint area (R358, R361 step 5). -/
def writeShadow (s : State) (r : Resilient) (gs : List (Nat × Nat × Group)) : State :=
  writeBytes s r.area (gs.flatMap fun e => groupImage s e.1 e.2.1 e.2.2)

/-- A team placed with its groups as its first shadow (R358). -/
def firstShadow (s : State) (n : Nat) (t : Team) : State :=
  let gs := t.slots.filterMap fun i => (s.group? t.core i).map fun g => (t.core, i, g)
  match t.resilient with
  | some r => writeShadow (s.setTeam n (some { t with resilient := some { r with shadow := gs.map (·.2.2) } })) r gs
  | none => s.setTeam n (some t)

/-! ## Starting a cluster (R33, R103, R209, R301) -/

def Descr.prot (d : Descr) : Bool := d.attr.getLsbD 2

/-- The checkpoint areas of a cluster of a task, where it is resilient. -/
def Descr.areas (d : Descr) : Option (Nat × Descr) := if d.attr.getLsbD 1 then some (d.width * d.height, d) else none

/-- What a first start of a cluster of a task asks of each core. -/
def startDemand (task : Nat) (d : Descr) : Demand :=
  { task := task, groups := d.groups, units := d.groups * sliceUnits d.slices 128 d.prot, region := d.region, prot := d.prot
    areas := d.areas, grants := [] }

/-- A region that reads zero with matching check values (R209). -/
def zeroPad (s : State) (core off size : Nat) : State :=
  let lo := padKey core off
  let outside (k : Nat) : Bool := decide (k < lo) || decide (lo + size ≤ k)
  { s with
    mem := s.mem.filter fun c => outside c.1
    chk := s.chk.filter fun e => outside (48 * e.1)
    bad := s.bad.filter fun e => outside (48 * e.1) }

/-- One group started at VLMAX 128 in its slot (R33). -/
def startGroup (s : State) (n : Nat) (k : Task) (gate : BitVec 64) (t : Team) (p : Nat × Nat) : State :=
  let q := s.queue k.queue
  let d := k.descr
  let g := freshGroup
    { entry := d.entry, argp := k.argp, vlmax := 128, gidx := p.2, cidx := t.cidx, cluster := t.cluster, region := t.size,
      frame := t.frame, team := n, share := q.share, gpri := q.priority, tattr := d.attr, alloc := d.slices,
      tvec := d.tvec, ptb := q.ptb, asid := BitVec.ofNat 64 q.asid, units := 0 }
  let sto := claimUnits s t.core g.sto (sliceUnits d.slices 128 d.prot)
  s.enterSlot t.core p.1 { g with sto := sto, ord := { g.ord with gate := gate } }

/-- One group's VLMAX negotiated up to the descriptor's request; x4 takes what it gets (R33, R103). -/
def growGroup (d : Descr) (core : Nat) (a : State × List Nat) (slot : Nat) : State × List Nat :=
  match a.1.group? core slot with
  | none => a
  | some g =>
    match negotiate a.1 core slot g (BitVec.ofNat 64 d.vlmax) with
    | .blocked s1 _ ts => (s1, a.2 ++ ts)
    | .done s1 =>
      match s1.group? core slot with
      | some g1 => (s1.setGroup core slot (g1.setX 4 (BitVec.ofNat 64 g1.vec.vlmax)), a.2)
      | none => (s1, a.2)

/-- One team placed and started on a core; the teams in whose way dirty sectors stand are returned beside (R225). -/
def startTeam (s : State) (task : Nat) (k : Task) (cluster : Nat) (cores : List Nat) (cidx core : Nat) : Option (State × List Nat) :=
  let d := k.descr
  let area := if d.attr.getLsbD 1 then poolRoom s (areaBytes core d) else some 0
  match area, padPlan s core (startDemand task d) with
  | some ar, some plan =>
    let slots := (freeSlots s core).take d.groups
    let t : Team :=
      { task := task, cluster := cluster, cidx := cidx, core := core, slots := slots, region := plan.1, size := d.region,
        frame := d.frame, groups := d.groups, cores := cores
        resilient := if d.attr.getLsbD 1 then
            some { shadow := [], undo := [], failed := false, area := ar, areaSize := areaBytes core d } else none
        cut := false, roll := none, inside := false }
    let n := s.nextTeam
    let s1 := { zeroPad s core plan.1 d.region with nextTeam := n + 1 }.setTeam n (some t)
    let s2 := slots.zipIdx.foldl (fun a p => startGroup a n k k.gate t p) s1
    let r := slots.foldl (growGroup d core) (dropClaimed s2 core, dirtyClaimed s2 core)
    some (firstShadow r.1 n { t with slots := slots }, r.2)
  | _, _ => none

/-- The teams of a cluster started in one step (R12). -/
def startTeams (task : Nat) (k : Task) (cluster : Nat) (cores : List Nat) :
    List (Nat × Nat) → State × List Nat → Option (State × List Nat)
  | [], a => some a
  | (core, cidx) :: ps, a =>
    match startTeam a.1 task k cluster cores cidx core with
    | some r => startTeams task k cluster cores ps (r.1, a.2 ++ r.2)
    | none => none

/-- What a placement of the task's next cluster gives. -/
inductive Placed where
  /-- The cluster runs. -/
  | done (s : State)
  /-- A swing bank waits for checkpoints, which are asked for. -/
  | cuts (s : State)
  /-- The cores that the search has found are marked occupied, or no longer are, and the commit is still to come. -/
  | claims (s : State)
  /-- No rectangle, or no room in the context pool. -/
  | none_

/-- The cores that a placement has found, its commit still to come. -/
def claimCores (s : State) (task : Nat) (cores : List Nat) : State := modTask s task fun k => { k with claim := cores }

/-- The task's next cluster searched for and started. Where a Weeder keeps OCC bits, those of the cores found are set in a step before the
commit, which reads the cores' STATE again; it searches anew where it does not find the same cores (R301, R413). -/
def placeNext (s : State) (task : Nat) (k : Task) : Placed :=
  let d := k.descr
  match searchRect s (s.queue k.queue).part d.width d.height (classOrder d.klass)
      (fun _ core => coreFits s core (startDemand task d)) with
  | none => if k.claim.isEmpty then .none_ else .claims (claimCores s task [])
  | some cores =>
    if !s.trowel.weeder.isEmpty && k.claim != cores then .claims (claimCores s task cores) else
    match startTeams task k k.next cores cores.zipIdx (s, []) with
    | none => .none_
    | some (s1, []) =>
      .done (s1.setTask task (some { k with next := k.next + 1, live := FMap.set 0 k.live k.next (s.now + 1), claim := [] }))
    | some (_, ts) => .cuts (ts.foldl askCut s)

/-! ## Waiting launches (R302, R413) -/

/-- The LAUNCH of a queue that was selected and has not started. -/
def CmdQueue.waiting (c : CmdQueue) : Option Command :=
  c.commands.find? fun x => x.kind == 1 && x.state = .accepted && x.task != 0 && x.result.isNone

/-- The task of a queue's selected LAUNCH, once its placement has been tried: it waits for room, or is held (R302, R413). -/
def waitingTask (s : State) (c : CmdQueue) : Option (Nat × Task) :=
  c.waiting.bind fun x => (s.task x.task).bind fun k => if k.placing then none else some (x.task, k)

/-- Whether a cluster of a priority is kept from being placed or resumed in a partition by a LAUNCH above it that waits, at the priority
of its selection (R300, R302). -/
def heldBelow (s : State) (part pri : Nat) : Bool :=
  s.queues.any fun e => e.2.part == part && !e.2.descheduled && (waitingTask s e.2).any fun w => decide (pri < w.2.pri)

/-- Thresholds of the Weeder routines (R413). -/
def weederThresholds (s : State) : List Nat :=
  if s.trowel.weeder.isEmpty then [Config.weederThreshold] else s.trowel.weeder.map (·.thr)

/-- Whether a pattern holds LAUNCHes of a priority (R413). -/
def testHold (s : State) (pri : Nat) : Bool :=
  (weederThresholds s).any (fun t => decide (t ≤ pri)) && (List.range 4).any fun i => (s.test i).stat == 1 || (s.test i).stat == 2

/-- One team gone, its image in the context pool, for a search; none where the pool has no room for the image (R322, R355). -/
def withoutTeam (s : State) (n : Nat) (t : Team) : Option State :=
  (s.task t.task).bind fun k =>
    let img := teamImage s t k (teamGroups s n)
    (poolRoom s img.length).map fun addr =>
      let v : SavedTeam := { task := t.task, cluster := t.cluster, cidx := t.cidx, addr := addr, size := img.length, klass := 0, width := 0,
                             height := 0, groups := [], marks := [] }
      let s1 := t.slots.foldl (fun b i =>
        if (b.group? t.core i).any fun g => g.idn.team == n then b.setSlot t.core i { b.slot t.core i with group := none } else b) s
      { s1.setTeam n none with saved := s1.saved ++ [v] }

/-- A state with a cluster's teams and groups gone, their images in the context pool, for a search. -/
def withoutCluster (s : State) (task cluster : Nat) : Option State :=
  s.teams.foldl (fun a e =>
    match e.2 with
    | some t => if t.task == task && t.cluster == cluster then a.bind fun b => withoutTeam b e.1 t else a
    | none => a) (some s)

/-- The priority of a running cluster: that of its groups, which they keep from their start (R300). -/
def clusterPri (s : State) (task cluster : Nat) : Nat :=
  (s.teams.filterMap fun e => e.2.bind fun t =>
    if t.task == task && t.cluster == cluster then (teamGroups s e.1).head?.map fun g => g.2.2.idn.gpri else none).headD 0

/-- Running clusters of a partition below a priority, lowest priority first, most recently started first: task and cluster. -/
def victimOrder (s : State) (part pri : Nat) : List (Nat × Nat) :=
  let cs := s.tasks.flatMap fun e =>
    match e.2 with
    | some k =>
      if (s.queue k.queue).part == part then
        (k.live.map fun l => (clusterPri s e.1 l.1, l.2, e.1, l.1)).filter fun c => decide (c.1 < pri)
      else []
    | none => []
  let before (a b : Nat × Nat × Nat × Nat) : Bool := decide (a.1 < b.1) || (a.1 == b.1 && decide (b.2.1 ≤ a.2.1))
  (cs.foldr (insert before) []).map fun c => (c.2.2.1, c.2.2.2)
where
  insert (before : Nat × Nat × Nat × Nat → Nat × Nat × Nat × Nat → Bool) (x : Nat × Nat × Nat × Nat) :
      List (Nat × Nat × Nat × Nat) → List (Nat × Nat × Nat × Nat)
    | [] => [x]
    | y :: ys => if before x y then x :: y :: ys else y :: insert before x ys

/-- The shortest run of victims after which the search succeeds, none where no set of them makes room. -/
def victimsFrom (succeeds : State → Bool) : List (Nat × Nat) → List (Nat × Nat) → State → List (Nat × Nat)
  | _, [], _ => []
  | taken, v :: vs, s =>
    match withoutCluster s v.1 v.2 with
    | none => []
    | some s1 => if succeeds s1 then taken ++ [v] else victimsFrom succeeds (taken ++ [v]) vs s1

/-- The clusters that a waiting LAUNCH pre-empts (R302): none while it is held or its first cluster fits. -/
def victims (s : State) (q : Nat) : List (Nat × Nat) :=
  let c := s.queue q
  match waitingTask s c with
  | none => []
  | some (task, k) =>
    let d := k.descr
    let succeeds (a : State) : Bool :=
      (searchRect a c.part d.width d.height (classOrder d.klass) fun _ core => coreFits a core (startDemand task d)).isSome
    if c.descheduled || testHold s k.pri || heldBelow s c.part k.pri || succeeds s then []
    else victimsFrom succeeds [] (victimOrder s c.part k.pri) s

/-- Whether a cluster is to be pre-empted: for a waiting LAUNCH, for its queue's budget, to clear a core, or because the firmware
asks for it, as the Weeder does (R302, R306, R354, R368). -/
def preemptWanted (s : State) (task cluster : Nat) : Bool :=
  ((s.task task).any fun k => (s.queue k.queue).descheduled || k.asked.contains cluster)
    || (s.queues.any fun e => (victims s e.1).contains (task, cluster))
    || s.teams.any fun e => e.2.any fun t =>
        t.task == task && t.cluster == cluster && s.trowel.removals.any fun r => t.cores.contains r.1

/-! ## PLACEMENT_PASS (R301) -/

/-- Clusters placed in increasing index until one cannot be placed; a pass that asked for checkpoints or has a commit to come stays due. None where not one
could be placed or asked for. -/
def placeWave (task : Nat) : Nat → State → Option State
  | 0, _ => none
  | fuel + 1, s =>
    match s.task task with
    | none => none
    | some k =>
      if k.descr.clusters ≤ k.next then none
      else
        match placeNext s task k with
        | .done s1 => some ((placeWave task fuel s1).getD s1)
        | .cuts s1 => if s1.teams = s.teams then none else some (modTask s1 task fun k => { k with due := true })
        | .claims s1 => some (modTask s1 task fun k => { k with due := true })
        | .none_ => none

/-- Whether clusters of a task may be placed or resumed now at a priority (R302, R306). -/
def mayPlace (s : State) (k : Task) (pri : Nat) : Bool :=
  let q := s.queue k.queue
  k.kill.isNone && !q.descheduled && !heldBelow s q.part pri

/-- The first wave of a LAUNCH, where it may be placed at a priority; none where it does not fit or is held (R301, R302, R413). -/
def firstWave (s : State) (task : Nat) (k : Task) (pri : Nat) : Option State :=
  if mayPlace s k pri && !testHold s pri then placeWave task k.descr.clusters s else none

/-- Whether a LAUNCH that waits could be placed. -/
def placeable (s : State) (task : Nat) (k : Task) (pri : Nat) : Bool := !k.placing && (firstWave s task k pri).isSome

/-- Whether a task's LAUNCH has started. -/
def launched (s : State) (k : Task) : Bool := ((s.queue k.queue).command k.jidx).any fun c => c.state = .started

/-- Whether only checkpoints that are asked for stand in the way of a task's next cluster. -/
def awaitsCuts (s : State) (task : Nat) (k : Task) : Bool :=
  match placeNext s task k with
  | .cuts _ => true
  | _ => false

/-- PLACEMENT_PASS of a task that has started, when one is due (R12, R301, R302). A pass that places nothing is over; where no cluster
of the task runs, whose end would make another due, it stays due (log 36). -/
def execPlacementPass (task : Nat) (s : State) : Out :=
  if !s.powered then .fault .poweredOff
  else
    match s.task task with
    | none => .refused (.notEnabled "PLACEMENT_PASS")
    | some k =>
      if k.due && launched s k && mayPlace s k (s.queue k.queue).priority && !(s.saved.any fun v => v.task == task) then
        let s0 := modTask s task fun k => { k with due := false }
        match placeWave task (k.descr.clusters - k.next) s0 with
        | some s1 => .next s1
        | none =>
          if k.next < k.descr.clusters && (k.live.isEmpty || awaitsCuts s task k) then .refused (.notEnabled "PLACEMENT_PASS") else .next s0
      else .refused (.notEnabled "PLACEMENT_PASS")

/-! ## LAUNCH (R293, R295, R300, R301) -/

/-- LAUNCH: the placement of the queue's selected LAUNCH. Its journal entry becomes STARTED before it has any effect; where it does
not fit, is held or waits for checkpoints, it stays ACCEPTED and the selection ends (R302). The selection stays open between the search
and the commit of a placement that marks its cores first (R413). -/
def execLaunch (q : Nat) (s : State) : Out :=
  if !s.powered then .fault .poweredOff
  else
    match (s.queue q).waiting with
    | none => .refused (.notEnabled "LAUNCH")
    | some c =>
      match s.task c.task with
      | none => .refused (.notEnabled "LAUNCH")
      | some k =>
        if !k.placing then .refused (.notEnabled "LAUNCH")
        else
          let tried := modTask s c.task fun k => { k with placing := false }
          let shut := claimCores tried c.task []
          match firstWave (startCommand tried q c) c.task k k.pri with
          | none => .next shut
          | some s1 =>
            let claim := ((s1.task c.task).map (·.claim)).getD []
            .next (if (s1.task c.task).any fun k1 => k1.next != 0 then s1
              else if claim != k.claim then claimCores s c.task claim else { shut with teams := s1.teams })

end Sys2Proof.Machine
end

