-- ==== Sys2Proof/Machine/Units.lean ====
section
/-! DEFINITION. Arbiters and units: which queue heads are ready, deficit round robin, array modes, entries that execute and
leave their queues, port fetches and copy sectors (R19 to R29, R200, R202, R268 to R290). -/

namespace Sys2Proof.Machine

/-! ## What an event answers -/

/-- A step that cannot happen in this state. -/
def noStep (name : String) : Out := .refused (.notEnabled name)

/-- An event of a group in a slot. -/
def groupEvent (s : State) (core slot : Nat) (name : String) (f : Group → Option State) : Out :=
  if !s.powered then .fault .poweredOff
  else
    match (s.group? core slot).bind f with
    | some s1 => .next s1
    | none => noStep name

/-! ## Program order at shared register state (R20) -/

/-- What an entry reads and writes of the slices, and the ports it uses. -/
structure Footprint where
  reads : List (Nat × Nat)
  writes : List (Nat × Nat)
  ports : List Nat

def vectorFoot (s : State) (core slot : Nat) (g : Group) (e : VEntry) : Footprint :=
  let ms := entryMembers s core slot g e
  { reads := ms.flatMap fun m => m.m.sr, writes := ms.flatMap fun m => m.m.sw, ports := ms.flatMap fun m => m.m.ports }

def matrixFoot (e : MEntry) : Footprint :=
  let w := (formatClass (gfIfmt e.gf)).2
  let r (n : BitVec 6) (w c : Nat) : List (Nat × Nat) := [(vtBase e.vt + n.toNat * w, c * w)]
  match e.instr with
  | .tlda n _ => { reads := [], writes := r n w (grantOf e.gk), ports := [] }
  | .tmma n _ _ _ => { reads := r n w (grantOf e.gk), writes := [], ports := [] }
  | .tmmaOvr n _ _ _ => { reads := r n w (grantOf e.gk), writes := [], ports := [] }
  | .ttov _ n => { reads := [], writes := r n (vtEwd e.vt) (grantOf e.gn), ports := [] }
  | .tfromv _ n => { reads := r n (vtEws e.vt) (grantOf e.gn), writes := [], ports := [] }
  | _ => { reads := [], writes := [], ports := [] }

def copyFoot (e : CEntry) : Footprint :=
  let p (n : Nat) : Footprint := { reads := [], writes := [], ports := [n] }
  match e.op with
  | .bindMem n | .bindCopy n | .bindFifo n | .unbind n | .drain n => p n
  | .stat _ n => p n
  | _ => { reads := [], writes := [], ports := [] }

/-- Whether one of two entries has to wait for the other. -/
def Footprint.meets (a b : Footprint) : Bool :=
  a.writes.any (fun x => b.reads.any (overlaps x) || b.writes.any (overlaps x)) || a.reads.any (fun x => b.writes.any (overlaps x))
    || a.ports.any b.ports.contains

/-- Whether an entry meets an older one of another queue that has not executed. -/
def ordered (s : State) (core slot : Nat) (g : Group) (serial : Nat) (q : QueueKind) (f : Footprint) : Bool :=
  let vs := if q = .vector then [] else (g.que.vq.filter fun e => decide (e.serial < serial) && e.done.isNone).map (vectorFoot s core slot g)
  let ms := if q = .matrix then [] else (g.que.mq.filter fun e => decide (e.serial < serial) && e.done.isNone).map matrixFoot
  let cs := if q = .copy then [] else (g.que.cq.filter fun e => decide (e.serial < serial) && e.done.isNone).map copyFoot
  !((vs ++ ms ++ cs).any f.meets)

/-! ## Ready heads (R21) -/

/-- Whether entries that have not begun may begin (R30). -/
def Group.mayBegin (g : Group) : Bool := !g.trp.frozen && g.trp.pending.isEmpty && g.sca.status ≠ .stopped

/-- Whether unperformed writes of a path of the group are under way. -/
def pathBusy (s : State) (core slot path : Nat) : Bool :=
  s.flights.any fun f => f.of s core slot && f.path == path && f.held == 0

/-- The ready vector head. DEDUCED (log 43): the gate condition that R21 asks of a head is that of a gated SETVL, the only gate that the
manual defines (R337), and it holds the stream at the SETVL, before the convoy is pushed; so none is tested here. -/
def vectorHead (s : State) (core slot : Nat) (g : Group) : Option (VEntry × List VEntry) :=
  match g.que.vq with
  | e :: rest =>
    if e.done.isNone && (e.begun || g.mayBegin) && ordered s core slot g e.serial .vector (vectorFoot s core slot g e)
        && !(e.det && !e.begun && pathBusy s core slot 1) && vectorMoves s core slot g e then some (e, rest) else none
  | [] => none

/-- The ready matrix head, in any array mode. -/
def matrixHead (s : State) (core slot : Nat) (g : Group) : Option (MEntry × List MEntry) :=
  match g.que.mq with
  | e :: rest =>
    if e.done.isNone && (e.begun || g.mayBegin) && ordered s core slot g e.serial .matrix (matrixFoot e)
        && !pathBusy s core slot 2 && matrixMoves s core slot g e then some (e, rest) else none
  | [] => none

/-- An entry that has no effect, for the code of an error in its unit (R201, R365 to R367). -/
def spoilEntry (s : State) (core slot : Nat) (g : Group) (code serial src : Nat) (pc : Word) : State :=
  recordFault s core slot g { serial := serial, code := code, src := src, pc := pc, addr := 0, elem := if src == 1 then g.vec.vst else 0 }

/-- A marked queue entry is consumed when its unit takes it (R366, R367). -/
def consumeEntry (s : State) (core slot : Nat) (g : Group) (serial src : Nat) (pc : Word) : State :=
  spoilEntry s core slot g cMachine serial src pc

/-- The copy arbiter binds an entry: a COPY or a list to the request engine, a QOP and a COLL act; none where it has to wait. -/
def bindEntry (s : State) (core slot : Nat) (g : Group) (e : CEntry) : Option State :=
  if g.que.bad.contains e.serial then some (consumeEntry s core slot g e.serial 3 e.pc)
  else
    match e.op with
    | .copy _ _ _ => some (s.setGroup core slot (g.modCopy e.serial fun e => { e with begun := true }))
    | .kick =>
      let s1 := s.setGroup core slot (g.modCopy e.serial fun e => { e with begun := true })
      let co := s1.core core
      some (s1.setCore core { co with kick := FMap.set 0 co.kick slot e.xa })
    | .coll fn fmt op d => executeColl s core slot g e fn fmt op d
    | _ => executeQop s core slot g e

/-- The ready copy head: the first entry not bound, once the one before it has begun all its requests, within the limits,
and no list while a fault is held (R287, R289). -/
def copyHead (s : State) (core slot : Nat) (g : Group) : Option CEntry :=
  match g.que.cq.find? fun e => !e.begun && e.done.isNone with
  | some e =>
    let fits := match e.op with
      | .copy fn fmt t =>
        let a := e.args fn fmt t
        !(a.wellFormed && g.copyFull a.counted)
      | .kick => g.trp.held.isNone
      | _ => true
    if g.mayBegin && g.bound.isNone && fits && !portWaits s (ctxOf s core slot g) g e && ordered s core slot g e.serial .copy (copyFoot e)
        && (bindEntry s core slot g e).isSome then some e else none
  | none => none

/-- Array mode of a captured grant (R202). -/
def modeOf (gf : BitVec 12) : ArrayMode := if gfPart gf == 0 then .whole else if gfPart gf == 1 then .halves else .quarters

/-- The unit that serves a group's matrix head. -/
def matrixUnit (slot : Nat) (gf : BitVec 12) : UnitKind :=
  match modeOf gf with
  | .whole => .matrixWhole
  | .halves => .matrixHalf (slot % 2)
  | .quarters => .matrixQuarter (slot % 4)

/-- Ready matrix heads of a core, with their slots and groups. -/
def matrixHeads (s : State) (core : Nat) : List (Nat × Group × MEntry) :=
  (s.core core).slots.filterMap fun x => x.2.group.bind fun g => (matrixHead s core x.1 g).map fun h => (x.1, g, h.1)

/-- The highest gpri of a list of heads. -/
def topPri (hs : List (Nat × Group × MEntry)) : Nat := hs.foldl (fun a h => max a h.2.1.idn.gpri) 0

/-- The head that a mode change serves: the highest gpri, the lowest slot on a tie (R202). -/
def firstHead (hs : List (Nat × Group × MEntry)) : Option (Nat × Group × MEntry) :=
  hs.find? fun h => h.2.1.idn.gpri == topPri hs

/-- Ready heads of the present mode and of other modes. -/
def modeHeads (s : State) (core : Nat) : List (Nat × Group × MEntry) × List (Nat × Group × MEntry) :=
  (matrixHeads s core).partition fun h => modeOf h.2.2.gf = (s.core core).mode

/-- Whether the array is to change its mode (R202). -/
def modeDue (s : State) (core : Nat) : Bool :=
  let h := modeHeads s core
  !h.2.isEmpty && (h.1.isEmpty || (decide (64 ≤ (s.core core).modeWait) && decide (topPri h.1 ≤ topPri h.2)))

/-- Whether a matrix entry of a core is running. -/
def matrixRunning (s : State) (core : Nat) : Bool :=
  (s.core core).slots.any fun x => match x.2.group with
    | some g => g.que.mq.any fun e => e.begun && e.done.isNone
    | none => false

/-! ## Deficit round robin (R21) -/

/-- Number of an arbiter in the deficits of a core. -/
def arbiterNo : UnitKind → Nat
  | .vector => 0
  | .matrixWhole => 1
  | .matrixHalf i => 2 + i % 2
  | .matrixQuarter i => 4 + i % 4
  | .copy => 8

/-- Whether a group has a ready head for a unit. -/
def headReady (s : State) (core : Nat) (u : UnitKind) (slot : Nat) (g : Group) : Bool :=
  match u with
  | .vector => (vectorHead s core slot g).isSome
  | .copy => (copyHead s core slot g).isSome
  | u =>
    match matrixHead s core slot g with
    | some (e, _) => matrixUnit slot e.gf = u && modeOf e.gf = (s.core core).mode && !modeDue s core
    | none => false

/-- Groups of a core with a ready head for a unit, in slot order. -/
def readyGroups (s : State) (core : Nat) (u : UnitKind) : List (Nat × Group) :=
  (s.core core).slots.filterMap fun x => x.2.group.bind fun g => if headReady s core u x.1 g then some (x.1, g) else none

/-- One decision: the state with the deficits, and the slot picked (R21). DESIGN CHOICE (log 43): a convoy that stalled at a port or at a
checkpoint after it was bound goes on by a decision of its own, which costs its group one more unit of deficit. -/
def decide21 (s : State) (core : Nat) (u : UnitKind) : Option (State × Nat) :=
  let ready := readyGroups s core u
  let level := ready.foldl (fun a x => max a x.2.idn.gpri) 0
  let cand := ready.filter fun x => x.2.idn.gpri == level
  let co := s.core core
  let key (slot : Nat) : Nat := arbiterNo u * 16 + slot
  let has (d : FMap Nat) (x : Nat × Group) : Bool := decide (0 < FMap.get 0 d (key x.1))
  let d1 := if cand.any (has co.deficits) then co.deficits
    else co.slots.foldl (fun d x => match x.2.group with
      | some g => if g.idn.gpri == level then FMap.set 0 d (key x.1) g.idn.share else d
      | none => d) co.deficits
  match cand.find? (has d1) with
  | some x => some (s.setCore core { co with deficits := FMap.set 0 d1 (key x.1) (FMap.get 0 d1 (key x.1) - 1) }, x.1)
  | none => none

/-! ## Binding (R21, R366) -/

/-- Activity of a convoy's execution (R303): its beats, and the beats of its arithmetic members in the FMA pipes by EWD. -/
def tallyConvoy (s : State) (core slot : Nat) (e : VEntry) (from_ : Nat) : State :=
  let upto := match s.group? core slot with
    | some g => if g.que.vq.any (fun x => x.serial == e.serial && x.done.isSome) then e.vl else g.vec.vst
    | none => from_
  let lanes := match s.group? core slot with
    | some g => if g.protected_ then coreLanes core / 2 else coreLanes core
    | none => coreLanes core
  let beats := (upto - from_ + lanes - 1) / lanes
  let arith := (e.members.filter fun i => (pushInfo i).any fun p => p.cls == .arith).length
  let w := vtEwd e.vt
  (s.tally core slot 2 beats).tally core slot (if w ≤ 4 then 3 else if w ≤ 8 then 4 else 5) (beats * arith)

/-- Activity of a TMMA (R303): its MACs, counted in the class of its format. -/
def tallyMatrix (s : State) (core slot : Nat) (e : MEntry) : State :=
  let b := formatBits (gfIfmt e.gf)
  let cls := if b == 4 then 6 else if b == 8 then 7 else if b == 16 then 8 else if b == 32 then 9 else 10
  match e.instr with
  | .tmma _ _ _ _ | .tmmaOvr _ _ _ _ => s.tally core slot cls (validOf e.gm * validOf e.gn * validOf e.gk)
  | _ => s

def bindVector (s : State) (core slot : Nat) (g : Group) : Option State :=
  (vectorHead s core slot g).map fun h =>
    if g.que.bad.contains h.1.serial then consumeEntry s core slot g h.1.serial 1 h.1.pc
    else tallyConvoy (executeVector s core slot g h.1 h.2) core slot h.1 g.vec.vst

def bindMatrix (s : State) (core slot : Nat) (g : Group) : Option State :=
  (matrixHead s core slot g).map fun h =>
    if g.que.bad.contains h.1.serial then consumeEntry s core slot g h.1.serial 2 h.1.pc
    else tallyMatrix (executeMatrix s core slot g h.1 h.2) core slot h.1

def bindCopy (s : State) (core slot : Nat) (g : Group) : Option State := (copyHead s core slot g).bind (bindEntry s core slot g)

/-- ARBITER_DECISION (R21): one ready head is bound to the unit, which carries it out. -/
def execArbiterDecision (core : Nat) (u : UnitKind) (s : State) : Out :=
  if !s.powered then .fault .poweredOff
  else
    match decide21 s core u with
    | none => noStep "ARBITER_DECISION"
    | some (s1, slot) =>
      match (s1.group? core slot).bind fun g => match u with
          | .vector => bindVector s1 core slot g
          | .copy => bindCopy s1 core slot g
          | _ => bindMatrix s1 core slot g with
      | some s2 => .next s2
      | none => noStep "ARBITER_DECISION"

/-- ARRAY_MODE_CHANGE (R202): the mode of the waiting head of the highest gpri, which is bound first. DESIGN CHOICE (log 48): that is no
decision of R21 and costs its group no unit of deficit, which the manual leaves open. -/
def execArrayModeChange (core : Nat) (s : State) : Out :=
  if !s.powered then .fault .poweredOff
  else if !modeDue s core || matrixRunning s core then noStep "ARRAY_MODE_CHANGE"
  else
    match firstHead (modeHeads s core).2 with
    | none => noStep "ARRAY_MODE_CHANGE"
    | some (slot, g, e) =>
      let s1 := s.setCore core { s.core core with mode := modeOf e.gf, modeWait := 0 }
      .next ((bindMatrix s1 core slot g).getD s1)

/-! ## Entries leave their queues (R19, R25, R69, R116, R173, R200, R270) -/

/-- Tags of a serial go, and its x register is written while its tag stands (R173). -/
def Group.retire (g : Group) (serial : Nat) (d : Done) : Group :=
  let g1 := g.fold d.flags
  let g2 := match d.xreg with
    | some (r, v) => g1.tagWrite serial r v
    | none => g1
  g2.dropTags serial

/-- The latch bit of a queue that has become empty (R140). -/
def Group.emptied (g : Group) (empty : Bool) : Group := if empty then g.latchEvent 4 else g

/-- A mark goes with its entry (R366). -/
def Group.unmark (g : Group) (serial : Nat) : Group := { g with que := { g.que with bad := g.que.bad.filter (· != serial) } }

/-- The vector head leaves: its notifying entry has made its update. -/
def retireVector (s : State) (core slot : Nat) (g : Group) : Option State :=
  match g.que.vq with
  | e :: rest =>
    let told := !e.notify || !(g.ord.entries.any fun x => x.seq == e.seq + 1 && !x.complete)
    match e.done with
    | some d =>
      if told then
        let g1 := g.retire e.serial d
        let g2 := { g1 with que := { g1.que with vq := rest }, vec := { g1.vec with vst := 0 } }
        some (s.setGroup core slot (settleEngine s core slot ((g2.unmark e.serial).emptied rest.isEmpty)))
      else none
    | none => none
  | [] => none

/-- The matrix head leaves, its stores performed (R200). -/
def retireMatrix (s : State) (core slot : Nat) (g : Group) : Option State :=
  match g.que.mq with
  | e :: rest =>
    match e.done with
    | some d =>
      if serialSent s core slot e.serial then none
      else
        let g1 := g.retire e.serial d
        let g2 := { g1 with que := { g1.que with mq := rest } }
        some (s.setGroup core slot (settleEngine s core slot ((g2.unmark e.serial).emptied rest.isEmpty)))
    | none => none
  | [] => none

/-- A completed copy-queue entry leaves, and its count in cc or oc is complete once its writes have performed (R261, R286). -/
def retireCopy (s : State) (core slot : Nat) (g : Group) : Option State :=
  match g.que.cq.find? (·.done.isSome) with
  | some e =>
    let rest := g.que.cq.filter (·.serial != e.serial)
    let g1 := g.retire e.serial (e.done.getD { flags := 0, xreg := none })
    let g2 := { g1 with que := { g1.que with cq := rest } }
    some (s.setGroup core slot (settleEngine s core slot ((g2.unmark e.serial).emptied rest.isEmpty)))
  | none => none

/-- QUEUE_ENTRY_COMPLETE (R19). -/
def execQueueEntryComplete (core slot : Nat) (q : QueueKind) (s : State) : Out :=
  groupEvent s core slot "QUEUE_ENTRY_COMPLETE" fun g =>
    match q with
    | .vector => retireVector s core slot g
    | .matrix => retireMatrix s core slot g
    | .copy => retireCopy s core slot g

/-! ## Ports and requests -/

/-- PORT_FETCH (R274). -/
def execPortFetch (core slot port : Nat) (s : State) : Out :=
  groupEvent s core slot "PORT_FETCH" fun g => if port < 8 && portFetches g port then fetchPort s core slot g port else none

/-- COPY_REQUEST_BEGIN (R287). -/
def execCopyRequestBegin (core slot : Nat) (s : State) : Out :=
  groupEvent s core slot "COPY_REQUEST_BEGIN" fun g => g.bound.bind fun e => beginBound s core slot g e

/-- COPY_SECTOR_PERFORM (R346): one of the requests that may go. -/
def execCopySectorPerform (core slot : Nat) (s : State) : Out :=
  groupEvent s core slot "COPY_SECTOR_PERFORM" fun g =>
    let js := g.readyJobs s core slot false
    let i := if s.pace = .prompt then 0 else Config.schedule (s.tick + 7) % max 1 js.length
    js[i]?.bind fun j => stepJob s core slot g j

end Sys2Proof.Machine
end

