-- ==== Sys2Proof/Machine/Queues.lean ====
section
/-! DEFINITION. Command queues: descriptors and doorbells, acceptance, selection, what each command does, final states, device
events and accounts (R81, R291 to R300, R304 to R306, R313 to R320, R374; log 37). -/

namespace Sys2Proof.Machine

/-! ## Discarded writes (R82) -/

/-- MMIOERR records a discarded write: kind 0 in a doorbell page, 1 in the privileged window. -/
def recordError (s : State) (kind queue off : Nat) : State :=
  { s with trowel := { s.trowel with mmioerr := BitVec.ofNat 64 (off % 2 ^ 25 + queue % 2 ^ 12 * 2 ^ 25 + kind % 2 * 2 ^ 37) } }

/-- Queues that exist (R310). -/
def queueExists (s : State) (q : Nat) : Bool := decide (q < min 4096 s.trowel.qdtcount.toNat)

/-- The pending bit of a queue (R292). -/
def CmdQueue.setPending (c : CmdQueue) : CmdQueue := { c with pendingBit := c.enable && c.qhead != c.tail }

/-! ## Doorbells (R81, R292) -/

/-- A write of DBELL. -/
def ringDoorbell (s : State) (q : Nat) (v : Word) : State :=
  let c := s.queue q
  if !queueExists s q || !c.loaded || v >>> 32 != 0 || decide (2 ^ c.ringlog ≤ v.toNat) then recordError s 0 q 0
  else s.setQueue q { c with tail := v.toNat }.setPending

/-- DBW (R81). -/
def execDbw (q : Nat) (v : BitVec 64) (s : State) : Out :=
  if !s.powered then .fault .poweredOff else .next (ringDoorbell s q v)

/-! ## Queue descriptors (R291, R316) -/

/-- The descriptor of a queue in memory, as the fields of a queue. -/
def readDescr (s : State) (q : Nat) : Nat := memNat s.mem (s.trowel.qdtbase.toNat + 64 * q) 64

/-- Bytes of a descriptor as a field. -/
def descrField (v lo len : Nat) : Nat := v / 2 ^ (8 * lo) % 2 ^ (8 * len)

/-- Whether reserved fields of a queue descriptor are zero (R309). -/
def queueReserved (v : Nat) : Bool :=
  descrField v 32 32 == 0 && descrField v 23 1 == 0 && decide (descrField v 22 1 < 4) && decide (descrField v 20 1 < 8)
    && decide (descrField v 18 1 < 16) && decide (descrField v 16 2 < 4096)

/-- The limits of R291. -/
def queueLimits (s : State) (v : Nat) : Bool :=
  let part := descrField v 20 1
  let ring := descrField v 0 8
  let ptb := descrField v 8 8
  decide (1000 ≤ descrField v 28 4) && decide (descrField v 28 4 ≤ 100000000) && decide (4 ≤ descrField v 21 1)
    && decide (descrField v 21 1 ≤ 16) && decide (1 ≤ descrField v 19 1) && decide (descrField v 19 1 ≤ 16)
    && ring % 64 == 0 && decide (ring < 2 ^ 48) && ptb % 2 ^ 14 == 0 && decide (ptb < 2 ^ 52)
    && (FMap.get 0 s.trowel.parts part).getLsbD 0

/-- A queue under a descriptor, its enable bit apart. -/
def CmdQueue.take (c : CmdQueue) (v : Nat) : CmdQueue :=
  { c with
    haltfail := descrField v 22 1 / 2 % 2 == 1
    loaded := true
    ringbase := BitVec.ofNat 64 (descrField v 0 8)
    ringlog := descrField v 21 1
    ptb := BitVec.ofNat 64 (descrField v 8 8)
    asid := descrField v 16 2
    priority := descrField v 18 1
    share := descrField v 19 1
    part := descrField v 20 1
    budget := descrField v 24 4
    period := descrField v 28 4 }

/-- QLOAD's effect (R292, R316, R389). -/
def loadQueue (s : State) (q : Nat) : State :=
  let c := s.queue q
  let v := readDescr s q
  let on := descrField v 22 1 % 2 == 1
  if !queueExists s q || !queueReserved v || (on && (c.enable || !queueLimits s v || !s.trowel.owner.owned)) then recordError s 1 q 0x2010
  else if on then
    let c1 := c.take v
    s.setQueue q
      { c1 with enable := true, tail := 0, qhead := 0, nextSeq := 1, pendingBit := false, periodStart := s.refTicks
                failedSeqs := [] }.deschedule
  else if c.enable then s.setQueue q { c with enable := false, pendingBit := false, ringlog := descrField v 21 1 }
  else s.setQueue q { c with loaded := true, ringlog := descrField v 21 1 }

/-- QLOAD (R316). -/
def execQload (q : Nat) (s : State) : Out := if !s.powered then .fault .poweredOff else .next (loadQueue s q)

/-! ## Commands as they are read (R293, R317, R318) -/

/-- A field of a command's doubleword. -/
def Command.part (c : Command) (i lo len : Nat) : Nat := (c.dw i).toNat / 2 ^ lo % 2 ^ len

/-- Whether doublewords from i to 7 are zero. -/
def Command.restZero (c : Command) (i : Nat) : Bool := (c.words.drop i).all (· == 0)

/-- An entry of a LAUNCH or DEPEND: empty, a dependence on a queue's sequence number, or a gate. -/
inductive Entry where
  | empty
  | dep (queue seq : Nat)
  | gate (w : Word)
  | bad

/-- An entry's kind, with the checks of R318. -/
def entryOf (s : State) (w : Word) : Entry :=
  let t := (w.extractLsb' 0 3).toNat
  let q := (w.extractLsb' 4 12).toNat
  if t == 0 then (if w == 0 then .empty else .bad)
  else if t == 1 then (if w.getLsbD 3 || !queueExists s q then .bad else .dep q (w.extractLsb' 16 48).toNat)
  else if t == 2 then (if w.extractLsb' 48 16 == 0 || w.extractLsb' 3 45 == 0 then .bad else .gate w)
  else .bad

/-- The entries of a LAUNCH or a DEPEND. -/
def Command.entries (s : State) (c : Command) : List Entry :=
  (if c.kind == 1 then (c.words.drop 4).take 4 else (c.words.drop 1).take 6).map (entryOf s)

def Entry.isGate : Entry → Bool
  | .gate _ => true
  | _ => false

def Entry.isBad : Entry → Bool
  | .bad => true
  | _ => false

/-- The copy that a COPY command asks for, where its fields are valid (R293, R313). -/
def Command.copyArgs (c : Command) : Option CopyArgs :=
  let fn : Option CopyFn := match c.part 5 0 4 with
    | 0 => some .linear
    | 1 => some .box
    | 5 => some .fill
    | 6 => some .remote
    | _ => none
  fn.bind fun fn =>
    let a : CopyArgs := { fn := fn, fmt := c.part 5 6 4, target := 0, xd := c.dw 1, xd1 := c.dw 2, xa := c.dw 3, xb := c.dw 4, gm := 0,
                          gn := 0, gk := 0, gf := 0, word := 0 }
    if c.part 5 4 2 != 0 || c.part 5 10 5 != 0 || c.part 5 15 1 == 0 || c.part 5 16 48 != 0 || !c.restZero 6 || !a.wellFormed then none
    else some a

/-- Whether a command is valid (R293, R317, R318). -/
def Command.valid (s : State) (c : Command) (part : Nat) : Bool :=
  let plain := c.part 0 16 48 == 0
  match c.kind with
  | 1 =>
    let es := c.entries s
    decide (c.flags < 2) && c.part 0 16 48 % 64 == 0 && !es.any Entry.isBad && decide ((es.filter Entry.isGate).length ≤ 1)
  | 2 => c.flags == 0 && plain && c.copyArgs.isSome
  | 3 =>
    let op := c.part 3 0 8
    c.flags == 0 && plain && c.part 1 0 3 == 0 && decide (op ≤ 3) && c.part 3 8 56 == 0 && c.restZero 4
      && (if op ≤ 1 then c.part 2 62 2 == 0 else c.dw 2 == 0)
  | 4 => c.flags == 0 && plain && c.part 1 0 3 == 0 && c.part 2 62 2 == 0 && c.restZero 3
  | 5 =>
    let es := c.entries s
    (c.flags == 0 || c.flags == 2) && plain && !es.any (fun e => e.isBad || e.isGate) && c.restZero 7
  | 6 =>
    let t := c.part 1 0 12
    c.flags == 0 && plain && c.part 1 12 52 == 0 && c.part 2 32 32 == 0 && c.restZero 3 && queueExists s t && (s.queue t).part == part
  | 7 => c.flags == 0 && plain && c.part 1 12 52 == 0 && c.part 2 48 16 == 0 && c.restZero 3 && queueExists s (c.part 1 0 12)
  | 8 => c.flags == 0 && plain && c.part 1 32 32 == 0 && c.restZero 2
  | _ => false

/-! ## COMMAND_ACCEPT (R295 step 1) -/

/-- The command that 64 bytes at a ring index give. -/
def commandOf (v seq ring jidx jgen : Nat) : Command :=
  { seq := seq, kind := v % 256, flags := v / 256 % 256, words := (List.range 8).map fun i => BitVec.ofNat 64 (v / 2 ^ (64 * i))
    jidx := jidx, jgen := jgen, ring := ring, state := .accepted, result := none, task := 0 }

/-- A ring entry that cannot be read: the queue is disabled, and its sequence number is journaled as FAILED. -/
def refuseRing (s : State) (q : Nat) (c : CmdQueue) : State :=
  let s1 := s.setQueue q { c with enable := false, pendingBit := false, nextSeq := c.nextSeq + 1 }
  let s2 := advanceJournal (writeJournal s1 s1.trowel.jhead
    (journalBytes CmdState.failed.code 2 q 0 c.nextSeq c.qhead s1.trowel.jgen 0 s1.refTicks))
  s2

/-- A command taken: journaled as ACCEPTED, then QHEAD advances; an invalid one has its result at once. -/
def takeCommand (s : State) (q : Nat) (c : CmdQueue) (v : Nat) : State :=
  let x := commandOf v c.nextSeq c.qhead s.trowel.jhead s.trowel.jgen
  let x := if x.valid s c.part then x else { x with result := some (.failed, 1, 0) }
  let s1 := advanceJournal (journalCommand s q x .accepted 0 0)
  s1.setQueue q
    { c with commands := c.commands ++ [x], nextSeq := c.nextSeq + 1, qhead := (c.qhead + 1) % 2 ^ c.ringlog }.setPending

/-- COMMAND_ACCEPT (R295). -/
def execCommandAccept (q : Nat) (s : State) : Out :=
  if !s.powered then .fault .poweredOff
  else
    let c := s.queue q
    if !c.pendingBit || decide (16 ≤ c.commands.length) || journalFull s then noStep "COMMAND_ACCEPT"
    else
      let r := readMem s (trowelCtx c) 4 2 true (c.ringbase + BitVec.ofNat 64 (64 * c.qhead)) 64
      if r.fault.isSome || r.stall.isSome then .next (refuseRing r.s q c) else .next (takeCommand r.s q c r.val)

/-! ## Dependences (R293, R294, R297) -/

/-- Whether a dependence names a command that became final other than DONE. -/
def depFailed (s : State) : Entry → Bool
  | .dep q seq => (s.queue q).failedSeqs.contains seq
  | _ => false

/-- Whether a dependence holds: its queue's QSEQ has reached its sequence number. -/
def depHolds (s : State) : Entry → Bool
  | .dep q seq => decide (seq ≤ (s.queue q).qseq)
  | _ => true

/-! ## Task descriptors (R314, R315) -/

/-- The descriptor's fields, with the defaults of R314. -/
def descrOf (v : Nat) (addr : Word) : Descr :=
  let f := descrField v
  { entry := BitVec.ofNat 64 (f 0 8), args := BitVec.ofNat 64 (f 8 8), tvec := BitVec.ofNat 64 (f 16 8), clusters := f 24 4,
    vlmax := f 28 2, slices := f 30 2, region := if f 32 4 == 0 then 196608 else f 32 4, frame := if f 36 4 == 0 then 4096 else f 36 4,
    groups := f 40 1, width := f 41 1, height := f 42 1, klass := f 43 1, attr := BitVec.ofNat 4 (f 44 1), addr := addr }

/-- Whether the Trowel takes a descriptor (R10, R315). -/
def descrOk (v : Nat) (d : Descr) : Bool :=
  let need := d.groups * sliceUnits d.slices 128 d.prot
  descrField v 45 19 == 0 && decide (descrField v 44 1 < 16) && decide (d.klass ≤ 2)
    && d.entry >>> 48 == 0 && d.entry.toNat % 4 == 0 && d.tvec >>> 48 == 0 && d.tvec.toNat % 4096 == 0
    && decide (1 ≤ d.clusters) && decide (d.clusters ≤ 2 ^ 20) && [128, 256, 512, 1024].contains d.vlmax
    && d.slices % 16 == 0 && decide (16 ≤ d.slices) && decide (d.slices ≤ 768)
    && decide (1 ≤ d.groups) && decide (d.groups ≤ if d.klass == 1 then 8 else 16)
    && decide (1 ≤ d.width * d.height) && decide (d.width * d.height ≤ 12) && (d.klass != 1 || d.width == 1)
    && (d.klass == 1 || decide (d.width ≤ 10)) && d.region % 192 == 0 && decide (192 ≤ d.region) && decide (d.region ≤ 524160)
    && d.frame % 64 == 0 && decide (64 ≤ d.frame) && decide (d.frame ≤ 65536) && decide (d.groups * d.frame ≤ d.region)
    && decide (need ≤ if d.klass == 1 then 480 else 768)

/-- What the first selection of a LAUNCH finds: the descriptor and the gate, or the REASON of its failure (R295, R318). -/
def checkLaunch (s : State) (q : Nat) (c : Command) : State × Except Nat (Descr × BitVec 64) :=
  let ctx := trowelCtx (s.queue q)
  let gate := ((c.entries s).filterMap fun e => match e with
    | .gate w => some w
    | _ => none).head?
  if (c.dw 1).toNat % 64 != 0 then (s, .error 2)
  else
    let r := readMem s ctx 4 2 true (c.dw 1) 64
    let d := descrOf r.val (c.dw 1)
    let cword := if c.dw 3 == 0 then true else match progressSpans s ctx .atomic (c.dw 3) with
      | .ok _ => true
      | .error _ => false
    if r.fault.isSome || r.stall.isSome || !descrOk r.val d || !cword then (r.s, .error 2)
    else
      match gate with
      | none => (r.s, .ok (d, 0))
      | some w =>
        let addr := w &&& 0xFFFF_FFFF_FFF8#64
        match progressSpans r.s ctx .load addr with
        | .error _ => (r.s, .error 2)
        | .ok _ =>
          match readProgress r.s ctx addr with
          | (s1, .ok v) => if progPoisoned v then (s1, .error 4) else (s1, .ok (d, (w &&& ~~~7#64) ||| 1))
          | (s1, .error _) => (s1, .error 2)

/-- A LAUNCH selected for the first time: failed, or kept with its task (R295 step 3). -/
def selectLaunch (s : State) (q : Nat) (c : Command) : State :=
  if (c.entries s).any (depFailed s) then resultCommand s q c.jidx .failed 5 0
  else
    match checkLaunch s q c with
    | (s1, .error reason) => resultCommand s1 q c.jidx .failed reason 0
    | (s1, .ok (d, gate)) =>
      let n := s1.nextTask
      let k : Task :=
        { queue := q, jidx := c.jidx, descr := d, argp := if c.dw 2 == 0 then d.args else c.dw 2, cword := c.dw 3, gate := gate,
          faultrec := BitVec.ofNat 64 (c.part 0 16 48), next := 0, live := [], finished := 0, fail := none, more := 0, kill := none
          pri := (s.queue q).priority, placing := true, due := false, asked := [] }
      modCommand ({ s1 with nextTask := n + 1 }.setTask n (some k)) q c.jidx fun c => { c with task := n }

/-! ## QUEUE_SELECTION (R300) -/

/-- The command that a queue would start next, with its predecessor (R295 step 2). -/
def nextCommand : Option Command → List Command → Option (Option Command × Command)
  | _, [] => none
  | pred, c :: cs => if c.state = .accepted && c.result.isNone then some (pred, c) else nextCommand (some c) cs

/-- Whether a LAUNCH is worth a selection: one not yet checked whose dependences stand, or one that waits and could be placed
now (R295, R300, R302; log 36). -/
def launchReady (s : State) (q : Nat) (c : Command) : Bool :=
  !(s.queue q).descheduled
    && if c.task == 0 then (c.entries s).all fun e => depFailed s e || depHolds s e
      else (s.task c.task).any fun k => placeable s c.task k (s.queue q).priority

/-- The command of a queue that its predecessor lets start (R295 step 2). -/
def headCommand (s : State) (q : Nat) : Option Command :=
  (nextCommand none (s.queue q).commands).bind fun p =>
    let overlap := p.2.kind == 1 && p.2.flags % 2 == 1
    let ready : Bool := match p.1 with
      | none => true
      | some x => overlap && x.state = .started
    if ready then some p.2 else none

/-- The eligible command of a queue (R295 step 2, R306). -/
def eligible (s : State) (q : Nat) : Option Command := (headCommand s q).filter fun c => c.kind != 1 || launchReady s q c

/-- The command that a selection takes from a queue: an eligible one, or a LAUNCH that waits, whose placement is tried once more
(R300, R302). -/
def selectable (s : State) (q : Nat) : Option Command :=
  (headCommand s q).filter fun c => c.kind != 1 || launchReady s q c || (c.task != 0 && !(s.queue q).descheduled)

/-- The first candidate above a queue number, wrapping. -/
def nextAbove (last : Nat) (qs : List Nat) : Option Nat := (qs.find? fun q => decide (last < q)).orElse fun _ => qs.head?

/-- Queues of a partition and a priority that offer a command. -/
def offering (s : State) (part p : Nat) (offer : State → Nat → Option Command) : List Nat :=
  s.queues.filterMap fun e => if e.2.part == part && e.2.priority == p && (offer s e.1).isSome then some e.1 else none

/-- One scan over the priorities from p - 1 down: the queue selected and its command. A priority at which only LAUNCHes wait is passed
over, for a command below it that may proceed (R302; log 36); where another command stands beside them, their turn moves last[p]. -/
def scanPriorities (s : State) (part : Nat) : Nat → Option (Nat × Nat × Command)
  | 0 => none
  | p + 1 =>
    if (offering s part p eligible).isEmpty then scanPriorities s part p
    else
      (nextAbove (FMap.get 4095 s.trowel.last (part * 16 + p)) (offering s part p selectable)).bind fun q =>
        (selectable s q).map fun c => (p, q, c)

/-- A LAUNCH selected: checked the first time, then kept for its placement with the priority that its queue has now. -/
def chooseLaunch (s : State) (q : Nat) (c : Command) : State :=
  if c.task == 0 then selectLaunch s q c
  else modTask s c.task fun k => { k with pri := (s.queue q).priority, placing := true }

/-- A selection of a queue makes a placement pass of each of its tasks due (R301). -/
def passesOf (s : State) (q : Nat) : State :=
  s.tasks.foldl (fun a e => if e.2.any (·.queue == q) then modTask a e.1 fun k => { k with due := true } else a) s

/-- Whether a placement pass of a task can be made now. -/
def passReady (s : State) (task : Nat) : Bool :=
  match execPlacementPass task s with
  | .next _ => true
  | _ => false

/-- Whether a selection has not ended: a selected LAUNCH is still to be placed, or a pass that is due still to be made, so that placements
commit in the order of their selections (R300, R301). -/
def selectionOpen (s : State) : Bool := s.tasks.any fun e => e.2.any fun k => k.placing || (k.due && passReady s e.1)

/-- QUEUE_SELECTION (R300): a LAUNCH is checked and kept for its placement, any other command starts. -/
def execQueueSelection (part : Nat) (s : State) : Out :=
  if !s.powered then .fault .poweredOff
  else if selectionOpen s then noStep "QUEUE_SELECTION"
  else
    match scanPriorities s part 16 with
    | none => noStep "QUEUE_SELECTION"
    | some (p, q, c) =>
      let s1 := { passesOf s q with trowel := { s.trowel with last := FMap.set 4095 s.trowel.last (part * 16 + p) q } }
      .next (if c.kind == 1 then chooseLaunch s1 q c else startCommand s1 q c)

/-! ## What started commands do (R293) -/

/-- A started command of a kind that has no result yet acts. -/
def commandEvent (s : State) (q kind : Nat) (name : String) (f : Command → Option State) : Out :=
  if !s.powered then .fault .poweredOff
  else
    match (s.queue q).commands.find? fun c => c.kind == kind && c.state = .started && c.result.isNone with
    | some c => match f c with
      | some s1 => .next s1
      | none => noStep name
    | none => noStep name

/-- The REASON of a fault on a command's memory (R294). -/
def faultReason (code : Nat) : Nat := if code == cTranslation then 2 else 4

/-- One sector's worth of a command's copy: none where its source fails a check. -/
def commandPiece (s : State) (p : List CopyByte) : Option State :=
  match sourceFault s 0 (p.filterMap fun b => b.src.map fun f => (f.1, b.chk, f.2)) with
  | some _ => none
  | none => some (performUpdate s 0 (pieceUpdate s 0 p)).1

/-- The pieces of a command's copy in order, and whether all of them performed; `fuel` is their number. -/
def commandPieces : Nat → List (List CopyByte) → State → State × Bool
  | _, [], s => (s, true)
  | 0, _ :: _, s => (s, true)
  | fuel + 1, p :: ps, s =>
    match commandPiece s p with
    | none => (s, false)
    | some s1 => commandPieces fuel (saveBytes s 0 (pieceDst p) ps) s1

/-- A die copy engine's copy of a command (R293). -/
def runCopy (s : State) (q : Nat) (c : Command) (a : CopyArgs) : State :=
  let ctx := trowelCtx (s.queue q)
  let rows := a.rowSpans s ctx
  let src := srcSpans rows
  let dst := dstSpans rows
  match a.refused src dst with
  | some _ => resultCommand s q c.jidx .failed 4 0
  | none =>
    let s1 := touchSpans (touchSpans s ctx false src) ctx true dst
    let built := a.buildRows s1 0 rows
    let ps := toPieces built.1
    let r := commandPieces ps.length ps s1
    resultCommand r.1 q c.jidx (if r.2 && built.2.isNone then .done else .failed) (if r.2 && built.2.isNone then 0 else 4) 0

/-- COPY_COMMAND (R293). -/
def execCopyCommand (q : Nat) (s : State) : Out :=
  commandEvent s q 2 "COPY_COMMAND" fun c => c.copyArgs.map (runCopy s q c)

/-- The update of a SIGNAL on a word that stands at a key (R293). -/
def signalWord (s : State) (key op v : Nat) : State :=
  let old := memNat s.mem key 8
  let count (n : Nat) : Nat := n % 2 ^ 62 + old / 2 ^ 62 * 2 ^ 62
  let new := if op == 0 then count v
    else if op == 1 then count (old % 2 ^ 62 + v)
    else if op == 2 then (old ||| completeBit) else old ||| poisonedBit
  writeNat s key 8 new

/-- SIGNAL (R216, R293): the update of a progress word needs WR, and UL as every access of the Trowel. -/
def execSignal (q : Nat) (s : State) : Out :=
  commandEvent s q 3 "SIGNAL" fun c =>
    let ctx := trowelCtx (s.queue q)
    match trowelWord s ctx .store (c.dw 1) with
    | .error f => some (resultCommand s q c.jidx .failed (faultReason f.1) 0)
    | .ok sps =>
      match spanRefs sps with
      | (key, _, _, _) :: _ =>
        some (resultCommand (signalWord (touchSpans s ctx true sps) key (c.part 3 0 8) (c.dw 2).toNat) q c.jidx .done 0 0)
      | [] => none

/-- WAIT (R293): one look at the word. -/
def execWait (q : Nat) (s : State) : Out :=
  commandEvent s q 4 "WAIT" fun c =>
    match readProgress s (trowelCtx (s.queue q)) (c.dw 1) with
    | (s1, .error (.fault f _)) => some (resultCommand s1 q c.jidx .failed (faultReason f) 0)
    | (_, .error _) => none
    | (s1, .ok w) =>
      if progPoisoned w then some (resultCommand s1 q c.jidx .failed 4 0)
      else if progComplete w || decide ((c.dw 2).toNat ≤ progCount w) then some (resultCommand s1 q c.jidx .done 0 0)
      else none

/-- DEPEND (R293, R294). -/
def execDepend (q : Nat) (s : State) : Out :=
  commandEvent s q 5 "DEPEND" fun c =>
    if c.flags == 2 && (c.entries s).any (depFailed s) then some (resultCommand s q c.jidx .failed 5 0)
    else if (c.entries s).all (depHolds s) then some (resultCommand s q c.jidx .done 0 0)
    else none

/-- The end of a queue's period: the charge goes, and the queue is scheduled again (R305, R306). -/
def CmdQueue.endPeriod (c : CmdQueue) (at_ : Nat) : CmdQueue := { c with charge := 0, descheduled := false, periodStart := at_ }

/-- REFILL (R305). -/
def execRefill (q : Nat) (s : State) : Out :=
  commandEvent s q 6 "REFILL" fun c =>
    let t := c.part 1 0 12
    let n := c.part 2 0 32
    let cq := s.queue t
    let cq1 := if n == 2 ^ 32 - 1 then cq else { cq with budget := n }
    some (resultCommand (s.setQueue t (cq1.endPeriod s.refTicks)) q c.jidx .done 0 0)

/-- CANCEL (R296): its TAG holds the number of commands it cancelled. -/
def execCancel (q : Nat) (s : State) : Out :=
  commandEvent s q 7 "CANCEL" fun c =>
    let limit := c.part 2 0 48
    let r := cancelWhere s (c.part 1 0 12) 6 fun x => decide (x.seq ≤ limit)
    some (resultCommand r.1 q c.jidx .done 0 (BitVec.ofNat 64 r.2))

/-- MARK (R293). -/
def execMark (q : Nat) (s : State) : Out :=
  commandEvent s q 8 "MARK" fun c => some (resultCommand s q c.jidx .done 0 (BitVec.ofNat 64 (c.part 1 0 32)))

/-! ## COMMAND_FINAL (R292, R294, R295 step 4, R296) -/

/-- QSEQ is reported, or held for the end of the queue's interval (R374). -/
def reportQseq (s : State) (q : Nat) : State :=
  let c := s.queue q
  if c.msgAt ≤ s.refTicks then sendMsg (s.setQueue q { c with msgAt := s.refTicks + 1000, msgHeld := false }) 1 q (BitVec.ofNat 64 c.qseq)
  else s.setQueue q { c with msgHeld := true }

/-- A command becomes final: its completion word, its journal entry, QSEQ, HALTFAIL, the message. -/
def finishCommand (s : State) (q : Nat) (c : Command) (st : CmdState) (reason : Nat) (tag : Word) : State :=
  let s1 := if c.kind == 1 then
      markWord s (trowelCtx (s.queue q)) (c.dw 3) (if st = .done then completeBit else poisonedBit)
    else s
  let s2 := journalCommand s1 q c st reason tag
  let cq := s2.queue q
  let s3 := s2.setQueue q
    { cq with
      commands := cq.commands.filter (·.jidx != c.jidx), qseq := max cq.qseq c.seq
      failedSeqs := if st = .done then cq.failedSeqs else cq.failedSeqs ++ [c.seq] }
  let s4 := if st = .failed && cq.haltfail then (cancelWhere s3 q 7 fun _ => true).1 else s3
  reportQseq s4 q

/-- COMMAND_FINAL (R295). -/
def execCommandFinal (q : Nat) (s : State) : Out :=
  if !s.powered then .fault .poweredOff
  else
    match (s.queue q).commands with
    | c :: _ =>
      match c.result with
      | some (st, reason, tag) => .next (finishCommand s q c st reason tag)
      | none => noStep "COMMAND_FINAL"
    | [] => noStep "COMMAND_FINAL"

/-- QSEQ_MSG_INTERVAL_END (R374). -/
def execQseqMsgIntervalEnd (q : Nat) (s : State) : Out :=
  if !s.powered then .fault .poweredOff
  else if (s.queue q).msgHeld && decide ((s.queue q).msgAt ≤ s.refTicks) then .next (reportQseq s q)
  else noStep "QSEQ_MSG_INTERVAL_END"

/-! ## Device events (R320) -/

/-- A device event journaled, with its message. -/
def journalEvent (s : State) (reason tag : Nat) : State :=
  let j := s.trowel.jhead
  let s1 := writeJournal s j (journalBytes 3 reason 0xFFF 0xFF 0 0 s.trowel.jgen (BitVec.ofNat 64 tag) s.refTicks)
  sendMsg (advanceJournal s1) 3 0 (BitVec.ofNat 64 j)

/-- The event that stands in a doorbell of the Weeder: reason and tag (R413). -/
def doorEvent (s : State) (w : WeederArea) : Option (Nat × Nat) :=
  let v := memNat s.mem w.door 8
  if v == 0 then none else some (v % 256, v % 2 ^ 63 / 256)

/-- DEVICE_EVENT_JOURNAL (R320, R413): an event that waits for its entry, or one in a doorbell, which is then cleared. -/
def execDeviceEventJournal (reason tag : Nat) (s : State) : Out :=
  if !s.powered then .fault .poweredOff
  else if journalFull s then noStep "DEVICE_EVENT_JOURNAL"
  else if s.trowel.events.contains (reason, tag) then
    .next (journalEvent { s with trowel := { s.trowel with events := s.trowel.events.erase (reason, tag) } } reason tag)
  else
    match s.trowel.weeder.find? fun w => doorEvent s w == some (reason, tag) with
    | some w => .next (writeNat (journalEvent s reason tag) w.door 8 0)
    | none => noStep "DEVICE_EVENT_JOURNAL"

/-! ## Accounts (R304 to R306) -/

/-- Every live slot of the map cores charged. -/
def chargeAll (s : State) : State := s.liveGroups.foldl (fun a e => chargeSlot a e.1 e.2.1) s

/-- CHARGE_READ (R304): every 1,000 reference ticks. -/
def execChargeRead (s : State) : Out :=
  if !s.powered then .fault .poweredOff
  else if s.trowel.lastCharge + 1000 ≤ s.refTicks then
    let s1 := chargeAll s
    .next { s1 with trowel := { s1.trowel with lastCharge := s.refTicks / 1000 * 1000 } }
  else noStep "CHARGE_READ"

/-- Whether a queue's period has ended. -/
def CmdQueue.periodOver (c : CmdQueue) (ticks : Nat) : Bool := c.period != 0 && decide (c.periodStart + c.period ≤ ticks)

/-- PERIOD_END (R305). -/
def execPeriodEnd (q : Nat) (s : State) : Out :=
  if !s.powered then .fault .poweredOff
  else
    let c := s.queue q
    if c.periodOver s.refTicks then
      .next (s.setQueue q (c.endPeriod (c.periodStart + (s.refTicks - c.periodStart) / c.period * c.period)))
    else noStep "PERIOD_END"

end Sys2Proof.Machine
end

