-- ==== Sys2Proof/Machine/Errors.lean ====
section
/-! DEFINITION. Storage errors and the removal of capacity (R201, R207, R364 to R368). -/

namespace Sys2Proof.Machine

/-! ## UNCORRECTABLE_ERROR (R366) -/

/-- Sectors that a die keeps: installed memory and the scratchpads. -/
def storedSector (n : Nat) : Bool := installed (48 * n) 48 || (decide (padKey 0 0 ≤ 48 * n) && decide (48 * n < padKey 292 0))

/-- A change of the register files of a group, where the group is there. -/
def markFiles (s : State) (core slot : Nat) (ok : Group → Bool) (f : Files → Files) : Option State :=
  (s.group? core slot).bind fun g => if ok g then some (s.setGroup core slot { g with fil := f g.fil }) else none

/-- Serials of the entries of a dispatch queue. -/
def Group.queueSerials (g : Group) : QueueKind → List Nat
  | .vector => g.que.vq.map (·.serial)
  | .matrix => g.que.mq.map (·.serial)
  | .copy => g.que.cq.map (·.serial)

/-- An entry of a dispatch queue marked. -/
def markEntry (s : State) (core slot : Nat) (q : QueueKind) (place : Nat) : Option State :=
  (s.group? core slot).bind fun g =>
    ((g.queueSerials q)[place]?).map fun n =>
      s.setGroup core slot { g with que := { g.que with bad := g.que.bad.filter (· != n) ++ [n] } }

/-- The TMMA that a group's matrix queue offers next. -/
def nextTmma (s : State) (core slot : Nat) (g : Group) : Option MEntry :=
  (matrixHead s core slot g).bind fun h =>
    match h.1.instr with
    | .tmma _ _ _ _ | .tmmaOvr _ _ _ _ => some h.1
    | _ => none

/-- Whether the array multiplies for an entry: it meets no fault of its own (R201), but perhaps one that a machine-check stands before
(R350). -/
def reachesArray (s : State) (core slot : Nat) (g : Group) (e : MEntry) : Bool :=
  match runMatrix s core slot g e with
  | .ok _ => true
  | .error (.fault c _) => c == cCheck || c == cArithmetic
  | .error _ => false

/-- A failed check of a block sum: the TMMA that the matrix unit takes next has no effect, and the core's array waits for its
map-out (R201, R366, R368). -/
def failArray (s : State) (core slot : Nat) : Option State :=
  (s.group? core slot).bind fun g =>
    ((nextTmma s core slot g).filter (reachesArray s core slot g)).map fun e =>
      let s1 := spoilEntry s core slot g cMachine e.serial 2 e.pc
      let rs := s1.trowel.removals
      { s1 with trowel := { s1.trowel with removals := if rs.contains (core, false) then rs else rs ++ [(core, false)] } }

/-- A mismatch between the columns of a pair: a protected task's TMMA has no effect; any fault of its own comes first (R207, R350,
R365). -/
def failPair (s : State) (core slot : Nat) : Option State :=
  (s.group? core slot).bind fun g =>
    if g.protected_ then
      ((nextTmma s core slot g).filter fun e => (runMatrix s core slot g e).toOption.isSome).map fun e =>
        spoilEntry s core slot g cProtected e.serial 2 e.pc
    else none

/-- A mismatch between the lanes at an element of a protected task's head convoy, which executes up to there (R364,
R365). -/
def failLane (s : State) (core slot elem : Nat) : Option State :=
  (s.group? core slot).bind fun g =>
    (vectorHead s core slot g).bind fun h =>
      if g.protected_ && decide (g.vec.vst ≤ elem) && decide (elem ≤ h.1.vl) && !g.que.bad.contains h.1.serial then
        some (executeUpset s core slot g h.1 h.2 (some elem))
      else none

/-- A parity error drops the entry, and the walk or fetch is repeated (R366). -/
def dropTlb (s : State) (core i : Nat) : Option State :=
  let co := s.core core
  if i < co.tlb.length then some (s.setCore core { co with tlb := co.tlb.eraseIdx i }) else none

def dropIcache (s : State) (core i : Nat) : Option State :=
  let co := s.core core
  if i < co.icache.length then some (s.setCore core { co with icache := co.icache.eraseIdx i }) else none

/-- A corrected error counted for the Trowel (R366). -/
def countError (s : State) : State := { s with trowel := { s.trowel with corrected := s.trowel.corrected + 1 } }

/-- What an uncorrectable error does where it stands (R366). -/
def spoil (s : State) : ErrorPlace → Option State
  | .sector n => if storedSector n then some { s with bad := FMap.set false s.bad n true } else none
  | .l1 core n =>
    let l1 := (s.core core).l1
    if l1.any (·.sector == n) then some (s.setL1 core (l1.map fun x => if x.sector == n then { x with bad := true } else x)) else none
  | .slice core slot e r =>
    markFiles s core slot (fun g => decide (e < g.vec.vlmax) && decide (16 * r < g.idn.alloc)) fun f =>
      { f with badSlices := FMap.set false f.badSlices (e * 48 + r) true }
  | .mask core slot m w =>
    markFiles s core slot (fun g => decide (m < 12) && decide (64 * w < g.vec.vlmax)) fun f =>
      { f with badMasks := FMap.set false f.badMasks (m * 16 + w) true }
  | .tile core slot t i w =>
    markFiles s core slot
      (fun g => decide (t < 4) && decide (i < grantOf g.gra.gm)
        && decide (w * tilePack (gfAcc g.gra.gf) < grantOf g.gra.gn)) fun f =>
      { f with badTiles := FMap.set false f.badTiles (tileKey t i w) true }
  | .latch core slot i w =>
    markFiles s core slot (fun g => g.fil.latch.any fun l => decide (i < l.gm) && decide (16 * w < l.gk * (formatClass l.ifmt).2)) fun f =>
      { f with badLatch := FMap.set false f.badLatch (i * 65536 + w) true }
  | .entry core slot q place => markEntry s core slot q place
  | .array core slot => failArray s core slot
  | .lane core slot elem => failLane s core slot elem
  | .pair core slot => failPair s core slot
  | .tlb core i => dropTlb s core i
  | .icache core i => dropIcache s core i

/-- UNCORRECTABLE_ERROR (R366). -/
def execUncorrectableError (place : ErrorPlace) (s : State) : Out :=
  if !s.powered then .fault .poweredOff
  else
    match spoil s place with
    | some s1 => .next s1
    | none => noStep "UNCORRECTABLE_ERROR"

/-- CORRECTED_ERROR (R366): counted for the Trowel, and nothing else. -/
def execCorrectedError (_place : ErrorPlace) (s : State) : Out :=
  if !s.powered then .fault .poweredOff else .next (countError s)

/-! ## Map-out and removal (R320, R328, R368) -/

/-- Whether a team stands on a core. -/
def teamOn (s : State) (core : Nat) : Bool := s.teams.any fun e => e.2.any fun t => t.core == core

/-- Column groups that a core can lose before it is removed. -/
def mostMapOut (core : Nat) : Nat := if coreClass core == 0 then 7 else 1

/-- A core's pending clearing goes, and an event waits for its journal entry. -/
def endRemoval (s : State) (core reason tag : Nat) : State :=
  { s with trowel := { s.trowel with
      removals := s.trowel.removals.filter (·.1 != core)
      events := s.trowel.events ++ [(reason, tag)] } }

/-- A core removed: STATE 3, REASON 17, and its DUE bit cleared in the same action (R368, R413). -/
def removeCore (s : State) (core : Nat) : State :=
  endRemoval (s.trowel.weeder.foldl (fun a w => writeFlag a w.due core false) (setMapState s core 3)) core 17 core

/-- One more column group mapped out, or the core removed where none is left to lose. -/
def mapOutColumn (s : State) (core : Nat) : State :=
  let n := mapOut s core
  if mostMapOut core ≤ n then removeCore s core
  else endRemoval (setMapOut s core (n + 1)) core 18 (core + (n + 1) * 4096)

/-- COLUMN_MAPOUT (R368): once every cluster with a team on the core has been pre-empted. -/
def execColumnMapout (core : Nat) (s : State) : Out :=
  if !s.powered then .fault .poweredOff
  else if s.trowel.removals.contains (core, false) && !teamOn s core && mapState s core == 0 then .next (mapOutColumn s core)
  else noStep "COLUMN_MAPOUT"

/-- CORE_LOGIC_ERROR (R368): the core's clusters are to be pre-empted, and once they are gone the core is removed. -/
def execCoreLogicError (core : Nat) (s : State) : Out :=
  if !s.powered then .fault .poweredOff
  else if mapCores ≤ core || mapState s core != 0 then noStep "CORE_LOGIC_ERROR"
  else if !teamOn s core then .next (removeCore s core)
  else if s.trowel.removals.contains (core, true) then noStep "CORE_LOGIC_ERROR"
  else .next { s with trowel := { s.trowel with removals := s.trowel.removals ++ [(core, true)] } }

end Sys2Proof.Machine
end

