-- ==== Sys2Proof/Machine/FabricEvents.lean ====
section
/-! DEFINITION. What arrives over the Osrun fabric and the host link's modules (R370, R375 to R377, R382, R383; log 32,
log 33). -/

namespace Sys2Proof.Machine

/-- UCIE_MODULE_FAIL (R370): the module is taken out of use; traffic continues on the rest. -/
def execUcieModuleFail (m : Nat) (s : State) : Out :=
  if !s.powered then .fault .poweredOff
  else if decide (m < 4) && s.ucie.getLsbD m then .next { s with ucie := s.ucie &&& ~~~(1#4 <<< m) }
  else noStep "UCIE_MODULE_FAIL"

/-! ## Export windows (R377) -/

/-- The export table's entry for an aperture offset. -/
def exportEntry (s : State) (off : Nat) : Word :=
  BitVec.ofNat 64 (memNat s.mem (s.trowel.expbase.toNat + 8 * (off / 2 ^ 36 % 64)) 8)

/-- The physical address that an aperture offset maps to. -/
def windowAt (s : State) (off : Nat) : Nat := ((exportEntry s off).extractLsb' 36 16).toNat * 2 ^ 36 + off % 2 ^ 36

/-- Whether the window of an aperture offset is open, with its reserved bits 0 and its range in installed memory. -/
def windowOpen (s : State) (off : Nat) (writes : Bool) : Bool :=
  let e := exportEntry s off
  e.getLsbD 63 && (!writes || e.getLsbD 62) && e.extractLsb' 52 10 == 0 && e.extractLsb' 0 36 == 0
    && installed ((e.extractLsb' 36 16).toNat * 2 ^ 36) (2 ^ 36)

/-- The physical address that an aperture offset maps to, where the windows of its n bytes are open. -/
def exportAddress (s : State) (off n : Nat) (writes : Bool) : Option Nat :=
  if windowOpen s off writes && windowOpen s (off + (n - 1)) writes then some (windowAt s off) else none

/-- The two runs of physical memory, the second mostly empty, that hold n bytes from an aperture offset: a run ends with its
window. -/
def exportRuns (s : State) (off n : Nat) : List (Nat × Nat) :=
  let k := min n (2 ^ 36 - off % 2 ^ 36)
  [(windowAt s off, k), (windowAt s (off + k), n - k)]

/-- Numbers of the sectors that a flit's mask names. -/
def flitSectors (fl : Flit) : List Nat := (List.range 4).filter fun i => fl.sectorMask.getLsbD i

/-- Bytes of sector i of a flit's line. -/
def flitSector (fl : Flit) (i : Nat) : List Byte := (fl.data.drop (48 * i)).take 48

/-- Start of the line that holds an address. -/
def lineStart (a : Nat) : Nat := a / 192 * 192

/-- A sector of a line written at its home with the check value that came with it. DEDUCED (log 32): one that does not match its bytes
leaves the sectors that it is written to as wrong by the same difference (R226, R228, R375). -/
def ingressSector (s : State) (runs : List (Nat × Nat)) (bs : List Byte) (check : BitVec 32) : State :=
  let delta := check ^^^ crc32c bs
  let s1 := (runs.foldl (fun (p : State × List Byte) r => (writeBytes p.1 r.1 (p.2.take r.2), p.2.drop r.2)) (s, bs)).1
  if delta == 0 then s1
  else
    (dedup (runs.flatMap fun r => if r.2 == 0 then [] else [r.1 / 48, (r.1 + r.2 - 1) / 48])).foldl
      (fun a x => { a with chk := FMap.set 0 a.chk x (FMap.get 0 a.chk x ^^^ delta) }) s1

/-- A remote write: discarded and counted where its window is not open for it. -/
def remoteWrite (s : State) (fl : Flit) : State :=
  match exportAddress s (lineStart fl.addr) 192 true with
  | some _ =>
    (flitSectors fl).foldl (fun a i =>
      ingressSector a (exportRuns s (lineStart fl.addr + 48 * i) 48) (flitSector fl i) (fl.checks.getD i 0)) s
  | none => { s with trowel := { s.trowel with osrefuse := s.trowel.osrefuse + 1 } }

/-- A remote read: answered with its sectors, those of a closed window and those that fail their check with the error
marker. -/
def remoteRead (s : State) (fl : Flit) : State :=
  match exportAddress s (lineStart fl.addr) 192 false with
  | some pa =>
    let runs (i : Nat) := (exportRuns s (lineStart fl.addr + 48 * i) 48).filter (·.2 != 0)
    let bad (x : Nat) : Bool := mismatched s x || poisoned s x
    let marked := (flitSectors fl).filter fun i => (runs i).any fun r => bad (r.1 / 48) || bad ((r.1 + r.2 - 1) / 48)
    { s with replies := s.replies ++ [.data pa ((flitSectors fl).flatMap fun i => (runs i).flatMap fun r => memBytes s.mem r.1 r.2)
        (marked.map fun i => windowAt s (lineStart fl.addr + 48 * i) / 48)] }
  | none => { s with replies := s.replies ++ [.data fl.addr [] ((flitSectors fl).map fun i => lineStart fl.addr / 48 + i)] }

/-! ## Contributions (R378, R382, R383) -/

/-- Rank of a device in a communicator. -/
def rankOfDevice (s : State) (comm osid : Nat) : Option Nat :=
  let v := commEntry s comm
  (List.range (entryField v 10 2)).find? fun j => memNat s.mem (entryField v 16 8 + 2 * j) 2 == osid

/-- Whether a contribution disagrees with a collective that this device has begun under the same number (R380). -/
def disagrees (s : State) (fl : Flit) (rank : Nat) : Bool :=
  s.fabric.runs.any fun r =>
    r.comm == fl.comm && r.attempt == fl.attempt && r.seq == fl.seq && r.disagrees rank fl.addr fl.head

/-- A peer's acknowledgement of a flit of a contribution; what it waits for may be over (R382). -/
def acknowledgeFlit (s : State) (fl : Flit) : State :=
  let mine (f : SentFlit) : Bool :=
    f.comm == fl.comm && f.attempt == fl.attempt && f.seq == fl.seq && f.dev == fl.src && f.offset == fl.addr
  let ports := (s.fabric.sent.filter mine).map (·.port)
  finishColls { s with fabric := { s.fabric with
    sent := s.fabric.sent.filter fun f => !mine f
    replays := ports.foldl (fun m p => FMap.set 0 m (p + 64) 0) s.fabric.replays } }

/-- A flit that this device sent by a port is sent again from its replay buffer (R375). -/
def replayFlit (s : State) (p : Nat) : State :=
  { s with fabric := { s.fabric with replays := FMap.set 0 s.fabric.replays (p + 64) (min 64 (FMap.get 0 s.fabric.replays (p + 64) + 1)) } }

/-- A contribution: dropped where its attempt is older; a newer attempt is taken over first; a disagreement aborts. -/
def contribute (s : State) (fl : Flit) : State :=
  match if fl.comm < s.trowel.commcount.toNat && entryField (commEntry s fl.comm) 0 1 % 2 == 1 then rankOfDevice s fl.comm fl.src else none with
  | none => s
  | some rank =>
    if (fl.attempt - attemptOf s fl.comm).toInt < 0 then s
    else
      let s1 := advanceAttempt s fl.comm fl.attempt
      if disagrees s1 fl rank then advanceAttempt s1 fl.comm (fl.attempt + 1)
      else
        let cs : List Contribution := (flitSectors fl).map fun i =>
          { comm := fl.comm, attempt := fl.attempt, seq := fl.seq, rank := rank, offset := fl.addr + 48 * i, head := fl.head, data := flitSector fl i
            port := fl.port }
        finishColls { s1 with fabric := { s1.fabric with inbox := s1.fabric.inbox ++ cs } }

/-! ## FLIT_RECEIVE, PORT_DOWN, ABORT_TOKEN (R375, R383) -/

/-- What a flit does that has come through its link. -/
def performFlit (s : State) (fl : Flit) : State :=
  match fl.kind with
  | .write => remoteWrite s fl
  | .read => remoteRead s fl
  | .collective => contribute s fl
  | .abort => advanceAttempt s fl.comm fl.attempt
  | .ack => acknowledgeFlit s fl
  | .replay => replayFlit s fl.port

/-- Whether a port has seen 64 consecutive replays, of what it receives or of what it sends (R375). -/
def portSpent (s : State) (p : Nat) : Bool :=
  decide (64 ≤ FMap.get 0 s.fabric.replays p) || decide (64 ≤ FMap.get 0 s.fabric.replays (p + 64))

/-- FLIT_RECEIVE (R375): one whose link CRC fails is replayed; one for another device is not this device's; a port that is to go down
takes none. -/
def execFlitReceive (fl : Flit) (s : State) : Out :=
  if !s.powered then .fault .poweredOff
  else if 64 ≤ fl.port || !s.fabric.ports.getLsbD fl.port || portSpent s fl.port then noStep "FLIT_RECEIVE"
  else
    let n := FMap.get 0 s.fabric.replays fl.port
    let counted (k : Nat) : State := { s with fabric := { s.fabric with replays := FMap.set 0 s.fabric.replays fl.port k } }
    if !fl.crcGood then .next (counted (min 64 (n + 1)))
    else if fl.dst != s.trowel.osid.toNat then .next (counted 0)
    else .next (performFlit (counted 0) fl)

/-- Communicators whose collectives had a flit on a port: one that came by it, or one sent by it and not acknowledged (R375). -/
def carriedBy (s : State) (p : Nat) : List Nat :=
  dedup ((s.fabric.inbox.filter (·.port == p)).map (·.comm) ++ (s.fabric.sent.filter (·.port == p)).map (·.comm))

/-- PORT_DOWN (R375): the port goes down after 64 consecutive replays, and the collectives that had a flit on it are
aborted. What is sent from then on leaves by the other ports of its route entry. -/
def execPortDown (p : Nat) (s : State) : Out :=
  if !s.powered then .fault .poweredOff
  else if decide (p < 64) && s.fabric.ports.getLsbD p && portSpent s p then
    let s1 := { s with fabric := { s.fabric with
      ports := s.fabric.ports &&& ~~~(1#64 <<< p), replays := FMap.set 0 (FMap.set 0 s.fabric.replays p 0) (p + 64) 0 } }
    .next ((carriedBy s p).foldl (fun a c => advanceAttempt a c (attemptOf a c + 1)) s1)
  else noStep "PORT_DOWN"

/-- ABORT_TOKEN (R383): a token that is not newer changes nothing. -/
def execAbortToken (comm : Nat) (attempt : BitVec 32) (s : State) : Out :=
  if !s.powered then .fault .poweredOff else .next (advanceAttempt s comm attempt)

end Sys2Proof.Machine
end

