-- ==== Sys2Proof/Machine/HostLink.lean ====
section
/-! DEFINITION. What the host does over UCIe: the privileged window, the doorbell pages, device memory (R81, R82, R307, R310,
R370 to R372, R376, R385; log 38). -/

namespace Sys2Proof.Machine

/-- A step of the host: the module has power. -/
def hostEvent (s : State) (s1 : State) : Out := if !s.powered then .fault .poweredOff else .next s1

/-! ## Partitions (R307) -/

/-- Columns of a partition's entry, none where it is disabled. -/
def partColumns (w : Word) : BitVec 24 := if w.getLsbD 0 then w.extractLsb' 1 24 else 0

/-- Whether a team runs in a column of a set. -/
def teamInColumns (s : State) (cols : BitVec 24) : Bool := s.teams.any fun e => e.2.any fun t => cols.getLsbD (coreCol t.core)

/-- A write of partition entry i, or of HOSTCTL for i = 8. -/
def writePartition (s : State) (i : Nat) (v : Word) : State :=
  let bad := recordError s 1 0 (0x3000 + 8 * i)
  if i < 8 then
    let cols := partColumns v
    let taken := (List.range 8).any fun j => j != i && (partColumns (FMap.get 0 s.trowel.parts j) &&& cols) != 0
    if v >>> 25 != 0 || taken || teamInColumns s (partColumns (FMap.get 0 s.trowel.parts i) ^^^ cols) then bad
    else { s with trowel := { s.trowel with parts := FMap.set 0 s.trowel.parts i v } }
  else if i == 8 then
    if v >>> 1 != 0 then bad else { s with trowel := { s.trowel with hostctl := v } }
  else bad

/-- PARTITION_TABLE_WRITE (R307). -/
def execPartitionTableWrite (i : Nat) (v : BitVec 64) (s : State) : Out := hostEvent s (writePartition s i v)

/-! ## MMIOERR and OSREFUSE (R82, R376) -/

def clearError (s : State) : State := { s with trowel := { s.trowel with mmioerr := 0 } }

/-- MMIOERR_CLEAR (R82). -/
def execMmioerrClear (s : State) : Out := hostEvent s (clearError s)

/-- Whether any queue is enabled, so that the table registers are locked (R310, R376). -/
def anyEnabled (s : State) : Bool := s.queues.any (·.2.enable)

/-- A write of OSREFUSE: 0 clears it, while no queue is enabled. -/
def writeRefuse (s : State) (v : Word) : State :=
  if anyEnabled s || v != 0 then recordError s 1 0 0x2078 else { s with trowel := { s.trowel with osrefuse := 0 } }

/-- OSREFUSE_CLEAR (R376). -/
def execOsrefuseClear (s : State) : Out := hostEvent s (writeRefuse s 0)

/-! ## The table registers (R310, R376) -/

/-- Whether a value is an aligned address of tier 0. -/
def tierZero (v : Word) (align : Nat) : Bool := decide (v.toNat < 0x80_0000_0000) && v.toNat % align == 0

/-- Limits of a table register, none where the offset has no such register. -/
def tableLimits (off : Nat) (v : Word) : Option Bool :=
  match off with
  | 0x2000 => some (tierZero v 4096)
  | 0x2008 => some (decide (1 ≤ v.toNat) && decide (v.toNat ≤ 4096))
  | 0x2018 =>
    let a := (v.extractLsb' 0 52).toNat
    some (v.extractLsb' 52 11 == 0 && a % 4096 == 0 && (v.getLsbD 63 || decide (a < 0x80_0000_0000)))
  | 0x2020 => some (decide (12 ≤ v.toNat) && decide (v.toNat ≤ 20))
  | 0x2030 => some (tierZero v 64)
  | 0x2040 => some (tierZero v 4096)
  | 0x2048 => some (v.toNat % 4096 == 0)
  | 0x2050 => some (tierZero v 4096)
  | 0x2058 => some (decide (v.toNat ≤ 4096))
  | 0x2060 => some (tierZero v 8)
  | 0x2068 => some (v >>> 10 == 0)
  | 0x2070 => some (v >>> 52 == 0)
  | _ => none

/-- A table register takes a value. A communicator's attempt is 0 when the table is written (R378; log 33); JHEAD starts again at 0
where a smaller JLOG leaves it outside the ring (R298; log 37). -/
def setTable (s : State) (off : Nat) (v : Word) : State :=
  let t := s.trowel
  match off with
  | 0x2000 => { s with trowel := { t with qdtbase := v } }
  | 0x2008 => { s with trowel := { t with qdtcount := v } }
  | 0x2018 => { s with trowel := { t with jbase := v } }
  | 0x2020 => { s with trowel := { t with jlog := v.toNat }.headAt t.jhead }
  | 0x2030 => { s with trowel := { t with ectbase := v, ectSet := true } }
  | 0x2040 => { s with trowel := { t with ctxbase := v } }
  | 0x2048 => { s with trowel := { t with ctxsize := v } }
  | 0x2050 => { s with trowel := { t with commbase := v }, fabric := { s.fabric with attempts := [] } }
  | 0x2058 => { s with trowel := { t with commcount := v } }
  | 0x2060 => { s with trowel := { t with expbase := v } }
  | 0x2068 => { s with trowel := { t with osid := v } }
  | 0x2070 => { s with trowel := { t with rtbase := v } }
  | _ => s

/-- A write of the table region: ECTBASE at any time, the others while no queue is enabled; QLOAD acts. -/
def writeTable (s : State) (off : Nat) (v : Word) : State :=
  if off == 0x2010 then (if v >>> 12 != 0 then recordError s 1 0 off else loadQueue s v.toNat)
  else if off == 0x2078 then writeRefuse s v
  else
    match tableLimits off v with
    | some true => if off != 0x2030 && anyEnabled s then recordError s 1 0 off else setTable s off v
    | _ => recordError s 1 0 off

/-! ## The mailbox's registers (R385) -/

/-- A write of MBREQ or MBDOOR; 1 in MBDOOR submits the request. -/
def writeMail (s : State) (off : Nat) (v : Word) : State :=
  let m := s.trowel.mail
  if m.busy then recordError s 1 0 off
  else if off < 0x10040 then { s with trowel := { s.trowel with mail := { m with req := FMap.set 0 m.req ((off - 0x10000) / 8) v } } }
  else if v == 1 then
    { s with trowel := { s.trowel with
        mail := { m with busy := true, result := 0, number := (m.number + 1) % 2 ^ 32, acted := false, acked := false } } }
  else s

/-- MBSTAT. -/
def mailStatus (m : Mailbox) : Word := BitVec.ofNat 64 ((if m.busy then 1 else 0) + m.result % 256 * 2 ^ 8 + m.number % 2 ^ 32 * 2 ^ 32)

/-! ## MMR and MMW (R371) -/

/-- A read of a doorbell page (R81). -/
def readDoorbell (s : State) (q off : Nat) : Word :=
  let c := s.queue q
  match off with
  | 0x000 => BitVec.ofNat 64 c.tail
  | 0x008 => BitVec.ofNat 64 c.qhead
  | 0x010 => BitVec.ofNat 64 c.qseq
  | 0x018 => BitVec.ofNat 64 s.trowel.jhead
  | _ => 0

/-- A read of a table register. -/
def readTable (s : State) (off : Nat) : Word :=
  let t := s.trowel
  match off with
  | 0x2000 => t.qdtbase
  | 0x2008 => t.qdtcount
  | 0x2018 => t.jbase
  | 0x2020 => BitVec.ofNat 64 t.jlog
  | 0x2028 => BitVec.ofNat 64 t.jhead
  | 0x2030 => t.ectbase
  | 0x2038 => BitVec.ofNat 64 Config.cmapBase
  | 0x2040 => t.ctxbase
  | 0x2048 => t.ctxsize
  | 0x2050 => t.commbase
  | 0x2058 => t.commcount
  | 0x2060 => t.expbase
  | 0x2068 => t.osid
  | 0x2070 => t.rtbase
  | 0x2078 => t.osrefuse
  | _ => 0

/-- A 64-bit read of the window. What the identification region holds is open, and may tell of a thermal trip (R82, R392). -/
def readWindow (s : State) (off : Nat) : Word :=
  if off % 8 != 0 then 0
  else if off < 0x1000 then Config.identification ((s.tick * 2 + (if s.trowel.tripped then 1 else 0)) * 4096 + off)
  else if off == 0x1000 then s.trowel.mmioerr
  else if off < 0x3000 then readTable s off
  else if off < 0x3040 then FMap.get 0 s.trowel.parts ((off - 0x3000) / 8)
  else if off == 0x3040 then s.trowel.hostctl
  else if 0x10000 ≤ off && off < 0x10040 then FMap.get 0 s.trowel.mail.req ((off - 0x10000) / 8)
  else if off == 0x10048 then mailStatus s.trowel.mail
  else if 0x100_0000 ≤ off && off < 0x200_0000 then readDoorbell s ((off - 0x100_0000) / 4096) (off % 4096)
  else 0

/-- MMR (R371): the value is answered. -/
def execMmr (off : Nat) (s : State) : Out := hostEvent s { s with replies := s.replies ++ [.value off (readWindow s off)] }

/-- A 64-bit write of the window. -/
def writeWindow (s : State) (off : Nat) (v : Word) : State :=
  if 0x100_0000 ≤ off && off < 0x200_0000 then
    let q := (off - 0x100_0000) / 4096
    if off % 4096 == 0 then ringDoorbell s q v else recordError s 0 q (off % 4096)
  else if off % 8 != 0 then recordError s 1 0 off
  else if off == 0x1000 then (if v == 0 then clearError s else recordError s 1 0 off)
  else if 0x2000 ≤ off && off < 0x3000 then writeTable s off v
  else if 0x3000 ≤ off && off ≤ 0x3040 then writePartition s ((off - 0x3000) / 8) v
  else if 0x10000 ≤ off && off ≤ 0x10040 then writeMail s off v
  else recordError s 1 0 off

/-- MMW (R371). -/
def execMmw (off : Nat) (v : BitVec 64) (s : State) : Out := hostEvent s (writeWindow s off v)

/-! ## DMR and DMW (R371, R372) -/

/-- Keys that a byte mask names from an address. -/
def maskKeys (pa : Nat) (mask : List Bool) : List Nat := mask.zipIdx.filterMap fun b => if b.1 then some (pa + b.2) else none

/-- Whether bytes are one transaction: 1 to 192 of one line, under a byte mask (R371). -/
def oneLine : List Nat → Bool
  | [] => false
  | k :: ks => ks.all fun x => x / 192 == k / 192

/-- A refused access to device memory: an error completion, and MMIOERR. -/
def refuseDma (s : State) (pa : Nat) : State :=
  { recordError s 1 0 (Config.dmaError pa) with replies := s.replies ++ [.error pa] }

/-- Whether the host may reach bytes. -/
def dmaOpen (s : State) (keys : List Nat) : Bool := keys.all (installed · 1) && s.trowel.hostctl.getLsbD 0

/-- Sectors of bytes whose check fails or that are marked poisoned (R229, R366, R367). -/
def markedSectors (s : State) (keys : List Nat) : List Nat :=
  (dedup (keys.map (· / 48))).filter fun x => mismatched s x || poisoned s x

/-- DMR (R372): a read at the home. -/
def execDmr (pa : Nat) (mask : List Bool) (s : State) : Out :=
  let keys := maskKeys pa mask
  if !s.powered then .fault .poweredOff
  else if !oneLine keys then noStep "DMR"
  else if !dmaOpen s keys then .next (refuseDma s pa)
  else .next { s with replies := s.replies ++ [.data pa (keys.map (memGet s.mem)) (markedSectors s keys)] }

/-- Attempts of the communicators whose table entries bytes lie in go to 0 (R378; log 33). -/
def clearAttempts (s : State) (keys : List Nat) : State :=
  let lo := s.trowel.commbase.toNat
  let touched (c : Nat) : Bool := decide (c < s.trowel.commcount.toNat) && keys.any fun k => decide (lo + 64 * c ≤ k) && decide (k < lo + 64 * c + 64)
  { s with fabric := { s.fabric with attempts := s.fabric.attempts.filter fun a => !touched a.1 } }

/-- The bytes of a write with their keys. -/
def maskCells (pa : Nat) (bytes : List (Option Byte)) : List Host.Cell := bytes.zipIdx.filterMap fun b => b.1.map fun v => (pa + b.2, v)

/-- DMW (R372): a write at the home. -/
def execDmw (pa : Nat) (bytes : List (Option (BitVec 8))) (s : State) : Out :=
  let cells := maskCells pa bytes
  let keys := cells.map (·.1)
  if !s.powered then .fault .poweredOff
  else if !oneLine keys then noStep "DMW"
  else if !dmaOpen s keys then .next (refuseDma s pa)
  else .next (writeCells (clearAttempts s keys) cells)

end Sys2Proof.Machine
end

