-- ==== Sys2Proof/Machine/Digest.lean ====
section
/-! DEFINITION. The digest of measurements, SHA-384, from the way its constants are defined: roots of the first primes (R387, R388;
log 29). -/

namespace Sys2Proof.Machine

/-! ## Its constants -/

/-- Whether no number from 2 up to n divides p. -/
def noDivisor (p : Nat) : Nat → Bool
  | 0 => true
  | n + 1 => (n + 1 == 1 || p % (n + 1) != 0) && noDivisor p n

/-- The primes below 410, of which there are 80. -/
def smallPrimes : List Nat := (List.range 410).filter fun p => decide (2 ≤ p) && noDivisor p (p - 1)

/-- The largest number of n bits whose k-th power is at most v, grown from its top bit. -/
def floorRoot (k v : Nat) : Nat → Nat → Nat
  | 0, r => r
  | n + 1, r => floorRoot k v n (if (r + 2 ^ n) ^ k ≤ v then r + 2 ^ n else r)

/-- The first 64 bits of the fraction of the k-th root of a number below 2^9. -/
def rootFraction (k p : Nat) : Word := BitVec.ofNat 64 (floorRoot k (p * 2 ^ (64 * k)) 70 0)

/-- One constant for each of the 80 rounds: cube roots. -/
def roundConstants : List Word := smallPrimes.map (rootFraction 3)

/-! ## Rounds -/

/-- A word's rotations by each of some amounts, added bit by bit. -/
def spread (w : Word) (by_ : List Nat) : Word := by_.foldl (fun a n => a ^^^ w.rotateRight n) 0

/-- The two words that each round makes, for the last four rounds, newest first. -/
abbrev Chain := List (Word × Word)

/-- A round: its two words from those of the four rounds before and from one word of the message with the round's constant. -/
def mixRound (c : Chain) (k : Word) : Chain :=
  match c with
  | [p, q, r, z] =>
    let choice := r.2 ^^^ (p.2 &&& (q.2 ^^^ r.2))
    let most := (p.1 &&& q.1) ||| (r.1 &&& (p.1 ||| q.1))
    let t := z.2 + spread p.2 [14, 18, 41] + choice + k
    [(t + spread p.1 [28, 34, 39] + most, z.1 + t), p, q, r]
  | _ => c

/-- The word that follows a window of sixteen words of the message, oldest first. -/
def nextWord (ws : List Word) : Word :=
  let near := ws.getD 14 0
  let far := ws.getD 1 0
  ws.getD 0 0 + ws.getD 9 0 + (spread far [1, 8] ^^^ (far >>> 7)) + (spread near [19, 61] ^^^ (near >>> 6))

/-- A block of sixteen words: each round takes the oldest word of the window, which then moves on by one. -/
def absorb (c : Chain) (block : List Word) : Chain :=
  let r := roundConstants.foldl (fun (x : Chain × List Word) k =>
    (mixRound x.1 (k + x.2.headD 0), x.2.drop 1 ++ [nextWord x.2])) (c, block)
  (c.zip r.1).map fun p => (p.1.1 + p.2.1, p.1.2 + p.2.2)

/-! ## Messages -/

/-- The first n words of bytes, most significant byte first. -/
def wordsOf (bs : List Byte) (n : Nat) : List Word :=
  (List.range n).map fun i => BitVec.ofNat 64 (leBytes (((bs.drop (8 * i)).take 8).reverse))

/-- The chain before the first block: square roots of the ninth to the sixteenth prime. -/
def firstChain : Chain :=
  let v (i : Nat) : Word := rootFraction 2 (smallPrimes.getD (8 + i) 0)
  (List.range 4).map fun i => (v i, v (4 + i))

/-- SHA-384 of bytes, as 48 bytes: the message, a 1 bit, zeros and its length in bits, in blocks of 128 bytes. -/
def sha384 (bs : List Byte) : List Byte :=
  let n := (bs.length + 144) / 128
  let whole := bs ++ [0x80#8] ++ List.replicate (128 * n - bs.length - 17) 0 ++ (toBytes 16 (8 * bs.length)).reverse
  let c := (List.range n).foldl (fun c i => absorb c (wordsOf (whole.drop (128 * i)) 16)) firstChain
  ((c.map (·.1) ++ c.map (·.2)).take 6).flatMap fun w => (toBytes 8 w.toNat).reverse

end Sys2Proof.Machine
end

