-- ==== Sys2Proof/Machine/Traps.lean ====
section
/-! DEFINITION. Delivery of traps (R30, R311, R351, R352), the end of groups, teams and tasks (R142, R99), and kills (R321,
R369). -/

namespace Sys2Proof.Machine

/-! ## Delivery (R311, R352) -/

/-- The handler's address for a fault code, read at its home at level S; none where the entry counts as empty (R311). -/
def vectorEntry (s : State) (core slot : Nat) (g : Group) (code : Nat) : State × Option Word :=
  let base := g.trp.tvec &&& 0xFFFF_FFFF_F000#64
  if base == 0 then (s, none)
  else
    let r := readMem s { ctxOf s core slot g with level := .s } homePath 2 true (base + BitVec.ofNat 64 (16 * code)) 16
    let h := BitVec.ofNat 64 r.val
    if r.stall.isSome || r.fault.isSome || h == 0 || r.val / 2 ^ 64 != 0 || h.toNat % 4 != 0 || h >>> 48 != 0 then (r.s, none)
    else (r.s, some h)

/-- Whether a rollback or a kill stands before everything else of a group (R351). -/
def overruled (s : State) (g : Group) : Bool :=
  match s.teamOf g with
  | some t => t.roll.isSome || (s.task t.task).any fun k => k.kill.isSome
  | none => false

/-- Failure events of a group's task after its first. -/
def laterFailures (s : State) (g : Group) : Nat := (((s.teamOf g).bind fun t => s.task t.task).map (·.more)).getD 0

/-- What a group's fault leads to, unless a rollback or a kill stands before it; failures in the tick of the task's first one are
received all the same, to be ordered and counted (R321, R351). -/
def unlessOverruled (s : State) (g : Group) (s1 : State) : Option State :=
  if !overruled s g then some s1
  else if ((s.teamOf g).any fun t => t.roll.isNone && receiving s t.task) && laterFailures s g != laterFailures s1 g then some s1
  else none

/-- Delivery of a group's oldest fault. On a firmware core an empty entry, like a fault in the handler, resets the core
(R352; log 19). -/
def deliverTrap (s : State) (core slot : Nat) (g : Group) (f : FaultInfo) : State :=
  if isFirmware core then
    if (s.core core).handler || g.sca.level = .s then resetFirmware s core
    else
      match vectorEntry s core slot g f.code with
      | (s1, some h) =>
        let s2 := s1.setGroup core slot (g.unclaim.enterTrap f h)
        s2.setCore core { s2.core core with handler := true }
      | (s1, none) => resetFirmware s1 core
  else if g.sca.level ≠ .u then failGroup s core slot g f.code f.src f.elem f.pc f.addr 2 0
  else
    match vectorEntry s core slot g f.code with
    | (s1, some h) => s1.setGroup core slot (g.unclaim.enterTrap f h)
    | (s1, none) => failGroup s1 core slot g f.code f.src f.elem f.pc f.addr 1 0

/-- TRAP_DELIVERY (R352): the queues are quiet, and the group is not exiting. -/
def execTrapDelivery (core slot : Nat) (s : State) : Out :=
  groupEvent s core slot "TRAP_DELIVERY" fun g =>
    if g.sca.status = .exiting || !g.quiet then none
    else (oldestFault g.trp.pending).bind fun f => unlessOverruled s g (deliverTrap s core slot g f)

/-! ## The end of a group, a team, a cluster and a task (R99, R142, R293) -/

/-- A slot freed: its activity is charged, its storage goes (R99, R304). -/
def freeSlot (s : State) (core slot : Nat) : State :=
  let s1 := chargeSlot s core slot
  s1.setSlot core slot { s1.slot core slot with group := none, activity := [] }

/-- Whether a cluster of a task still runs or stands in the context pool. -/
def clusterThere (s : State) (task cluster : Nat) : Bool :=
  (s.teams.any fun e => e.2.any fun t => t.task == task && t.cluster == cluster)
    || s.saved.any fun v => v.task == task && v.cluster == cluster

/-- The teams of a cluster that stand on cores. -/
def teamsOf (s : State) (task cluster : Nat) : List (Nat × Team) :=
  s.teams.filterMap fun e => e.2.bind fun t => if t.task == task && t.cluster == cluster then some (e.1, t) else none

/-- The teams of a cluster end together, when none of them has a group left, so that a member's team region lasts as long
as another member can reach it (R209; log 36); the task ends with its last cluster. -/
def settleTeam (s : State) (n : Nat) : State :=
  match s.team n with
  | none => s
  | some u =>
    let ts := teamsOf s u.task u.cluster
    if ts.any fun e => !(teamGroups s e.1).isEmpty then s
    else
      let s1 := ts.foldl (fun a e => a.setTeam e.1 none) s
      if clusterThere s1 u.task u.cluster then s1
      else
        match s1.task u.task with
        | none => s1
        | some k =>
          let k1 := { k with live := FMap.set 0 k.live u.cluster 0, finished := k.finished + 1, due := true }
          if k.kill.isNone && k1.finished == k.descr.clusters then
            resultCommand (s1.setTask u.task none) k.queue k.jidx .done 0 0
          else s1.setTask u.task (some k1)

/-- A drained group ends; a later rollback of its team, which restores the groups that are there, does not bring it back. -/
def endGroup (s : State) (core slot : Nat) (g : Group) : State :=
  let s1 := freeSlot s core slot
  if g.idn.team == 0 then s1 else settleTeam s1 g.idn.team

/-- Everything of an exiting group has completed but the commit of a resilient team (R142 step 3). -/
def drained (g : Group) : Bool := g.que.vq.isEmpty && g.que.mq.isEmpty && g.que.cq.isEmpty && g.que.jobs.isEmpty

/-- A fault that the drain found, or a held one that it takes: END 3 with the original code beside it, or on a firmware core its
reset (R142, R289). -/
def failDrain (s : State) (core slot : Nat) (g : Group) (code src elem : Nat) (pc addr : Word) : State :=
  if isFirmware core then resetFirmware s core else failGroup s core slot g cAsync src elem pc addr 3 code

/-- Whether the shadow of a group's team has the group as it exits, with everything done: no rollback then brings back what
it did. A group of a team that is not resilient has no shadow. -/
def exitKept (s : State) (g : Group) : Bool :=
  match (s.teamOf g).bind (·.resilient) with
  | some r => r.shadow.any fun x => x.idn.gidx == g.idn.gidx && x.sca.status = .exiting
  | none => true

/-- Whether nothing of a group goes on in its drain but what a held fault bars: its queues are empty, or the next entry of its copy
queue is a list, and no other entry has begun but a convoy that waits for values of a port (R289). -/
def heldStops (g : Group) : Bool :=
  drained g
    || ((g.que.cq.find? fun e => !e.begun && e.done.isNone).any (·.op == .kick) && g.que.jobs.isEmpty
      && !(g.que.cq.any (·.begun)) && !(g.que.mq.any (·.begun)) && g.que.vq.all fun e => !e.begun || e.prog.short.isSome)

/-- GROUP_EXIT_DRAINED (R142): the drain ends, or a fault found in it fails the task. A group of a
resilient team asks for a checkpoint, which performs what the team holds for it, before it goes (R266). DEDUCED (log 26): a held fault of
a list or of a PPUB is recorded with SRC 3, as R289 says, also where the drain itself finds it, of which R142 says SRC 4; any other fault
that the drain finds is recorded with SRC 4. -/
def execGroupExitDrained (core slot : Nat) (s : State) : Out :=
  groupEvent s core slot "GROUP_EXIT_DRAINED" fun g =>
    if g.sca.status ≠ .exiting then none
    else
      match oldestFault g.trp.pending, g.trp.held with
      | some f, _ => if g.quiet then unlessOverruled s g (failDrain s core slot g f.code 4 f.elem f.pc f.addr) else none
      | none, some h => if heldStops g then unlessOverruled s g (failDrain s core slot g h.2 3 0 g.sca.pc h.1) else none
      | none, none =>
        if !drained g || overruled s g then none
        else if g.allDone && g.ord.counted.isEmpty && exitKept s g then some (endGroup s core slot g)
        else if (s.teamOf g).any (fun t => t.resilient.isSome && !t.cut) && g.ord.entries.all (commitReady s core slot g) then
          some (askOwnCut s g)
        else none

/-! ## Kills (R321, R369) -/

/-- The groups of a task with their slots. -/
def taskGroups (s : State) (task : Nat) : List (Nat × Nat × Group) :=
  s.liveGroups.filter fun e => (s.teamOf e.2.2).any fun t => t.task == task

/-- Writes of a group that were sent perform, but those that another team's checkpoint holds (R250, R369 step 2). -/
def landSent (s : State) (core slot : Nat) : State := landFlights s fun f => f.of s core slot

/-- The uncommitted data of a team discarded: held writes and dirty sectors (R363 step 2, R369 step 2). -/
def discardInterval (s : State) (team core : Nat) : State :=
  let s1 := { s with flights := s.flights.filter fun f => f.held != team || team == 0 }
  s1.setL1 core ((s1.core core).l1.filter fun x => x.dirty != team || team == 0)

/-- A slot's incarnation killed (R259). -/
def killEpoch (s : State) (core slot epoch : Nat) : State :=
  let sl := s.slot core slot
  let bit : BitVec 2048 := 1#2048 <<< epoch
  s.setSlot core slot { sl with killed := sl.killed ||| bit, away := sl.away &&& ~~~bit }

/-- The fault record (R321). -/
def faultRecord (r : FailRecord) (more : Nat) : List Byte :=
  let b (v : Nat) : Byte := BitVec.ofNat 8 v
  let body := toBytes 8 r.gid.toNat ++ toBytes 8 r.trpc.toNat ++ toBytes 8 r.taddr.toNat ++ toBytes 2 r.telem
    ++ [b r.code, b (r.src + 16 * r.plev), b r.orig, b r.ending, 0, 0] ++ toBytes 4 (min more (2 ^ 32 - 1)) ++ [0, 0, 0, 0]
    ++ toBytes 8 r.stamp ++ List.replicate 12 0
  body ++ toBytes 4 (crc32c body).toNat

/-- The record written under the queue's address space, with the TAG of the journal entry (R321). -/
def writeRecord (s : State) (k : Task) : State × Word :=
  match k.fail with
  | none => (s, 0)
  | some r =>
    if k.faultrec == 0 then (s, 0)
    else
      let ctx := trowelCtx (s.queue k.queue)
      let sps := spans s ctx .store k.faultrec 64
      match accessFault sps with
      | some _ => (s, 0)
      | none =>
        let s1 := touchSpans s ctx true sps
        let cells := ((spanKeys (spanRefs sps)).zip (faultRecord r k.more)).map fun p => (p.1, p.2, 0xFF#8)
        ((performUpdate s1 0 (.store cells)).1, k.faultrec)

/-- The progress words that a kill poisons: the completion word, and the one that pw names in each group (R369 step 4). -/
def poisonWords (s : State) (k : Task) (groups : List Group) : State :=
  let ctx := trowelCtx (s.queue k.queue)
  groups.foldl (fun a g =>
    markWord a { ctx with ptb := g.trp.ptb, asid := (g.trp.asid.truncate 12 : BitVec 12).toNat } (g.ord.pw &&& 0xFFFF_FFFF_FFF8#64)
      poisonedBit) (markWord s ctx k.cword poisonedBit)

/-- Collectives of a task that have begun are aborted: each writes its STATUS (R383). -/
def abortColls (s : State) (mine : CollRun → Bool) : State :=
  let s1 := (dedup ((s.fabric.runs.filter mine).map (·.comm))).foldl (fun a c => advanceAttempt a c (attemptOf a c + 1)) s
  { s1 with fabric := { s1.fabric with runs := s1.fabric.runs.filter fun r => !mine r } }

/-- The steps of a kill, in order (R369). -/
def killTask (s : State) (n : Nat) (k : Task) (why : Nat) : State :=
  let gs := taskGroups s n
  let images := s.saved.filter fun v => v.task == n
  let teams := s.teams.filterMap fun e => e.2.bind fun t => if t.task == n then some (e.1, t) else none
  -- steps 1 and 2
  let s1 := gs.foldl (fun a e => landSent a e.1 e.2.1) { s with saved := s.saved.filter fun v => v.task != n }
  let s2 := teams.foldl (fun a e => discardInterval a e.1 e.2.core) s1
  let s3 := abortColls s2 fun r => gs.any fun e => e.1 == r.core && e.2.1 == r.slot
  -- step 3
  let s4 := gs.foldl (fun a e => killEpoch a e.1 e.2.1 (a.slot e.1 e.2.1).epoch) (latchAllKnots s3)
  let s5 := (s4.aways.filter fun a => a.task == n).foldl (fun a w => killEpoch a w.core w.slot w.epoch) s4
  let s6 := { s5 with aways := s5.aways.filter fun a => a.task != n }
  -- step 4
  let s7 := poisonWords s6 k (gs.map (·.2.2) ++ images.flatMap (·.groups))
  -- steps 5 and 6
  let w := if why == 3 then writeRecord s7 k else (s7, 0)
  let s8 := resultCommand w.1 k.queue k.jidx (if why == 3 then .failed else .cancelled) why w.2
  -- step 7
  let s9 := gs.foldl (fun a e => freeSlot a e.1 e.2.1) s8
  (teams.foldl (fun a e => a.setTeam e.1 none) s9).setTask n none

/-- Whether a negotiation of a task's groups is under way that other teams' checkpoints will let end (R103). -/
def negotiating (s : State) (task : Nat) : Bool :=
  (taskGroups s task).any fun e => e.2.2.claiming && (dirtyClaimed s e.1).any fun n =>
    (s.team n).any fun t => t.task != task && !(s.task t.task).any (·.kill.isSome)

/-- TASK_KILL (R103, R369): the task is to be killed for that REASON, after a negotiation that is under way. -/
def execTaskKill (task why : Nat) (s : State) : Out :=
  if !s.powered then .fault .poweredOff
  else
    match s.task task with
    | some k => if k.kill = some why && !negotiating s task then .next (killTask s task k why) else noStep "TASK_KILL"
    | none => noStep "TASK_KILL"

end Sys2Proof.Machine
end

