-- ==== Sys2Proof/Machine/MailboxRequests.lean ====
section
/-! DEFINITION. What the Trowel's mailbox requests do (R219, R299, R385 to R390; log 29, log 38). -/

namespace Sys2Proof.Machine

/-- Doubleword i of the request. -/
def State.req (s : State) (i : Nat) : Word := FMap.get 0 s.trowel.mail.req i

/-- A field of a doubleword of the request. -/
def State.reqPart (s : State) (i lo len : Nat) : Nat := (s.req i).toNat / 2 ^ lo % 2 ^ len

/-- Results of MBSTAT (R385). -/
def mbDone : Nat := 0
def mbInvalid : Nat := 1
def mbRefused : Nat := 2
def mbSignature : Nat := 3

/-- The request has acted, with its result. -/
def endRequest (s : State) (result : Nat) : State :=
  { s with trowel := { s.trowel with mail := { s.trowel.mail with acted := true, result := result } } }

/-- The step of a request of a kind. An unowned device serves only kinds 6 and 9 (R389). -/
def mailEvent (s : State) (kind : Nat) (name : String) (f : State) : Out :=
  if !s.powered then .fault .poweredOff
  else
    let m := s.trowel.mail
    if !m.busy || m.acted || s.reqPart 0 0 8 != kind then noStep name
    else if !s.trowel.owner.owned && kind != 6 && kind != 9 then .next (endRequest s mbRefused)
    else .next f

/-- Host memory at an address of a request. -/
def requestBytes (s : State) (addr : Word) (n : Nat) : List Byte := memBytes s.mem (hostKey addr.toNat) n

/-- Whether an address is a host physical address. -/
def hostAddress (addr : Word) : Bool := addr >>> 52 == 0

/-! ## KIND 1, queue settings (R386) -/

def queueSettings (s : State) : State :=
  let q := s.reqPart 0 8 12
  let pri := s.reqPart 0 20 1 == 1
  let share := s.reqPart 0 21 1 == 1
  let budget := s.reqPart 0 22 1 == 1
  let n := s.reqPart 1 8 5
  if !queueExists s q || (share && (n == 0 || decide (16 < n))) then endRequest s mbInvalid
  else
    let c := s.queue q
    endRequest (s.setQueue q
      { c with
        priority := if pri then s.reqPart 1 0 4 else c.priority
        share := if share then n else c.share
        budget := if budget then s.reqPart 1 32 32 else c.budget }.deschedule) mbDone

/-- QUEUE_SETTINGS (R386). -/
def execQueueSettings (s : State) : Out := mailEvent s 1 "QUEUE_SETTINGS" (queueSettings s)

/-! ## KIND 2, translation invalidation (R219) -/

/-- Cores of a partition's columns. -/
def partCores (s : State) (part : Nat) : List Nat := (List.range mapCores).filter fun c => partHas s part (coreCol c)

/-- Whether a TLB entry falls under the request. -/
def invalidates (s : State) (e : TlbEntry) : Bool :=
  let start := (s.req 1).toNat
  let len := (s.req 2).toNat
  e.asid == s.reqPart 0 20 12 && (len == 0 || (decide (e.base < start + len) && decide (start < e.base + e.size)))

/-- Every entry under the request removed. -/
def invalidateTlbs (s : State) : State :=
  (partCores s (s.reqPart 0 8 3)).foldl (fun a c =>
    if (a.core c).tlb.any (invalidates s) then a.setCore c { a.core c with tlb := (a.core c).tlb.filter fun e => !invalidates s e } else a) s

/-- Whether elements of a group of the request's asid may still be under way with a translation. -/
def translatedLeft (s : State) : Bool :=
  let cores := partCores s (s.reqPart 0 8 3)
  s.liveGroups.any fun e =>
    cores.contains e.1 && (e.2.2.trp.asid.truncate 12 : BitVec 12).toNat == s.reqPart 0 20 12
      && (!e.2.2.que.jobs.isEmpty || s.flights.any fun f => f.of s e.1 e.2.1 && !f.performed)

def startInvalidation (s : State) : State :=
  if (s.req 1).toNat % 49152 != 0 || (s.req 2).toNat % 49152 != 0 then endRequest s mbInvalid else endRequest (invalidateTlbs s) mbDone

/-- TRANSLATION_INVALIDATION (R219). -/
def execTranslationInvalidation (s : State) : Out := mailEvent s 2 "TRANSLATION_INVALIDATION" (startInvalidation s)

/-- INVALIDATION_ACK (R219): elements under way have performed, and no entry remains, one walked anew meanwhile included. -/
def execInvalidationAck (s : State) : Out :=
  if !s.powered then .fault .poweredOff
  else
    let m := s.trowel.mail
    if !m.busy || !m.acted || m.acked || s.reqPart 0 0 8 != 2 || m.result != mbDone || translatedLeft s then noStep "INVALIDATION_ACK"
    else
      let s1 := invalidateTlbs s
      .next { s1 with trowel := { s1.trowel with mail := { s1.trowel.mail with acked := true } } }

/-! ## KIND 3, partition reset (R299) -/

/-- A task stopped by a reset: its groups stop, its epochs are killed, its slots and images go (R299, R369 steps 1 to 3). -/
def stopTask (s : State) (n : Nat) : State :=
  let gs := taskGroups s n
  let teams := s.teams.filterMap fun e => e.2.bind fun t => if t.task == n then some (e.1, t) else none
  let s1 := gs.foldl (fun a e => landSent a e.1 e.2.1) { s with saved := s.saved.filter fun v => v.task != n }
  let s2 := teams.foldl (fun a e => discardInterval a e.1 e.2.core) s1
  let s3 := abortColls s2 fun r => gs.any fun e => e.1 == r.core && e.2.1 == r.slot
  let s4 := gs.foldl (fun a e => killEpoch a e.1 e.2.1 (a.slot e.1 e.2.1).epoch) s3
  let s5 := (s4.aways.filter fun a => a.task == n).foldl (fun a w => killEpoch a w.core w.slot w.epoch) s4
  let s6 := gs.foldl (fun a e => freeSlot a e.1 e.2.1) { s5 with aways := s5.aways.filter fun a => a.task != n }
  (teams.foldl (fun a e => a.setTeam e.1 none) s6).setTask n none

/-- A queue's commands abandoned in the journal, their completion words poisoned (R294, R299). -/
def abandonQueue (s : State) (q : Nat) : State :=
  (s.queue q).commands.foldl (fun a c =>
    let a1 := if c.kind == 1 then markWord a (trowelCtx (a.queue q)) (c.dw 3) poisonedBit else a
    journalCommand a1 q c .abandoned 8 0) s

/-- A queue after the reset of its partition: disabled, without a descriptor; QSEQ stands, and the commands it had are final other
than DONE (R292, R294, R299; log 37). -/
def CmdQueue.afterReset (c : CmdQueue) : CmdQueue :=
  { CmdQueue.empty with qseq := c.qseq, failedSeqs := c.failedSeqs ++ c.commands.map (·.seq) }

/-- The queues and tasks of a partition reset; last[p] is 4,095 again (R300). -/
def resetPartition (s : State) (part : Nat) : State :=
  let qs := s.queues.filterMap fun e => if e.2.part == part then some e.1 else none
  let tasks := s.tasks.filterMap fun e => match e.2 with
    | some k => if qs.contains k.queue then some e.1 else none
    | none => none
  let s1 := tasks.foldl stopTask s
  let s2 := qs.foldl abandonQueue s1
  let s3 := qs.foldl (fun a q => a.setQueue q (a.queue q).afterReset) s2
  { s3 with trowel := { s3.trowel with last := s3.trowel.last.filter fun l => l.1 / 16 != part } }

/-- PARTITION_RESET (R299, R374): the message follows the state it reports. -/
def execPartitionReset (s : State) : Out :=
  let part := s.reqPart 0 8 3
  mailEvent s 3 "PARTITION_RESET" (sendMsg (endRequest (resetPartition s part) mbDone) 4 0 (BitVec.ofNat 64 part))

/-! ## KIND 4, module power limit (R390) -/

def setPowerLimit (s : State) : State :=
  let w := (s.req 1).toNat
  if decide (1800 ≤ w) && decide (w ≤ 3000) then endRequest { s with powerLimit := w } mbDone else endRequest s mbInvalid

/-- MODULE_POWER_LIMIT (R390). -/
def execModulePowerLimit (s : State) : Out := mailEvent s 4 "MODULE_POWER_LIMIT" (setPowerLimit s)

/-! ## KIND 5, firmware update (R387) -/

/-- Whether a pair of signatures over a digest verifies: an RSA one and an SLH-DSA one, each under its key (R387). -/
def pairVerifies (digest : List Byte) : List (List Byte × List Byte) → Bool
  | [rsa, slh] => Config.rsaVerifies rsa.1 digest rsa.2 && Config.slhVerifies slh.1 digest slh.2
  | _ => false

/-- The digests of a pair's keys. -/
def keyDigests (pair : List (List Byte × List Byte)) : List (List Byte) := pair.map fun k => sha384 k.1

/-- Whether the device accepts a firmware image: its digest, the maker's pair under the fused keys, the owner's pair under the keys in the
owner's slots, and its version (R387); an unowned device accepts one that carries the maker's pair alone (R389). -/
def Owner.accepts (o : Owner) (image : List Byte) : Bool :=
  let digest := sha384 (Config.imageBody image)
  let maker := Config.imageMaker image
  Config.imageDigest image == digest && pairVerifies digest maker && keyDigests maker == Config.makerDigests
    && (match Config.imageOwner image with
      | some p => o.owned && pairVerifies digest p && keyDigests p == o.keys
      | none => !o.owned)
    && decide (Config.fusedCounter ≤ Config.imageVersion image)

def updateFirmware (s : State) : State :=
  let o := s.trowel.owner
  let image := requestBytes s (s.req 1) (s.req 2).toNat
  if !hostAddress (s.req 1) || !hostAddress (s.req 2) then endRequest s mbInvalid
  else if o.accepts image then
    endRequest { s with trowel := { s.trowel with owner := { o with staged := some image } } } mbDone
  else endRequest s mbSignature

/-- FIRMWARE_UPDATE (R387). -/
def execFirmwareUpdate (s : State) : Out := mailEvent s 5 "FIRMWARE_UPDATE" (updateFirmware s)

/-! ## KIND 6, attestation (R388) -/

def measurements (s : State) : List (BitVec 384) := (List.range 8).map fun i => FMap.get 0 s.trowel.ms i

/-- An attestation report over a nonce, with both signatures (R388). -/
def attestationReport (s : State) (nonce : List Byte) : List Byte :=
  let o := s.trowel.owner
  let body := Config.reportBody s.trowel.osid Config.serialNumber o.secver o.owned o.keys (measurements s) nonce
  body ++ Config.identityRsa body ++ Config.identitySlh body

def attest (s : State) : State :=
  if !hostAddress (s.req 1) || !hostAddress (s.req 2) then endRequest s mbInvalid
  else endRequest (writeBytes s (hostKey (s.req 2).toNat) (attestationReport s (requestBytes s (s.req 1) 32))) mbDone

/-- ATTESTATION (R388). -/
def execAttestation (s : State) : Out := mailEvent s 6 "ATTESTATION" (attest s)

/-! ## KIND 7, measurement extend (R388) -/

/-- A measurement register's 48 bytes, lowest first. -/
def measurementBytes (s : State) (j : Nat) : List Byte := toBytes 48 (FMap.get 0 s.trowel.ms j).toNat

/-- A measurement register extended by a digest (R388). -/
def extendBy (s : State) (j : Nat) (d : List Byte) : State :=
  let v := BitVec.ofNat 384 (leBytes (sha384 (measurementBytes s j ++ d)))
  { s with trowel := { s.trowel with ms := FMap.set 0 s.trowel.ms j v } }

/-- What the stages of the boot extend, where they have not since the device reset: ms0, ms1, and ms2 by the digest of the owner key
digests and the fused configuration (R388; log 29). -/
def measureBoot (s : State) : State :=
  if (List.range 3).all fun j => FMap.get 0 s.trowel.ms j == 0 then
    extendBy (extendBy (extendBy s 0 Config.stageOneDigest) 1 Config.runtimeDigest) 2
      (sha384 (s.trowel.owner.keys.flatten ++ Config.fusedConfiguration))
  else s

def extendMeasurement (s : State) : State :=
  let j := s.reqPart 0 8 3
  if decide (j < 3) || !hostAddress (s.req 1) then endRequest s mbInvalid
  else endRequest (extendBy s j (requestBytes s (s.req 1) 48)) mbDone

/-- MEASUREMENT_EXTEND (R388). -/
def execMeasurementExtend (s : State) : Out := mailEvent s 7 "MEASUREMENT_EXTEND" (extendMeasurement s)

/-! ## KIND 8 and 9, ownership (R389) -/

/-- HBM4 and installed DDR-5 zeroed, the core map in it too (R389). -/
def zeroMemory (s : State) : State :=
  { s with
    mem := memWrite (s.mem.filter fun c => !installed c.1 1) (cellsAt Config.cmapBase (List.replicate (8 * mapCores) 0))
    chk := s.chk.filter fun e => !installed (48 * e.1) 1
    bad := s.bad.filter fun e => !installed (48 * e.1) 1 }

/-- Every queue disabled. -/
def disableQueues (s : State) : State := s.queues.foldl (fun a e => a.setQueue e.1 { a.queue e.1 with enable := false, pendingBit := false }) s

/-- Whether an owner's record of a release holds the part's serial and the release counter, and the owner has signed it (R389). -/
def Owner.releasedBy (o : Owner) (record : List Byte) : Bool :=
  let pair := Config.recordPair record
  Config.recordSerial record == Config.serialNumber && Config.recordCounter record == o.releases
    && pairVerifies (sha384 (Config.recordBody record)) pair && keyDigests pair == o.keys

def releaseOwner (s : State) : State :=
  let o := s.trowel.owner
  if !hostAddress (s.req 1) then endRequest s mbInvalid
  else if o.releasedBy (requestBytes s (s.req 1) Config.recordLength) then
    let s1 := zeroMemory (disableQueues s)
    endRequest { s1 with trowel := { s1.trowel with owner := { o with owned := false, keys := [], releases := o.releases + 1 } } } mbDone
  else endRequest s mbSignature

/-- OWNERSHIP_RELEASE (R389). -/
def execOwnershipRelease (s : State) : Out := mailEvent s 8 "OWNERSHIP_RELEASE" (releaseOwner s)

def enrolOwner (s : State) : State :=
  let o := s.trowel.owner
  if o.owned then endRequest s mbRefused
  else if !hostAddress (s.req 1) then endRequest s mbInvalid
  else
    let record := requestBytes s (s.req 1) Config.recordLength
    let pair := Config.recordPair record
    if pairVerifies (sha384 (Config.recordBody record)) pair then
      endRequest { s with trowel := { s.trowel with owner := { o with enrolled := some (keyDigests pair) } } } mbDone
    else endRequest s mbSignature

/-- ENROLMENT (R389). -/
def execEnrolment (s : State) : Out := mailEvent s 9 "ENROLMENT" (enrolOwner s)

/-! ## MAILBOX_REQUEST_COMPLETE (R374, R385) -/

/-- Whether a request may complete: it has acted, an invalidation has been acknowledged, or its kind is out of range. -/
def requestOver (s : State) : Option Nat :=
  let m := s.trowel.mail
  let kind := s.reqPart 0 0 8
  if !m.busy then none
  else if kind == 0 || decide (9 < kind) then some mbInvalid
  else if m.acted && (kind != 2 || m.result != mbDone || m.acked) then some m.result
  else none

/-- MAILBOX_REQUEST_COMPLETE (R385). -/
def execMailboxRequestComplete (s : State) : Out :=
  if !s.powered then .fault .poweredOff
  else
    match requestOver s with
    | none => noStep "MAILBOX_REQUEST_COMPLETE"
    | some r =>
      let m := { s.trowel.mail with busy := false, result := r, acted := false, acked := false }
      let stat : Word := BitVec.ofNat 64 (m.result % 256 * 2 ^ 8 + m.number % 2 ^ 32 * 2 ^ 32)
      .next (sendMsg { s with trowel := { s.trowel with mail := m } } 2 0 stat)

end Sys2Proof.Machine
end

