-- ==== Sys2Proof/Machine/Matrix.lean ====
section
/-! DEFINITION. The scalar pipeline's part of the matrix-queue instructions: each is pushed with the grant, vl and vector type
in force (R16, R19, R48, R75, R268, R384). What the matrix unit then does is in MatrixUnit.lean. -/

namespace Sys2Proof.Machine

/-- A matrix-queue entry captured at push (R16). -/
def matrixEntry (g : Group) (serial : Nat) (i : Instr) (x y : Word) : MEntry :=
  { serial := serial, pc := g.sca.pc, instr := i, x := x, y := y, vl := g.vec.vl, vt := g.vec.vt, gm := g.gra.gm,
    gn := g.gra.gn, gk := g.gra.gk, gf := g.gra.gf, begun := false, done := none }

/-- The push of a matrix word that reads x registers `x` and `y`; `counted` when it is counted in mc (R75, R200). -/
def pushMatrix (s : State) (i : Instr) (x y : Nat) (counted : Bool) : Out :=
  withMatrix s (wordOf i) fun _ =>
    pushOne s [x, y] (fun g => if 16 ≤ g.que.mq.length then some (.queue .matrix) else if counted && 65535 ≤ g.count 1 then some (.counter 1) else none) (fun _ => 0)
      fun g serial =>
        let e := matrixEntry g serial i (g.x x) (g.x y)
        let g1 := { g with que := { g.que with mq := g.que.mq ++ [e] } }
        if counted then g1.countUp 1 serial else g1

/-- TLDA (R194). -/
def execTlda (n : BitVec 6) (x : BitVec 5) (s : State) : Out := pushMatrix s (.tlda n x) x.toNat 0 false

/-- TMMA, adding into the tile (R195). -/
def execTmma (n : BitVec 6) (x : BitVec 5) (t : BitVec 2) (r : BitVec 1) (s : State) : Out :=
  pushMatrix s (.tmma n x t r) x.toNat 0 false

/-- TMMA, overwriting the tile (R195). -/
def execTmmaOvr (n : BitVec 6) (x : BitVec 5) (t : BitVec 2) (r : BitVec 1) (s : State) : Out :=
  pushMatrix s (.tmmaOvr n x t r) x.toNat 0 false

/-- TZERO (R197). -/
def execTzero (t : BitVec 2) (s : State) : Out := pushMatrix s (.tzero t) 0 0 false

/-- TLDACC (R197). -/
def execTldacc (t : BitVec 2) (a b : BitVec 5) (s : State) : Out := pushMatrix s (.tldacc t a b) a.toNat b.toNat false

/-- TSTACC (R197), counted in mc. -/
def execTstacc (t : BitVec 2) (a b : BitVec 5) (f : BitVec 4) (s : State) : Out :=
  pushMatrix s (.tstacc t a b f) a.toNat b.toNat true

/-- TSAVE (R198), counted in mc. -/
def execTsave (t : BitVec 2) (a : BitVec 5) (s : State) : Out := pushMatrix s (.tsave t a) a.toNat 0 true

/-- TRESTORE (R199). -/
def execTrestore (t : BitVec 2) (a : BitVec 5) (s : State) : Out := pushMatrix s (.trestore t a) a.toNat 0 false

/-- TTOV (R197). -/
def execTtov (t : BitVec 2) (n : BitVec 6) (s : State) : Out := pushMatrix s (.ttov t n) 0 0 false

/-- TFROMV (R197). -/
def execTfromv (t : BitVec 2) (n : BitVec 6) (s : State) : Out := pushMatrix s (.tfromv t n) 0 0 false

/-- TREL (R196). -/
def execTrel (s : State) : Out := pushMatrix s .trel 0 0 false

end Sys2Proof.Machine
end

