-- ==== Sys2Proof/Machine/Perform.lean ====
section
/-! DEFINITION. What performs after the instruction that sent it: write elements and their acknowledgements, the host's
completions, store-sequence entries, the progress-word updates of notifying stores and PPUBs (R224, R238, R251 to R255, R262,
R339, R372). -/

namespace Sys2Proof.Machine

/-! ## Writes under way (R251 to R254, R372) -/

/-- Whether a flight may perform: it is not held, no team's checkpoint stands before it, and no older write of its path to
one of its bytes, or in a deterministic group none at all of its convoys, is still under way (R28, R253, R266). -/
def mayPerform (s : State) (older : List Flight) (f : Flight) : Bool :=
  f.held == 0 && !f.performed && (blockedBy s f).isNone
    && !(older.any fun o =>
      o.held == 0 && !o.performed && samePath o f && (inOrder s f || sharesKey (updateKeys o.upd) (updateKeys f.upd)))

/-- The flights before, at and after a place. -/
def splitFlights (s : State) (i : Nat) : Option (List Flight × Flight × List Flight) :=
  match s.flights.drop i with
  | f :: rest => some (s.flights.take i, f, rest)
  | [] => none

/-- A flight performs at its home, with what it reports; one whose bytes its core's L1 may take stays until it is acknowledged
(R224). -/
def performFlight (s : State) (before after : List Flight) (f : Flight) : State :=
  let r := performReported s f
  if f.l1 && (updateSectors f.upd).any (fun x => ((s.core f.core).l1.any fun y => y.sector == x && y.dirty == 0)) then
    { r with flights := before ++ { f with performed := true } :: after }
  else acknowledge { r with flights := before ++ after } f

/-- Enabled flights of one kind: those that the host completes, or the others. -/
def performAt (s : State) (i : Nat) (host : Bool) : Option State :=
  match splitFlights s i with
  | some (before, f, after) =>
    if f.host == host && mayPerform s before f then some (performFlight s before after f) else none
  | none => none

/-- ELEMENT_PERFORM (R251). -/
def execElementPerform (im : Nat) (s : State) : Out :=
  if !s.powered then .fault .poweredOff
  else
    match performAt s im false with
    | some s1 => .next s1
    | none => noStep "ELEMENT_PERFORM"

/-- HOST_COMPLETION (R372): an access to a tier 2 page performs at the host when its completion arrives. -/
def execHostCompletion (im : Nat) (s : State) : Out :=
  if !s.powered then .fault .poweredOff
  else
    match performAt s im true with
    | some s1 => .next s1
    | none => noStep "HOST_COMPLETION"

/-- L1_STORE_UPDATE (R224): acknowledgements of one core for one sector come in the order of the writes. -/
def acknowledgeAt (s : State) (i : Nat) : Option State :=
  match splitFlights s i with
  | some (before, f, after) =>
    if f.performed && !(before.any fun o => o.performed && o.core == f.core && sharesKey (updateSectors o.upd) (updateSectors f.upd))
    then some (acknowledge { s with flights := before ++ after } f) else none
  | none => none

def execL1StoreUpdate (im : Nat) (s : State) : Out :=
  if !s.powered then .fault .poweredOff
  else
    match acknowledgeAt s im with
    | some s1 => .next s1
    | none => noStep "L1_STORE_UPDATE"

/-! ## Store-sequence entries (R75, R247, R255) -/

/-- The entries and counts of a group that are complete. -/
def settleEntries (s : State) (core slot : Nat) (g : Group) : Group :=
  settleEngine s core slot ((g.latchKnots s).prefixDone (entryDone s core slot false g))

/-- ENTRY_COMPLETE (R255): wdone advances over the completed prefix, and the counts whose writes have performed go down. A
poisoned input of a knot fails the knot's task with END 5 instead (R247). -/
def execEntryComplete (core slot : Nat) (s : State) : Out :=
  groupEvent s core slot "ENTRY_COMPLETE" fun g =>
    if knotPoisoned s g && (match s.teamOf g with
        | some t => (s.task t.task).any (·.kill.isNone) || (g.sca.status != .stopped && receiving s t.task)
        | none => false) then
      some (failGroup s core slot g cWitPoisoned 0 0 g.sca.pc 0 5 0)
    else
      let g1 := settleEntries s core slot g
      if g1 == g then none else some (settleAways (s.setGroup core slot g1) core slot)

/-! ## Progress-word updates (R238, R262, R339) -/

/-- The executed vector head whose notify update is due, with the update's entry. -/
def dueNotify (s : State) (core slot : Nat) (g : Group) : Option (VEntry × Word × Nat) :=
  match g.que.vq with
  | e :: _ =>
    if e.notify && e.done.isSome && olderDone s core slot g (e.seq + 1) then
      (g.ord.entries.filterMap fun x => match x.kind with
        | .notify pw vl => if x.seq == e.seq + 1 && !x.complete then some (e, pw, vl) else none
        | _ => none).head?
    else none
  | [] => none

/-- The convoy of a notifying store whose update faults: it stays at the head with vst = vl (R238). -/
def failNotify (g : Group) (e : VEntry) (vl : Nat) : Group :=
  let g1 := match e.done with
    | some d => g.fold d.flags
    | none => g
  { g1 with
    que := { g1.que with vq := g1.que.vq.map fun x => if x.serial == e.serial then { x with begun := false, done := none } else x }
    vec := { g1.vec with vst := vl } }

/-- The notify update of a group: performed, or its fault; one whose page cannot be held asks for its team's checkpoint and
performs inside it (R238, R267). -/
def performNotify (s : State) (core slot : Nat) (g : Group) (d : VEntry × Word × Nat) : Option State :=
  let (e, pw, vl) := d
  let addr := pw &&& 0xFFFF_FFFF_FFF8#64
  let go (s : State) (inside : Bool) : State × ProgressEnd := updateProgress s core slot g 1 (e.seq + 1) e.serial addr true vl inside
  let fail (s : State) (c : Nat) (a : Word) : State :=
    match s.group? core slot with
    | some g => recordFault s core slot (failNotify g e vl) { serial := e.serial, code := c, src := 1, pc := e.pc, addr := a, elem := vl }
    | none => s
  match go s false with
  | (s1, .done) => some (s1.modGroup core slot fun g => g.markDone (e.seq + 1))
  | (s1, .fault c a) => some (fail s1 c a)
  | (_, .cut) =>
    if (ctxOf s core slot g).inside s then
      match go (publish s g.idn.team) true with
      | (s2, .done) => some (s2.modGroup core slot fun g => g.markDone (e.seq + 1))
      | (s2, .fault c a) => some (fail s2 c a)
      | (_, .cut) => none
    else if (s.teamOf g).any fun t => !t.cut then some (askOwnCut s g)
    else none

/-- NOTIFY_UPDATE (R238). -/
def execNotifyUpdate (core slot : Nat) (s : State) : Out :=
  groupEvent s core slot "NOTIFY_UPDATE" fun g => (dueNotify s core slot g).bind (performNotify s core slot g)

/-- PPUB_UPDATE (R339): one that cannot be held waits for its team's checkpoint and asks for it. -/
def execPpubUpdate (core slot : Nat) (s : State) : Out :=
  groupEvent s core slot "PPUB_UPDATE" fun g =>
    (duePpub s core slot g).bind fun d =>
      match performPpub s core slot g d false with
      | some s1 => some s1
      | none => if (s.teamOf g).any fun t => !t.cut then some (askOwnCut s g) else none

end Sys2Proof.Machine
end

