-- ==== Sys2Proof/Machine/Power.lean ====
section
/-! DEFINITION. Power, alarms and temperature (R390 to R392). -/

namespace Sys2Proof.Machine

/-- A step of the power rules: the module has power. -/
def powerEvent (s : State) (name : String) (f : Option State) : Out :=
  if !s.powered then .fault .poweredOff
  else
    match f with
    | some s1 => .next s1
    | none => noStep name

/-- Both dies' cap levels moved by one step up, to at most 12 (R390). -/
def raiseCaps (s : State) : State :=
  [0, 1].foldl (fun a d => a.setDie d { a.die d with level := min 12 ((a.die d).level + 1) }) s

/-- Both dies' cap levels moved by one step down, but that of a die held at 12 (R390, R392). -/
def lowerCaps (s : State) : State :=
  [0, 1].foldl (fun a d => if (a.die d).hold then a else a.setDie d { a.die d with level := (a.die d).level - 1 }) s

/-- What a sample of the module's power does (R390): the count of consecutive samples below 95 % stands at ten until one is not. -/
def samplePower (s : State) (watts : Nat) : State :=
  let below := decide (watts * 100 < s.powerLimit * 95)
  let n := if below then min 10 (s.belowCount + 1) else 0
  let s1 := { s with belowCount := n, trowel := { s.trowel with lastSample := s.refTicks / 1000 * 1000 } }
  if s.powerLimit < watts then raiseCaps s1 else if n == 10 then lowerCaps s1 else s1

/-- POWER_SAMPLE (R390): every 1,000 reference ticks. -/
def execPowerSample (watts : Nat) (s : State) : Out :=
  powerEvent s "POWER_SAMPLE" (if s.trowel.lastSample + 1000 ≤ s.refTicks then some (samplePower s watts) else none)

/-- THERMAL_CAP (R392). -/
def execThermalCap (die : Nat) (s : State) : Out :=
  powerEvent s "THERMAL_CAP" (if die < 2 then some (s.setDie die { s.die die with level := 12, hold := true }) else none)

/-- THERMAL_RELEASE (R392): the level follows R390 again, from 12. -/
def execThermalRelease (die : Nat) (s : State) : Out :=
  powerEvent s "THERMAL_RELEASE"
    (if decide (die < 2) && (s.die die).hold then some (s.setDie die { s.die die with hold := false }) else none)

/-- THERMAL_TRIP (R392): the module loses its power. -/
def execThermalTrip (s : State) : Out := powerEvent s "THERMAL_TRIP" (some { s with powered := false })

/-- SUPPLY_DROOP (R391): the die is narrowed for 1 ms. -/
def execSupplyDroop (die : Nat) (s : State) : Out :=
  powerEvent s "SUPPLY_DROOP" (if die < 2 then some (s.setDie die { s.die die with droopEnd := some (s.now + 1250000) }) else none)

/-- ALARM_EXPIRY (R391): the narrowing after a droop ends. -/
def execAlarmExpiry (die : Nat) (s : State) : Out :=
  powerEvent s "ALARM_EXPIRY"
    (if decide (die < 2) && (match (s.die die).droopEnd with | some t => decide (t ≤ s.now) | none => false) then
      some (s.setDie die { s.die die with droopEnd := none }) else none)

/-- MEMORY_TRAINED (R391): the narrowing from reset ends on both dies. -/
def execMemoryTrained (s : State) : Out :=
  powerEvent s "MEMORY_TRAINED"
    (if (s.die 0).untrained || (s.die 1).untrained then
      some ([0, 1].foldl (fun a d => a.setDie d { a.die d with untrained := false }) s) else none)

end Sys2Proof.Machine
end

