-- ==== Sys2Proof/Machine/Waits.lean ====
section
/-! DEFINITION. The ends of a scalar stream's waits (R18, R19, R100, R140, R141, R191, R242, R245, R263, R333, R344, R345), and
page walks made ahead of an access (R213). -/

namespace Sys2Proof.Machine

/-- A wait tried again: the state that its instruction's own function gives; a wait that no event of its own kind ends stays
as it is. -/
def retryWait (s : State) (core slot : Nat) (g : Group) (w : Wait) (inside : Bool) : State :=
  match w with
  | .load d addr size signed wit => performLoad s core slot g d addr size signed wit
  | .atomic d addr size fn arg arg2 w => performAtomic s core slot g d addr size fn arg arg2 w true inside
  | .store addr size v w => performStore s core slot g addr size v w inside
  | .witness w settles => performWitness s core slot g w settles
  | .gate d n keep => passGate s core slot g d n.toNat keep
  | .pwait addr v => performPwait s core slot g addr v
  | .waitc cls n => performWaitc s core slot g cls n
  | .bwait addr phase => performBwait s core slot g addr phase
  | .binit addr v => performBinit s core slot g addr v
  | .bexpect addr v => performBexpect s core slot g addr v
  | .arrive addr c => performArrive s core slot g addr c
  | .vlmax d n req gated keep =>
    if g.que.vq.isEmpty && g.que.mq.isEmpty then performSetvl s core slot g d n req gated keep else s
  | .claim d n v gated keep => settleSetvl core slot d n gated keep (finishGrowth s core slot g.run v)
  -- its operands passed their checks before it waited, so no fault names its word
  | .settile d a b => if g.que.mq.isEmpty then performSettile s core slot g 0 d a b else s
  | .drain _ | .push _ | .waite _ _ | .mtcr _ _ | .fencei => s

/-- Whether a try has ended the wait or changed what is waited for, or has newly asked some team for a checkpoint or a
rollback. -/
def triedWell (s s1 : State) (core slot : Nat) : Bool :=
  (s1.group? core slot).map (·.sca.status) != (s.group? core slot).map (·.sca.status)
  || s1.teams.any fun e => match e.2 with
    | some t => (t.cut && !((s.team e.1).any (·.cut))) || (t.roll.isSome && !((s.team e.1).any (·.roll.isSome)))
    | none => false

/-- The end of a wait of one of the kinds that an event serves: none where the wait is not over. -/
def tryWait (s : State) (core slot : Nat) (g : Group) (kind : Wait → Bool) : Option State :=
  match g.sca.status with
  | .waiting w =>
    if kind w then
      let s1 := retryWait s core slot g w false
      if triedWell s s1 core slot then some s1 else none
    else none
  | _ => none

/-! ## Drains and pushes (R18, R19, R143, R331) -/

/-- Whether a drain is over: nothing drains to what a trap has frozen (R420). -/
def drainOver (s : State) (core slot : Nat) (g : Group) : Drain → Bool
  | .regs rs => !(rs.any g.tagged)
  | .mask m => g.trp.frozen || !maskQueued s core slot g m
  | .masks => g.trp.frozen || (List.range 12).all fun m => !maskQueued s core slot g m
  | .flags => g.trp.frozen || (g.que.vq.isEmpty && g.que.mq.isEmpty)
  | .vst => g.trp.frozen || g.que.vq.isEmpty

/-- Whether there is room for what a push waits for (R19, R268, R331). -/
def roomFor (s : State) (g : Group) : Room → Bool
  | .queue .vector => decide (g.que.vq.length < 32)
  | .queue .matrix => decide (g.que.mq.length < 16)
  | .queue .copy => decide (g.que.cq.length < 16)
  | .counter cls => decide (g.count cls < 65535)
  | .commit => match s.teamOf g with
    | some t => !t.cut
    | none => true

/-- DRAIN_END (R18): the instruction executes again; so does a FENCEI whose stores are done (R143). -/
def execDrainEnd (core slot : Nat) (s : State) : Out :=
  groupEvent s core slot "DRAIN_END" fun g =>
    match g.sca.status with
    | .waiting (.drain d) => if drainOver s core slot g d then some (s.setGroup core slot g.run) else none
    | .waiting .fencei => if g.allDone then some (s.setGroup core slot g.run) else none
    | _ => none

/-- PUSH_RESUME (R19, R331): the instruction executes again. -/
def execPushResume (core slot : Nat) (s : State) : Out :=
  groupEvent s core slot "PUSH_RESUME" fun g =>
    match g.sca.status with
    | .waiting (.push r) => if roomFor s g r then some (s.setGroup core slot g.run) else none
    | _ => none

/-! ## Waits that an access, a counter or an object ends -/

/-- LOAD_DATA_RETURN (R242, R243): also the old value of a returning atomic. -/
def execLoadDataReturn (core slot : Nat) (s : State) : Out :=
  groupEvent s core slot "LOAD_DATA_RETURN" fun g =>
    tryWait s core slot g fun w => match w with
      | .load _ _ _ _ _ | .atomic _ _ _ _ _ _ _ => true
      | _ => false

/-- WITNESS_WAIT_END (R245, R246): a scalar load whose witness is resolved makes its access in the same step. -/
def execWitnessWaitEnd (core slot : Nat) (s : State) : Out :=
  groupEvent s core slot "WITNESS_WAIT_END" fun g =>
    tryWait s core slot g fun w => match w with
      | .witness _ _ => true
      | .load _ _ _ _ wit => witKind wit != 0
      | _ => false

/-- GATE_PASS (R263): a gated SETVL or a PWAIT. -/
def execGatePass (core slot : Nat) (s : State) : Out :=
  groupEvent s core slot "GATE_PASS" fun g =>
    tryWait s core slot g fun w => match w with
      | .gate _ _ _ | .pwait _ _ => true
      | _ => false

/-- WAITC_END (R333). -/
def execWaitcEnd (core slot : Nat) (s : State) : Out :=
  groupEvent s core slot "WAITC_END" fun g =>
    tryWait s core slot g fun w => match w with
      | .waitc _ _ => true
      | _ => false

/-- BWAIT_RETURN (R344). -/
def execBwaitReturn (core slot : Nat) (s : State) : Out :=
  groupEvent s core slot "BWAIT_RETURN" fun g =>
    tryWait s core slot g fun w => match w with
      | .bwait _ _ => true
      | _ => false

/-- ARRIVE_ACTION (R345): after its stalls; BEXPECT's stall (R344) and a BINIT held for another team's checkpoint end in the
same way. -/
def execArriveAction (core slot : Nat) (s : State) : Out :=
  groupEvent s core slot "ARRIVE_ACTION" fun g =>
    tryWait s core slot g fun w => match w with
      | .arrive _ _ | .bexpect _ _ | .binit _ _ => true
      | _ => false

/-- VLMAX_NEGOTIATION (R100, R103): the vector and matrix queues are empty; a growth that waited for checkpoints goes on. A gated
SETVL then waits at its gate with its new vlmax (R145). -/
def execVlmaxNegotiation (core slot : Nat) (s : State) : Out :=
  groupEvent s core slot "VLMAX_NEGOTIATION" fun g =>
    tryWait s core slot g fun w => match w with
      | .vlmax _ _ _ _ _ | .claim _ _ _ _ _ => true
      | _ => false

/-- SETTILE_STORAGE_CLAIM (R191): the matrix queue is empty. -/
def execSettileStorageClaim (core slot : Nat) (s : State) : Out :=
  groupEvent s core slot "SETTILE_STORAGE_CLAIM" fun g =>
    tryWait s core slot g fun w => match w with
      | .settile _ _ _ => true
      | _ => false

/-! ## Limits in cycles (R140, R141) -/

/-- WAITE_TIMEOUT (R140). -/
def execWaiteTimeout (core slot : Nat) (s : State) : Out :=
  groupEvent s core slot "WAITE_TIMEOUT" fun g =>
    match g.sca.status with
    | .waiting (.waite sel (some t)) => if t ≤ s.cyc core then some (s.setGroup core slot (g.waiteDone sel)) else none
    | _ => none

/-- YIELD_EXPIRY (R141). -/
def execYieldExpiry (core slot : Nat) (s : State) : Out :=
  groupEvent s core slot "YIELD_EXPIRY" fun g =>
    if g.sca.yieldUntil != 0 && decide (g.sca.yieldUntil ≤ s.cyc core) then
      some (s.setGroup core slot { g with sca := { g.sca with yieldUntil := 0 } })
    else none

/-! ## Page walks (R213 to R218) -/

/-- PAGE_WALK: a walk for an access of a group fills the TLB and sets AF, and DF for a write; a walk that fails fills nothing,
and the access that needs it faults in its own step (R213, R217; log 9). -/
def execPageWalk (core slot : Nat) (va : BitVec 64) (acc : Access) (s : State) : Out :=
  groupEvent s core slot "PAGE_WALK" fun g =>
    let ctx := ctxOf s core slot g
    if va.extractLsb' 48 16 != 0 then none
    else
      match walkTop s ctx va.toNat with
      | none => some s
      | some e => some (if pageAllows acc ctx.level e.leaf then touchEntry s ctx (accWrites acc) e else s)

end Sys2Proof.Machine
end

