-- ==== Sys2Proof/Machine/Resilient.lean ====
section
/-! DEFINITION. Resilient teams: checkpoints and rollbacks (R266, R267, R357 to R363; log 34). -/

namespace Sys2Proof.Machine

/-! ## Inside operations (R359, R361 step 4) -/

/-- Whether a key lies in the region of a team. -/
def inRegion (s : State) (n key : Nat) : Bool :=
  match regionTeam s key with
  | some (m, _) => m == n
  | none => false

/-- Writes of other teams that waited for the checkpoint of team n perform. -/
def landForeign (s : State) (n : Nat) : State :=
  landFlights s fun f => f.team != n && ((updateKeys f.upd).head?.any (inRegion s n))

/-- Whether a wait may be one for a checkpoint. -/
def Wait.waitsCut : Wait → Bool
  | .atomic _ _ _ _ _ _ _ | .store _ _ _ _ | .binit _ _ | .bexpect _ _ | .arrive _ _ => true
  | _ => false

/-- A group's scalar operation that waited for the checkpoint of team n performs inside it. -/
def insideScalar (n : Nat) (s : State) (e : Nat × Nat × Group) : State :=
  match s.group? e.1 e.2.1 with
  | some g =>
    match g.sca.status with
    | .waiting w =>
      if w.waitsCut then
        let s1 := retryWait s e.1 e.2.1 g w (g.idn.team == n)
        if triedWell s s1 e.1 e.2.1 then s1 else s
      else s
    | _ => s
  | none => s

/-- A begun vector or matrix head of another team goes on where the checkpoint was what it waited for. -/
def insideHeads (n : Nat) (s : State) (e : Nat × Nat × Group) : State :=
  if e.2.2.idn.team == n then s
  else
    let s1 := match s.group? e.1 e.2.1 with
      | some g => if (g.que.vq.take 1).any (·.begun) then (bindVector s e.1 e.2.1 g).getD s else s
      | none => s
    match s1.group? e.1 e.2.1 with
    | some g => if (g.que.mq.take 1).any (·.begun) then (bindMatrix s1 e.1 e.2.1 g).getD s1 else s1
    | none => s1

/-- A copy of another team goes on while its next piece lies in the region of team n. -/
def insideJobs (n core slot : Nat) : Nat → State → State
  | 0, s => s
  | fuel + 1, s =>
    match (s.group? core slot).bind fun g =>
        if g.idn.team == n then none
        else
          ((g.readyJobs s core slot false).find? fun j => (j.pieces.head?.map pieceDst).any fun ks => ks.any (inRegion s n)).bind fun j =>
            stepJob s core slot g j with
    | some s1 => insideJobs n core slot fuel s1
    | none => s

/-- Pieces that a group's copies still have to perform. -/
def Group.pieceCount (g : Group) : Nat := g.que.jobs.foldl (fun a j => a + j.pieces.length) 0

/-! ## The cut, and what runs inside (R361 steps 1 and 4) -/

/-- Writes of a group that are under way, that nothing holds. -/
def sentMove (s : State) (core slot : Nat) : Option State :=
  if s.flights.any fun f => f.of s core slot && f.held == 0 && (blockedBy s f).isNone then some (landSent s core slot) else none

/-- The PPUB update of a group that is due; inside a checkpoint it performs after the interval before it is published. -/
def ppubMove (s : State) (core slot : Nat) (g : Group) : Option State :=
  (duePpub s core slot g).bind fun d =>
    if (s.teamOf g).any (·.inside) then performPpub (publish s g.idn.team) core slot g d true else performPpub s core slot g d false

/-- The first of several moves that can be made. -/
def firstMove : List (Unit → Option State) → Option State
  | [] => none
  | f :: fs => (f ()).orElse fun _ => firstMove fs

/-- One move of a group's queues and of what they have begun; none where nothing of it can move now. -/
def groupMove (s : State) (e : Nat × Nat × Group) : Option State :=
  let c := e.1
  let k := e.2.1
  let g := e.2.2
  firstMove [fun _ => retireVector s c k g, fun _ => retireMatrix s c k g, fun _ => retireCopy s c k g, fun _ => sentMove s c k,
    fun _ => bindVector s c k g, fun _ => bindMatrix s c k g, fun _ => bindCopy s c k g,
    fun _ => (g.readyJobs s c k false).findSome? (stepJob s c k g), fun _ => g.bound.bind (beginBound s c k g),
    fun _ => (dueNotify s c k g).bind (performNotify s c k g), fun _ => ppubMove s c k g]

/-- One move of a team. -/
def teamMove (s : State) (n : Nat) : Option State := (teamGroups s n).findSome? (groupMove s)

/-- Moves of teams until none is left. -/
def driveTeams (ns : List Nat) : Nat → State → State
  | 0, s => s
  | fuel + 1, s =>
    match ns.findSome? (teamMove s) with
    | some s1 => driveTeams ns fuel s1
    | none => s

/-- A bound on such moves. -/
def driveFuel : Nat := 2 ^ 26

/-- Whether the cut of a team is complete: no fault is undelivered, and nothing of its queues can move but inside the
checkpoint. -/
def cutDone (s : State) (n : Nat) : Bool :=
  (teamGroups s n).all (fun e => e.2.2.trp.pending.isEmpty) && (teamMove s n).isNone

/-- Every operation that performs between the commit and the shadow copy of teams: foreign writes into their regions, what their
queues still hold, their groups' own waiting instructions, and those of other teams. -/
def insideAll (s : State) (ns : List Nat) : State :=
  let s1 := driveTeams ns driveFuel (ns.foldl landForeign s)
  let s2 := ns.foldl publish s1
  let s3 := ns.foldl (fun a n => a.liveGroups.foldl (insideScalar n) a) s2
  let s4 := ns.foldl (fun a n => a.liveGroups.foldl (insideHeads n) a) s3
  let s5 := ns.foldl (fun a n => a.liveGroups.foldl (fun a e => insideJobs n e.1 e.2.1 e.2.2.pieceCount a) a) s4
  ns.foldl publish (driveTeams ns driveFuel (finishColls s5))

/-! ## CHECKPOINT (R361) -/

/-- The completed entries and counts of a team's groups. -/
def settleTeamCounts (s : State) (n : Nat) : State :=
  (teamGroups s n).foldl (fun a e => a.modGroup e.1 e.2.1 fun g => settleEngine a e.1 e.2.1 g) (commitEntries s n)

/-- The shadow copied, the log emptied, the failure count 0 (R361 step 5). -/
def takeShadow (s : State) (n : Nat) : State :=
  match s.team n with
  | some t =>
    let gs := teamGroups s n
    let s1 := s.setTeam n (some { t with
      cut := false, inside := false
      resilient := t.resilient.map fun r => { r with shadow := gs.map (·.2.2), undo := [], failed := false } })
    match t.resilient with
    | some r => writeShadow s1 r gs
    | none => s1
  | none => s

/-- A failed verification: a dirty sector's check value or mark (R361 step 2). -/
def verifyRecord (s : State) (n : Nat) : FailRecord :=
  let f : FaultInfo := { serial := 0, code := cCheck, src := 0, pc := 0, addr := 0, elem := 0 }
  match teamGroups s n with
  | (c, k, g) :: _ => failRecord s c k g { f with pc := g.sca.pc } 4 0
  | [] => { gid := 0, trpc := 0, taddr := 0, telem := 0, code := cCheck, src := 0, plev := 0, orig := 0, ending := 4, stamp := s.refTicks }

/-- A change of a team. -/
def modTeam (f : Team → Team) (s : State) (n : Nat) : State :=
  match s.team n with
  | some t => s.setTeam n (some (f t))
  | none => s

/-- The failure that stands in the way of a team's checkpoint: an error consumed inside it, or a failed verification. -/
def cutFailure (s : State) (n : Nat) : Option FailRecord :=
  match (s.team n).bind (·.roll) with
  | some r => some r
  | none => if verified s n then none else some (verifyRecord s n)

/-- Whether nothing of a team's queues, entries and counts is left. -/
def teamDone (s : State) (n : Nat) : Bool :=
  (teamGroups s n).all fun e => drained e.2.2 && e.2.2.trp.pending.isEmpty && e.2.2.allDone && e.2.2.ord.counted.isEmpty

/-- The interval of a team stands published though its shadow cannot be taken yet: what fails before it is cannot be undone
(log 34). -/
def leaveInside : State → Nat → State := modTeam fun t =>
  { t with inside := false, resilient := t.resilient.map fun r => { r with failed := true } }

/-- The steps of a checkpoint of teams after their cut, as one: verified, published, the inside operations, the shadow. A
failure asks for a rollback and nothing of the step has happened. Where a fault has arisen inside, or a collective has begun there
that waits for its peers, the interval stays published and the shadow follows later. Else it is none while something of a team still
waits (R361). -/
def performCheckpoint (s : State) (ns : List Nat) : Option State :=
  match ns.find? fun n => (cutFailure s n).isSome with
  | some n => some (askRoll s n ((cutFailure s n).getD (verifyRecord s n)))
  | none =>
    let s1 := insideAll (ns.foldl (modTeam fun t => { t with inside := true }) (ns.foldl publish s)) ns
    match ns.find? fun n => (cutFailure s1 n).isSome with
    | some n => some (askRoll s n ((cutFailure s1 n).getD (verifyRecord s n)))
    | none =>
      let s2 := ns.foldl settleTeamCounts s1
      if ns.all (teamDone s2) then some (ns.foldl takeShadow s2)
      else if s.fabric.runs.length < s2.fabric.runs.length
          || ns.any fun n => (teamGroups s2 n).any fun e => !e.2.2.trp.pending.isEmpty then some (ns.foldl leaveInside s2)
      else none

/-- Whether a team may take its checkpoint: it is due, its cut is complete, and no rollback or kill stands before it. -/
def mayCut (s : State) (n : Nat) : Bool :=
  match s.team n with
  | some t => t.cut && t.resilient.isSome && t.roll.isNone && !((s.task t.task).any (·.kill.isSome)) && cutDone s n
  | none => false

/-- The teams of a cluster that may take a checkpoint. -/
def cutTeams (s : State) (n : Nat) : List Nat :=
  match s.team n with
  | some t => ((teamsOf s t.task t.cluster).map (·.1)).filter (mayCut s)
  | none => []

/-- A team's checkpoint; teams that wait for each other's take theirs together (log 34). -/
def takeCheckpoint (s : State) (n : Nat) : Option State :=
  (performCheckpoint s [n]).orElse fun _ =>
    let ns := cutTeams s n
    if 1 < ns.length then performCheckpoint s ns else none

/-- CHECKPOINT (R361). -/
def execCheckpoint (team : Nat) (s : State) : Out :=
  if !s.powered then .fault .poweredOff
  else
    match if mayCut s team then takeCheckpoint s team else none with
    | some s1 => .next s1
    | none => noStep "CHECKPOINT"

/-! ## ROLLBACK (R363) -/

/-- A group as the shadow has it, in a new incarnation (R259, R363 steps 4 and 5). -/
def restoreGroup (shadow : List Group) (s : State) (e : Nat × Nat × Group) : State :=
  match shadow.find? fun g => g.idn.gidx == e.2.2.idn.gidx with
  | none => s
  | some g =>
    let sl := s.slot e.1 e.2.1
    let ep := nextEpoch sl.away 2047 sl.epoch
    let ord := { g.ord with wseq := 1, wdone := 0, entries := [], counted := [], floor := [] }
    s.setSlot e.1 e.2.1
      { sl with epoch := ep, killed := sl.killed &&& ~~~(1#2048 <<< ep), group := some { g with ord := ord } }

/-- Bytes of the shadow in the checkpoint area. -/
def Resilient.shadowSize (r : Resilient) : Nat := r.shadow.foldl (fun a g => a + 512 + (sectionsImage g).length) 0

/-- Whether reading the shadow or the undo log back from the checkpoint area meets an error (R363). -/
def areaSpoiled (s : State) (r : Resilient) : Bool :=
  let meets (lo size x : Nat) : Bool := decide (lo < 48 * x + 48) && decide (48 * x < lo + size)
  let read (x : Nat) : Bool := meets r.area r.shadowSize x || meets (r.undoAt 0) (52 * r.undo.length) x
  s.bad.any (fun e => e.2 && read e.1) || s.chk.any fun e => e.2 != 0 && read e.1

/-- The groups that the shadow in the checkpoint area holds, with the storage that they had; none where it holds none (R358, R363
step 4; log 34). -/
def readShadow (s : State) (r : Resilient) : Option (List Group) :=
  (readGroups (memBytes s.mem r.area r.shadowSize) r.shadow 0).map fun p =>
    (p.1.zip r.shadow).map fun q => { q.1.2.2 with sto := q.2.sto }

/-- The region restored from the undo log, newest entry first, with check values; what a mark says of a sector stands beside the log
(R363 step 3). -/
def restoreRegion (s : State) (r : Resilient) : State :=
  r.undo.zipIdx.foldl (fun a u =>
    let at_ := r.undoAt (r.undo.length - 1 - u.2)
    let old := memBytes s.mem at_ 48
    writeSector a u.1.1 (BitVec.ofNat 384 (leBytes old)) (BitVec.ofNat 32 (memNat s.mem (at_ + 48) 4) ^^^ crc32c old) u.1.2) s

/-- The steps of a rollback. -/
def performRollback (s : State) (n : Nat) (t : Team) (r : Resilient) (shadow : List Group) : State :=
  let gs := teamGroups s n
  let s1 := gs.foldl (fun a e => landSent a e.1 e.2.1) s
  let gone (f : Flight) : Bool := f.team == n && !f.performed
  let s2 := discardInterval { s1 with flights := s1.flights.filter fun f => !gone f } n t.core
  let s3 := { s2 with fabric := { s2.fabric with
    runs := s2.fabric.runs.filter fun x => !(gs.any fun e => e.1 == x.core && e.2.1 == x.slot) } }
  -- what was sent to the region has been logged as it landed
  let s4 := restoreRegion s3 (((s1.team n).bind (·.resilient)).getD r)
  let s5 := gs.foldl (restoreGroup shadow) s4
  s5.setTeam n (some { t with roll := none, cut := false, resilient := some { r with undo := [], failed := true } })

/-- ROLLBACK (R363): a second failure in one interval, or an error in the shadow or the undo log, kills the task with END 4. -/
def execRollback (team : Nat) (s : State) : Out :=
  if !s.powered then .fault .poweredOff
  else
    match s.team team with
    | some t =>
      match t.roll, t.resilient with
      | some why, some r =>
        let fatal := recordFailure (s.setTeam team (some { t with roll := none })) t.task { why with ending := 4 } 3
        if (s.task t.task).any (·.kill.isSome) && !receiving s t.task then noStep "ROLLBACK"
        else if r.failed || areaSpoiled s r then .next fatal
        else if (s.task t.task).any (·.kill.isSome) then noStep "ROLLBACK"
        else
          match readShadow s r with
          | some shadow => .next (performRollback s team t r shadow)
          | none => .next fatal
      | _, _ => noStep "ROLLBACK"
    | none => noStep "ROLLBACK"

end Sys2Proof.Machine
end

