-- ==== Sys2Proof/Machine/Preempt.lean ====
section
/-! DEFINITION. Pre-emption and resume of clusters (R204, R250, R259, R269, R302, R322, R327, R354 to R357, R383; log 28). -/

namespace Sys2Proof.Machine

/-! ## What a pre-emption lets finish (R250, R269) -/

/-- One move of what has begun: a collective aborted, a request stepped or begun, an entry retired; none where nothing of
it can move. -/
def drainMove (s : State) (core slot : Nat) : Option State :=
  match s.group? core slot with
  | none => none
  | some g =>
    match s.fabric.runs.find? fun r => r.core == core && r.slot == slot with
    | some r => some (advanceAttempt s r.comm (attemptOf s r.comm + 1))
    | none =>
      ((g.readyJobs s core slot true).findSome? (stepJob s core slot g)).orElse fun _ =>
        ((g.bound.bind (beginBound s core slot g)).orElse fun _ =>
          ((retireCopy s core slot g).orElse fun _ =>
            ((retireMatrix s core slot g).orElse fun _ => retireVector s core slot g)))

/-- Moves until none is left. -/
def drainMoves (core slot : Nat) : Nat → State → State
  | 0, s => s
  | fuel + 1, s =>
    match drainMove s core slot with
    | some s1 => drainMoves core slot fuel s1
    | none => s

/-- A bound on the moves of one group. -/
def drainFuel : Nat := 2 ^ 26

/-- A begun vector head as it is saved: queued, with vst; one that has executed and waits for its notify update resumes past
its elements (R238, R269). -/
def queueHead (g : Group) : Group :=
  match g.que.vq with
  | e :: rest =>
    if e.done.isSome then failNotify g e e.vl
    else if e.begun then { g with que := { g.que with vq := { e with begun := false } :: rest } }
    else g
  | [] => g

/-- A convoy that the unit is carrying out stops at a beat boundary, which one is free; one that has not begun may also stay so
(R250, R354). -/
def stopBeat (s : State) (core slot : Nat) : State :=
  match (s.group? core slot).bind fun g => (vectorHead s core slot g).map fun h => (g, h) with
  | some (g, e, rest) =>
    let lanes := if g.protected_ then coreLanes core / 2 else coreLanes core
    let n := Config.schedule (s.tick + 11) % (e.vl / lanes + 1)
    executeBeats s core slot g e rest ((g.vec.vst / lanes + n) * lanes)
  | none => s

/-- A group brought to the state that its image holds (R355 steps 2 to 4); none where a fault, another team's checkpoint or a
running entry stands in the way. -/
def stopGroup (s : State) (core slot : Nat) : Option State :=
  let s0 := stopBeat (landSent s core slot) core slot
  let s1 := landSent (flushHead (drainMoves core slot drainFuel s0) core slot) core slot
  match s1.group? core slot with
  | none => none
  | some g =>
    let busy := s1.flights.any fun f => f.of s1 core slot && f.held == 0
    if busy || !g.trp.pending.isEmpty || !g.que.jobs.isEmpty || g.que.cq.any (·.begun) || g.que.mq.any (·.begun) then none
    else some (settleAways (s1.setGroup core slot (settleEntries s1 core slot (queueHead g).endWaite)) core slot)

/-- Every group of a team stopped. -/
def stopGroups : List (Nat × Nat × Group) → State → Option State
  | [], s => some s
  | e :: es, s => (stopGroup s e.1 e.2.1).bind (stopGroups es)

/-! ## Saving a team (R259, R322, R355 step 5) -/

/-- The away record of a saved group whose entries are not all complete; older ones learn its wdone. -/
def leaveAway (t : Team) (s : State) (e : Nat × Nat × Group) : State :=
  let g := e.2.2
  let same (a : Away) : Bool := a.task == t.task && a.cluster == t.cluster && a.cidx == t.cidx && a.gidx == g.idn.gidx
  let s1 := { s with aways := s.aways.map fun a => if same a then { a with wdone := g.ord.wdone } else a }
  if g.ord.wdone + 1 < g.ord.wseq then
    let sl := s1.slot e.1 e.2.1
    let a : Away := { core := e.1, slot := e.2.1, epoch := sl.epoch, last := g.ord.wseq - 1, task := t.task, cluster := t.cluster,
                      cidx := t.cidx, gidx := g.idn.gidx, wdone := g.ord.wdone }
    { s1.setSlot e.1 e.2.1 { sl with away := sl.away ||| (1#2048 <<< sl.epoch) } with aways := s1.aways ++ [a] }
  else s1

/-- One stopped team saved: image, slots, storage; none where the pool has no room for it. -/
def saveTeam (s : State) (n : Nat) (t : Team) (k : Task) : Option State :=
  let gs := teamGroups s n
  let img := teamImage s t k gs
  match poolRoom s img.length with
  | none => none
  | some addr =>
    let lo := padKey t.core t.region / 48
    let w := t.cores.foldl (fun a c => if coreRow c == coreRow t.core then a + 1 else a) 0
    let v : SavedTeam :=
      { task := t.task, cluster := t.cluster, cidx := t.cidx, addr := addr, size := img.length, klass := coreClass t.core, width := w,
        height := t.cores.length / max 1 w, groups := gs.map (·.2.2)
        marks := (List.range (t.size / 48)).filter fun i => poisoned s (lo + i) }
    let s1 := gs.foldl (leaveAway t) (writeBytes s addr img)
    let s2 := gs.foldl (fun a e => freeSlot a e.1 e.2.1) s1
    some { s2.setTeam n none with saved := s2.saved ++ [v] }

/-- A resilient team's checkpoint before its save; none where its cut is not complete or it cannot be taken now. -/
def cutTeam (s : State) (n : Nat) (t : Team) : Option State :=
  if t.resilient.isNone then some s
  else if t.cut && cutDone s n then (takeCheckpoint s n).bind fun s1 => if (s1.team n).any (fun u => u.roll.isNone && !u.cut) then some s1 else none
  else none

/-- The teams of a cluster stopped and saved, one after the other. -/
def saveTeams (k : Task) : List (Nat × Team) → State → Option State
  | [], s => some s
  | (n, t) :: ts, s =>
    (cutTeam s n t).bind fun s1 => (stopGroups (teamGroups s1 n) s1).bind fun s2 => (saveTeam s2 n t k).bind (saveTeams k ts)

/-! ## PREEMPTION (R354, R355) -/

/-- Whether each group of a cluster is at a boundary: no fault, delivery, rollback, checkpoint step or negotiation is under way
(R103, R354). -/
def atBoundary (s : State) (ts : List (Nat × Team)) : Bool :=
  ts.all fun e => e.2.roll.isNone && !e.2.inside && (teamGroups s e.1).all fun g =>
    g.2.2.trp.pending.isEmpty && g.2.2.sca.status ≠ .stopped && !g.2.2.claiming

/-- PREEMPTION (R354, R355): the whole cluster, or a request for the checkpoints that come first; one that is asked for where it cannot
take effect waits for the next boundary. -/
def execPreemption (task cluster : Nat) (s : State) : Out :=
  if !s.powered then .fault .poweredOff
  else
    let ts := teamsOf s task cluster
    match s.task task with
    | none => noStep "PREEMPTION"
    | some k =>
      let ask := if preemptWanted s task cluster then noStep "PREEMPTION"
        else .next (s.setTask task (some { k with asked := cluster :: k.asked }))
      if ts.isEmpty || k.kill.isSome then noStep "PREEMPTION"
      else if !atBoundary s ts then ask
      else if ts.any fun e => e.2.resilient.isSome && !e.2.cut then
        let s1 := ts.foldl (fun a e => if e.2.resilient.isSome then askCut a e.1 else a) s
        .next (if preemptWanted s task cluster then s1 else modTask s1 task fun k => { k with asked := cluster :: k.asked })
      else
        match saveTeams k ts s with
        | some s1 =>
          .next (s1.setTask task
            (some { k with live := FMap.set 0 k.live cluster 0, due := true, asked := k.asked.filter (· != cluster) }))
        | none => ask

/-! ## RESUME (R204, R302, R327, R356) -/

/-- A saved team with its image's bytes and the groups read from it. -/
structure Loaded where
  saved : SavedTeam
  bytes : List Byte
  groups : List Group

/-- The saved teams of a cluster read back; none where an image is unusable. -/
def loadTeams (s : State) : List SavedTeam → Option (List Loaded)
  | [] => some []
  | v :: vs =>
    let bs := memBytes s.mem v.addr v.size
    match readTeam bs v.size v.groups, loadTeams s vs with
    | some gs, some ls => some ({ saved := v, bytes := bs, groups := gs } :: ls)
    | _, _ => none

/-- What a resuming team asks of its core (R301). -/
def resumeDemand (task : Nat) (d : Descr) (ls : List Loaded) (cidx : Nat) : Demand :=
  match ls.find? fun l => l.saved.cidx == cidx with
  | none => { task := task, groups := 0, units := 0, region := 0, prot := d.prot, areas := none, grants := [] }
  | some l =>
    { task := task, groups := l.groups.length
      units := l.groups.foldl (fun a g => a + sliceUnits g.idn.alloc g.vec.vlmax g.protected_) 0
      region := imgNat l.bytes 16 4, prot := d.prot, areas := d.areas
      grants := l.groups.map fun g => (grantOf g.gra.gm, grantOf g.gra.gn, grantOf g.gra.gk, g.gra.gf) }

/-- The saved region written back, with its check values and marks (R209, R227). -/
def restorePad (s : State) (core off size : Nat) (bs : List Byte) (marks : List Nat) : State :=
  (List.range (size / 48)).foldl (fun a i =>
    let data := imgPart bs (64 + 48 * i) 48
    let delta := BitVec.ofNat 32 (imgNat bs (64 + size + 4 * i) 4) ^^^ crc32c data
    writeSector a (padKey core off / 48 + i) (BitVec.ofNat 384 (leBytes data)) delta (marks.contains i)) s

/-- One group placed in its new slot, its tiles in the store or in a reservation (R204, R259, R327). -/
def resumeGroup (n core pri : Nat) (s : State) (p : Group × Nat × Option (Nat × Nat)) : State :=
  let g := p.1
  let sto := claimUnits s core g.sto (sliceUnits g.idn.alloc g.vec.vlmax g.protected_)
  let gf := if p.2.2.isSome then g.gra.gf ||| 0x800#12 else g.gra.gf &&& 0x7FF#12
  let need := if grantOf g.gra.gm == 0 || p.2.2.isSome then 0
    else accNeed (coreClass core) (grantOf g.gra.gm) (grantOf g.gra.gn) (gfAcc g.gra.gf)
  s.enterSlot core p.2.1
    { g with
      gra := { g.gra with gf := gf }
      idn := { g.idn with team := n, gpri := pri }
      sto := { sto with accUnits := need, honoured := p.2.2 } }

/-- One team resumed on a core; the teams in whose way dirty sectors stand are returned beside. -/
def resumeTeam (s : State) (task : Nat) (k : Task) (cores : List Nat) (l : Loaded) : Option (State × List Nat) :=
  let d := k.descr
  let core := cores.getD l.saved.cidx 0
  let dm := resumeDemand task d [l] l.saved.cidx
  let resilient := d.attr.getLsbD 1
  match padPlan s core dm, if resilient then poolRoom s (areaBytes core d) else some 0 with
  | some plan, some ar =>
    let slots := (freeSlots s core).take l.groups.length
    let n := s.nextTeam
    let t : Team :=
      { task := task, cluster := l.saved.cluster, cidx := l.saved.cidx, core := core, slots := slots, region := plan.1, size := dm.region,
        frame := imgNat l.bytes 20 4, groups := d.groups, cores := cores
        resilient := if resilient then some { shadow := [], undo := [], failed := false, area := ar, areaSize := areaBytes core d } else none
        cut := false, roll := none, inside := false }
    let s1 := { restorePad s core plan.1 dm.region l.bytes l.saved.marks with nextTeam := n + 1 }.setTeam n (some t)
    let s2 := (l.groups.zip (slots.zip plan.2)).foldl (resumeGroup n core (s.queue k.queue).priority) s1
    let s3 := dropClaimed s2 core
    some (firstShadow s3 n t, dirtyClaimed s2 core)
  | _, _ => none

/-- The teams of a cluster resumed in one step. -/
def resumeTeams (task : Nat) (k : Task) (cores : List Nat) : List Loaded → State × List Nat → Option (State × List Nat)
  | [], a => some a
  | l :: ls, a =>
    match resumeTeam a.1 task k cores l with
    | some r => resumeTeams task k cores ls (r.1, a.2 ++ r.2)
    | none => none

/-- The failure of a task whose image is unusable: END 6, CODE 0 (R327). -/
def imageFailure (s : State) (v : SavedTeam) : FailRecord :=
  { gid := (v.groups.head?.map fun g => gidImage 0 0 g.idn).getD 0, trpc := 0, taddr := 0, telem := 0, code := 0, src := 0, plev := 0,
    orig := 0, ending := 6, stamp := s.refTicks }

/-- RESUME of a saved cluster (R302, R327, R356). -/
def execResume (task cluster : Nat) (s : State) : Out :=
  if !s.powered then .fault .poweredOff
  else
    let vs := s.saved.filter fun v => v.task == task && v.cluster == cluster
    match s.task task, vs with
    | some k, v :: _ =>
      if !mayPlace s k (s.queue k.queue).priority then noStep "RESUME"
      else
        match loadTeams s vs with
        | none => .next (recordFailure s task (imageFailure s v) 3)
        | some ls =>
          let d := k.descr
          let classes := if d.klass == 2 && d.attr.getLsbD 3 then [v.klass, 1 - v.klass] else [v.klass]
          let s0 := { s with saved := s.saved.filter fun x => !(x.task == task && x.cluster == cluster) }
          match searchRect s0 (s.queue k.queue).part v.width v.height classes
              (fun i core => coreFits s0 core (resumeDemand task d ls i)) with
          | none => if k.claim.isEmpty then noStep "RESUME" else .next (claimCores s task [])
          | some cores =>
            if !s.trowel.weeder.isEmpty && k.claim != cores then .next (claimCores s task cores) else
            match resumeTeams task k cores ls (s0, []) with
            | some (s1, []) => .next (s1.setTask task (some { k with live := FMap.set 0 k.live cluster (s.now + 1), claim := [] }))
            | some (_, ts) =>
              if ts.all fun t => (s.team t).any (·.cut) then noStep "RESUME" else .next (ts.foldl askCut s)
            | none => noStep "RESUME"
    | _, _ => noStep "RESUME"

end Sys2Proof.Machine
end

