-- ==== Sys2Proof/Machine/Reset.lean ====
section
/-! DEFINITION. Device reset (R79, R259, R299, R307, R332, R388 to R392; log 38). -/

namespace Sys2Proof.Machine

/-- Every command that is not final abandoned in the journal (R294, R299). -/
def abandonAll (s : State) : State := s.queues.foldl (fun a e => abandonQueue a e.1) s

/-- Memory as a reset leaves it: the core map as it was made; after a loss of power what the device itself stored is gone. -/
def keptMemory (s : State) : State :=
  let isMap (k : Nat) : Bool := decide (Config.cmapBase ≤ k) && decide (k < Config.cmapBase + 8 * mapCores)
  let gone (k : Nat) : Bool := isMap k || (!s.powered && decide (k < hostKey 0))
  { s with
    mem := s.mem.filter fun c => !gone c.1
    chk := s.chk.filter fun e => !gone (48 * e.1)
    bad := s.bad.filter fun e => !gone (48 * e.1) }

/-- Ownership after a reset: an enrolled owner owns, and a staged image runs where the boot ROM accepts it (R387, R389). -/
def Owner.afterReset (o : Owner) : Owner :=
  let o1 := { o with owned := o.owned || o.enrolled.isSome, keys := o.enrolled.getD o.keys, enrolled := none, staged := none }
  { o1 with secver := ((o.staged.filter o1.accepts).map Config.imageVersion).getD o.secver }

/-- The device reset: the state of `State.reset`, with memory, ownership and what has been sent outside kept. -/
def resetDevice (s : State) : State :=
  let s1 := keptMemory (abandonAll s)
  let r := { State.reset with
    pace := s.pace, tick := s.tick, mem := s1.mem, chk := s1.chk, bad := s1.bad, msgs := s1.msgs, replies := s1.replies
    trowel := { Trowel.empty with owner := s.trowel.owner.afterReset, tripped := !s.powered }
    fabric := { Fabric.empty with tokens := s1.fabric.tokens } }
  if s.powered then r else sendMsg r 4 0 0xFFFF

/-- DEVICE_RESET (R259, R299, R392): also what brings power back. -/
def execDeviceReset (s : State) : Out := .next (resetDevice s)

end Sys2Proof.Machine
end

