-- ==== Sys2Proof/Machine/ScalarFloat.lean ====
section
/-! DEFINITION. Scalar floating point, OPF (R130 to R134), under the vector type in force. -/

namespace Sys2Proof.Machine

/-- Formats of the precision codes (R45). -/
def precision (p : BitVec 2) : Fmt :=
  match p.toNat with
  | 0 => .f32
  | 1 => .f64
  | 2 => .f16
  | _ => .bf16

/-- An operand of a precision: the low bits of its register, read as `extend` reads them (R130). -/
def Group.operand (g : Group) (f : Fmt) (r : BitVec 5) : Val :=
  readFloat (envOf g.vec.vt) f ((g.x r.toNat).toNat % 2 ^ f.width)

/-- The stored bits of an operand. -/
def Group.operandBits (g : Group) (f : Fmt) (r : BitVec 5) : Nat := (g.x r.toNat).toNat % 2 ^ f.width

/-- Delivery of an exact value: rounded once, the flags of the operation and of the rounding together (R114, R130). -/
def finishRound (s : State) (g : Group) (d : BitVec 5) (f : Fmt) (r : Val × FlagSet) : Out :=
  let (bits, fl) := roundTo (envOf g.vec.vt) f r.1
  finishFlags s g d.toNat (BitVec.ofNat 64 bits) (r.2 ||| fl)

/-- x d ← op(x a, x b) in a precision. -/
def floatOp2 (s : State) (d a b : BitVec 5) (p : BitVec 2) (op : RoundEnv → Val → Val → Val × FlagSet) : Out :=
  withRegs s [a.toNat, b.toNat] fun g =>
    let f := precision p
    finishRound s g d f (op (envOf g.vec.vt) (g.operand f a) (g.operand f b))

/-- x d ← ±(x a × x b) ± x d in a precision (R131). -/
def floatFma (s : State) (d a b : BitVec 5) (p : BitVec 2) (negProd negAdd : Bool) : Out :=
  withRegs s [a.toNat, b.toNat, d.toNat] fun g =>
    let f := precision p
    finishRound s g d f (fmaVal (envOf g.vec.vt) negProd negAdd (g.operand f a) (g.operand f b) (g.operand f d))

/-- A comparison into x d (R132). -/
def floatCmp (s : State) (d a b : BitVec 5) (p : BitVec 2) (r : Rel) : Out :=
  withRegs s [a.toNat, b.toNat] fun g =>
    let f := precision p
    let (c, fl) := relVal r (g.operand f a) (g.operand f b)
    finishFlags s g d.toNat (ofBool c) fl

/-- The class of stored bits, as the number of FCLASS's bit (R132). -/
def floatClass (f : Fmt) (bits : Nat) : Nat :=
  match decodeFloat f bits with
  | .nan _ fr => if fr < 2 ^ 51 then 8 else 9
  | .inf n => if n then 0 else 7
  | .num n m _ _ =>
    if m == 0 then (if n then 3 else 4)
    else if isSubnormal f bits then (if n then 2 else 5)
    else if n then 1 else 6

/-- A change of the sign bit only (R134). -/
def floatSign (s : State) (d a : BitVec 5) (rs : List Nat) (p : BitVec 2) (sign : Group → Fmt → Bool) : Out :=
  withRegs s (a.toNat :: rs) fun g =>
    let f := precision p
    let mag := g.operandBits f a % 2 ^ (f.width - 1)
    finish s (g.setX d.toNat (BitVec.ofNat 64 (signBits f (sign g f) mag)))

/-- The sign bit of an operand. -/
def Group.signOf (g : Group) (f : Fmt) (r : BitVec 5) : Bool := g.operandBits f r / 2 ^ (f.width - 1) == 1

/-- FADD (R131). -/
def execFadd (d a b : BitVec 5) (p : BitVec 2) (s : State) : Out := floatOp2 s d a b p addVal

/-- FSUB (R131). -/
def execFsub (d a b : BitVec 5) (p : BitVec 2) (s : State) : Out := floatOp2 s d a b p subVal

/-- FMUL (R131). -/
def execFmul (d a b : BitVec 5) (p : BitVec 2) (s : State) : Out := floatOp2 s d a b p fun _ a b => mulVal a b

/-- FDIV (R131). -/
def execFdiv (d a b : BitVec 5) (p : BitVec 2) (s : State) : Out := floatOp2 s d a b p fun _ a b => divVal a b

/-- FSQRT (R131). -/
def execFsqrt (d a : BitVec 5) (p : BitVec 2) (s : State) : Out :=
  withRegs s [a.toNat] fun g =>
    let f := precision p
    finishRound s g d f (sqrtVal (g.operand f a))

/-- FMIN (R131). -/
def execFmin (d a b : BitVec 5) (p : BitVec 2) (s : State) : Out :=
  floatOp2 s d a b p fun _ a b => minMaxVal false a b

/-- FMAX (R131). -/
def execFmax (d a b : BitVec 5) (p : BitVec 2) (s : State) : Out :=
  floatOp2 s d a b p fun _ a b => minMaxVal true a b

/-- FMAD: d ← a × b + d (R131). -/
def execFmad (d a b : BitVec 5) (p : BitVec 2) (s : State) : Out := floatFma s d a b p false false

/-- FMSB: d ← a × b - d (R131). -/
def execFmsb (d a b : BitVec 5) (p : BitVec 2) (s : State) : Out := floatFma s d a b p false true

/-- FNMA: d ← -(a × b) + d (R131). -/
def execFnma (d a b : BitVec 5) (p : BitVec 2) (s : State) : Out := floatFma s d a b p true false

/-- FCMPEQ (R132). -/
def execFcmpeq (d a b : BitVec 5) (p : BitVec 2) (s : State) : Out := floatCmp s d a b p .eq

/-- FCMPLT (R132). -/
def execFcmplt (d a b : BitVec 5) (p : BitVec 2) (s : State) : Out := floatCmp s d a b p .lt

/-- FCMPLE (R132). -/
def execFcmple (d a b : BitVec 5) (p : BitVec 2) (s : State) : Out := floatCmp s d a b p .le

/-- FCMPUN: 1 when either is a NaN (R132). -/
def execFcmpun (d a b : BitVec 5) (p : BitVec 2) (s : State) : Out := floatCmp s d a b p .un

/-- FCLASS: one bit of a 10-bit mask, from the stored bits, without flags (R132). -/
def execFclass (d a : BitVec 5) (p : BitVec 2) (s : State) : Out :=
  withRegs s [a.toNat] fun g =>
    let f := precision p
    finish s (g.setX d.toNat (BitVec.ofNat 64 (2 ^ floatClass f (g.operandBits f a))))

/-- FCVTI: to a signed 64-bit integer (R133). -/
def execFcvti (d a : BitVec 5) (p : BitVec 2) (s : State) : Out :=
  withRegs s [a.toNat] fun g =>
    let (v, fl) := floatToInt (vtRm g.vec.vt) 0 64 (g.operand (precision p) a)
    finishFlags s g d.toNat (BitVec.ofNat 64 v) fl

/-- FCVTN: to an unsigned 64-bit integer (R133). -/
def execFcvtn (d a : BitVec 5) (p : BitVec 2) (s : State) : Out :=
  withRegs s [a.toNat] fun g =>
    let (v, fl) := floatToInt (vtRm g.vec.vt) 1 64 (g.operand (precision p) a)
    finishFlags s g d.toNat (BitVec.ofNat 64 v) fl

/-- FCVTF: from a signed 64-bit integer (R133). -/
def execFcvtf (d a : BitVec 5) (p : BitVec 2) (s : State) : Out :=
  withRegs s [a.toNat] fun g => finishRound s g d (precision p) (.ofInt (g.x a.toNat).toInt, 0)

/-- FCVTFN: from an unsigned 64-bit integer (R133). -/
def execFcvtfn (d a : BitVec 5) (p : BitVec 2) (s : State) : Out :=
  withRegs s [a.toNat] fun g => finishRound s g d (precision p) (.ofInt ((g.x a.toNat).toNat : Int), 0)

/-- FCVTP: from one precision to another (R133). -/
def execFcvtp (d a : BitVec 5) (src dst : BitVec 2) (s : State) : Out :=
  withRegs s [a.toNat] fun g => finishRound s g d (precision dst) (g.operand (precision src) a, 0)

/-- FSGN: the sign of b (R134). -/
def execFsgn (d a b : BitVec 5) (p : BitVec 2) (s : State) : Out :=
  floatSign s d a [b.toNat] p fun g f => g.signOf f b

/-- FSGNN: the inverse of the sign of b (R134). -/
def execFsgnn (d a b : BitVec 5) (p : BitVec 2) (s : State) : Out :=
  floatSign s d a [b.toNat] p fun g f => !g.signOf f b

/-- FSGNX: the signs of a and b combined (R134). -/
def execFsgnx (d a b : BitVec 5) (p : BitVec 2) (s : State) : Out :=
  floatSign s d a [b.toNat] p fun g f => g.signOf f a != g.signOf f b

/-- FABS: sign 0 (R134). -/
def execFabs (d a : BitVec 5) (p : BitVec 2) (s : State) : Out := floatSign s d a [] p fun _ _ => false

/-- FNEG: the inverse of the sign of a (R134). -/
def execFneg (d a : BitVec 5) (p : BitVec 2) (s : State) : Out := floatSign s d a [] p fun g f => !g.signOf f a

end Sys2Proof.Machine
end

