-- ==== Sys2Proof/Machine/VectorExec.lean ====
section
/-! DEFINITION. The scalar pipeline's part of every vector-queue instruction: its word joins the convoy, and the last
word pushes it (R16, R23, R24). What the vector unit then does is in VectorUnit.lean. -/

namespace Sys2Proof.Machine

/-- VADD (R153): pushed in a convoy. -/
def execVadd (f : BitVec 2) (d : BitVec 6) (a : BitVec 6) (b : BitVec 6) (k : BitVec 4) (c : BitVec 1) (s : State) : Out := pushMember s (.vadd f d a b k c)

/-- VSUB (R153): pushed in a convoy. -/
def execVsub (f : BitVec 2) (d : BitVec 6) (a : BitVec 6) (b : BitVec 6) (k : BitVec 4) (c : BitVec 1) (s : State) : Out := pushMember s (.vsub f d a b k c)

/-- VRSUB (R153): pushed in a convoy. -/
def execVrsub (f : BitVec 2) (d : BitVec 6) (a : BitVec 6) (b : BitVec 6) (k : BitVec 4) (c : BitVec 1) (s : State) : Out := pushMember s (.vrsub f d a b k c)

/-- VMUL (R153): pushed in a convoy. -/
def execVmul (f : BitVec 2) (d : BitVec 6) (a : BitVec 6) (b : BitVec 6) (k : BitVec 4) (c : BitVec 1) (s : State) : Out := pushMember s (.vmul f d a b k c)

/-- VMULH (R155): pushed in a convoy. -/
def execVmulh (f : BitVec 2) (d : BitVec 6) (a : BitVec 6) (b : BitVec 6) (k : BitVec 4) (c : BitVec 1) (s : State) : Out := pushMember s (.vmulh f d a b k c)

/-- VDIV (R154): pushed in a convoy. -/
def execVdiv (f : BitVec 2) (d : BitVec 6) (a : BitVec 6) (b : BitVec 6) (k : BitVec 4) (c : BitVec 1) (s : State) : Out := pushMember s (.vdiv f d a b k c)

/-- VREM (R154): pushed in a convoy. -/
def execVrem (f : BitVec 2) (d : BitVec 6) (a : BitVec 6) (b : BitVec 6) (k : BitVec 4) (c : BitVec 1) (s : State) : Out := pushMember s (.vrem f d a b k c)

/-- VMIN (R153): pushed in a convoy. -/
def execVmin (f : BitVec 2) (d : BitVec 6) (a : BitVec 6) (b : BitVec 6) (k : BitVec 4) (c : BitVec 1) (s : State) : Out := pushMember s (.vmin f d a b k c)

/-- VMAX (R153): pushed in a convoy. -/
def execVmax (f : BitVec 2) (d : BitVec 6) (a : BitVec 6) (b : BitVec 6) (k : BitVec 4) (c : BitVec 1) (s : State) : Out := pushMember s (.vmax f d a b k c)

/-- VFMA (R156): pushed in a convoy. -/
def execVfma (f : BitVec 2) (d : BitVec 6) (a : BitVec 6) (b : BitVec 6) (k : BitVec 4) (c : BitVec 1) (s : State) : Out := pushMember s (.vfma f d a b k c)

/-- VFMS (R156): pushed in a convoy. -/
def execVfms (f : BitVec 2) (d : BitVec 6) (a : BitVec 6) (b : BitVec 6) (k : BitVec 4) (c : BitVec 1) (s : State) : Out := pushMember s (.vfms f d a b k c)

/-- VFNMA (R156): pushed in a convoy. -/
def execVfnma (f : BitVec 2) (d : BitVec 6) (a : BitVec 6) (b : BitVec 6) (k : BitVec 4) (c : BitVec 1) (s : State) : Out := pushMember s (.vfnma f d a b k c)

/-- VAND (R157): pushed in a convoy. -/
def execVand (f : BitVec 2) (d : BitVec 6) (a : BitVec 6) (b : BitVec 6) (k : BitVec 4) (c : BitVec 1) (s : State) : Out := pushMember s (.vand f d a b k c)

/-- VOR (R157): pushed in a convoy. -/
def execVor (f : BitVec 2) (d : BitVec 6) (a : BitVec 6) (b : BitVec 6) (k : BitVec 4) (c : BitVec 1) (s : State) : Out := pushMember s (.vor f d a b k c)

/-- VXOR (R157): pushed in a convoy. -/
def execVxor (f : BitVec 2) (d : BitVec 6) (a : BitVec 6) (b : BitVec 6) (k : BitVec 4) (c : BitVec 1) (s : State) : Out := pushMember s (.vxor f d a b k c)

/-- VSHL (R157): pushed in a convoy. -/
def execVshl (f : BitVec 2) (d : BitVec 6) (a : BitVec 6) (b : BitVec 6) (k : BitVec 4) (c : BitVec 1) (s : State) : Out := pushMember s (.vshl f d a b k c)

/-- VSHR (R157): pushed in a convoy. -/
def execVshr (f : BitVec 2) (d : BitVec 6) (a : BitVec 6) (b : BitVec 6) (k : BitVec 4) (c : BitVec 1) (s : State) : Out := pushMember s (.vshr f d a b k c)

/-- VSAR (R157): pushed in a convoy. -/
def execVsar (f : BitVec 2) (d : BitVec 6) (a : BitVec 6) (b : BitVec 6) (k : BitVec 4) (c : BitVec 1) (s : State) : Out := pushMember s (.vsar f d a b k c)

/-- VADC (R158): pushed in a convoy. -/
def execVadc (f : BitVec 2) (d : BitVec 6) (a : BitVec 6) (b : BitVec 6) (k : BitVec 4) (c : BitVec 1) (s : State) : Out := pushMember s (.vadc f d a b k c)

/-- VSBC (R158): pushed in a convoy. -/
def execVsbc (f : BitVec 2) (d : BitVec 6) (a : BitVec 6) (b : BitVec 6) (k : BitVec 4) (c : BitVec 1) (s : State) : Out := pushMember s (.vsbc f d a b k c)

/-- VCMPEQ (R159): pushed in a convoy. -/
def execVcmpeq (f : BitVec 2) (m : BitVec 6) (a : BitVec 6) (b : BitVec 6) (k : BitVec 4) (c : BitVec 1) (s : State) : Out := pushMember s (.vcmpeq f m a b k c)

/-- VCMPNE (R159): pushed in a convoy. -/
def execVcmpne (f : BitVec 2) (m : BitVec 6) (a : BitVec 6) (b : BitVec 6) (k : BitVec 4) (c : BitVec 1) (s : State) : Out := pushMember s (.vcmpne f m a b k c)

/-- VCMPLT (R159): pushed in a convoy. -/
def execVcmplt (f : BitVec 2) (m : BitVec 6) (a : BitVec 6) (b : BitVec 6) (k : BitVec 4) (c : BitVec 1) (s : State) : Out := pushMember s (.vcmplt f m a b k c)

/-- VCMPLE (R159): pushed in a convoy. -/
def execVcmple (f : BitVec 2) (m : BitVec 6) (a : BitVec 6) (b : BitVec 6) (k : BitVec 4) (c : BitVec 1) (s : State) : Out := pushMember s (.vcmple f m a b k c)

/-- VCMPGT (R159): pushed in a convoy. -/
def execVcmpgt (f : BitVec 2) (m : BitVec 6) (a : BitVec 6) (b : BitVec 6) (k : BitVec 4) (c : BitVec 1) (s : State) : Out := pushMember s (.vcmpgt f m a b k c)

/-- VCMPGE (R159): pushed in a convoy. -/
def execVcmpge (f : BitVec 2) (m : BitVec 6) (a : BitVec 6) (b : BitVec 6) (k : BitVec 4) (c : BitVec 1) (s : State) : Out := pushMember s (.vcmpge f m a b k c)

/-- VCMPUN (R159): pushed in a convoy. -/
def execVcmpun (f : BitVec 2) (m : BitVec 6) (a : BitVec 6) (b : BitVec 6) (k : BitVec 4) (c : BitVec 1) (s : State) : Out := pushMember s (.vcmpun f m a b k c)

/-- VMERGE (R160): pushed in a convoy. -/
def execVmerge (f : BitVec 2) (d : BitVec 6) (a : BitVec 6) (b : BitVec 6) (k : BitVec 4) (c : BitVec 1) (s : State) : Out := pushMember s (.vmerge f d a b k c)

/-- VABS (R162): pushed in a convoy. -/
def execVabs (d : BitVec 6) (a : BitVec 6) (k : BitVec 4) (c : BitVec 1) (s : State) : Out := pushMember s (.vabs d a k c)

/-- VNEG (R162): pushed in a convoy. -/
def execVneg (d : BitVec 6) (a : BitVec 6) (k : BitVec 4) (c : BitVec 1) (s : State) : Out := pushMember s (.vneg d a k c)

/-- VNOT (R162): pushed in a convoy. -/
def execVnot (d : BitVec 6) (a : BitVec 6) (k : BitVec 4) (c : BitVec 1) (s : State) : Out := pushMember s (.vnot d a k c)

/-- VSQRT (R162): pushed in a convoy. -/
def execVsqrt (d : BitVec 6) (a : BitVec 6) (k : BitVec 4) (c : BitVec 1) (s : State) : Out := pushMember s (.vsqrt d a k c)

/-- VRSQE (R163): pushed in a convoy. -/
def execVrsqe (d : BitVec 6) (a : BitVec 6) (k : BitVec 4) (c : BitVec 1) (s : State) : Out := pushMember s (.vrsqe d a k c)

/-- VRCPE (R163): pushed in a convoy. -/
def execVrcpe (d : BitVec 6) (a : BitVec 6) (k : BitVec 4) (c : BitVec 1) (s : State) : Out := pushMember s (.vrcpe d a k c)

/-- VEXP2 (R115): pushed in a convoy. -/
def execVexp2 (d : BitVec 6) (a : BitVec 6) (k : BitVec 4) (c : BitVec 1) (s : State) : Out := pushMember s (.vexp2 d a k c)

/-- VLOG2 (R115): pushed in a convoy. -/
def execVlog2 (d : BitVec 6) (a : BitVec 6) (k : BitVec 4) (c : BitVec 1) (s : State) : Out := pushMember s (.vlog2 d a k c)

/-- VSIGM (R115): pushed in a convoy. -/
def execVsigm (d : BitVec 6) (a : BitVec 6) (k : BitVec 4) (c : BitVec 1) (s : State) : Out := pushMember s (.vsigm d a k c)

/-- VCLZ (R162): pushed in a convoy. -/
def execVclz (d : BitVec 6) (a : BitVec 6) (k : BitVec 4) (c : BitVec 1) (s : State) : Out := pushMember s (.vclz d a k c)

/-- VPOPC (R162): pushed in a convoy. -/
def execVpopc (d : BitVec 6) (a : BitVec 6) (k : BitVec 4) (c : BitVec 1) (s : State) : Out := pushMember s (.vpopc d a k c)

/-- VCVT (R164): pushed in a convoy. -/
def execVcvt (d : BitVec 6) (a : BitVec 6) (k : BitVec 4) (c : BitVec 1) (s : State) : Out := pushMember s (.vcvt d a k c)

/-- VMV (R160): pushed in a convoy. -/
def execVmv (f : BitVec 2) (d : BitVec 6) (b : BitVec 6) (k : BitVec 4) (c : BitVec 1) (s : State) : Out := pushMember s (.vmv f d b k c)

/-- VID (R161): pushed in a convoy. -/
def execVid (d : BitVec 6) (k : BitVec 4) (c : BitVec 1) (s : State) : Out := pushMember s (.vid d k c)

/-- VSLUP (R176): pushed in a convoy. -/
def execVslup (f : BitVec 2) (d : BitVec 6) (a : BitVec 6) (b : BitVec 6) (k : BitVec 4) (c : BitVec 1) (s : State) : Out := pushMember s (.vslup f d a b k c)

/-- VSLDN (R176): pushed in a convoy. -/
def execVsldn (f : BitVec 2) (d : BitVec 6) (a : BitVec 6) (b : BitVec 6) (k : BitVec 4) (c : BitVec 1) (s : State) : Out := pushMember s (.vsldn f d a b k c)

/-- VSL1UP (R176): pushed in a convoy. -/
def execVsl1up (f : BitVec 2) (d : BitVec 6) (a : BitVec 6) (b : BitVec 6) (k : BitVec 4) (c : BitVec 1) (s : State) : Out := pushMember s (.vsl1up f d a b k c)

/-- VSL1DN (R176): pushed in a convoy. -/
def execVsl1dn (f : BitVec 2) (d : BitVec 6) (a : BitVec 6) (b : BitVec 6) (k : BitVec 4) (c : BitVec 1) (s : State) : Out := pushMember s (.vsl1dn f d a b k c)

/-- VPERM (R177): pushed in a convoy. -/
def execVperm (d : BitVec 6) (a : BitVec 6) (im : BitVec 6) (k : BitVec 4) (c : BitVec 1) (s : State) : Out := pushMember s (.vperm d a im k c)

/-- VCOMP (R178): pushed in a convoy. -/
def execVcomp (d : BitVec 6) (a : BitVec 6) (k : BitVec 4) (c : BitVec 1) (s : State) : Out := pushMember s (.vcomp d a k c)

/-- VIOTA (R179): pushed in a convoy. -/
def execViota (d : BitVec 6) (k : BitVec 4) (c : BitVec 1) (s : State) : Out := pushMember s (.viota d k c)

/-- VDOT4 (R182): pushed in a convoy. -/
def execVdot4 (f : BitVec 2) (d : BitVec 6) (a : BitVec 6) (b : BitVec 6) (k : BitVec 4) (c : BitVec 1) (s : State) : Out := pushMember s (.vdot4 f d a b k c)

/-- VDOT8 (R182): pushed in a convoy. -/
def execVdot8 (f : BitVec 2) (d : BitVec 6) (a : BitVec 6) (b : BitVec 6) (k : BitVec 4) (c : BitVec 1) (s : State) : Out := pushMember s (.vdot8 f d a b k c)

/-- VREDSUM (R181): pushed in a convoy. -/
def execVredsum (f : BitVec 2) (d : BitVec 6) (a : BitVec 6) (b : BitVec 6) (k : BitVec 4) (c : BitVec 1) (s : State) : Out := pushMember s (.vredsum f d a b k c)

/-- VREDMAX (R181): pushed in a convoy. -/
def execVredmax (f : BitVec 2) (d : BitVec 6) (a : BitVec 6) (b : BitVec 6) (k : BitVec 4) (c : BitVec 1) (s : State) : Out := pushMember s (.vredmax f d a b k c)

/-- VREDMIN (R181): pushed in a convoy. -/
def execVredmin (f : BitVec 2) (d : BitVec 6) (a : BitVec 6) (b : BitVec 6) (k : BitVec 4) (c : BitVec 1) (s : State) : Out := pushMember s (.vredmin f d a b k c)

/-- VREDAND (R181): pushed in a convoy. -/
def execVredand (f : BitVec 2) (d : BitVec 6) (a : BitVec 6) (b : BitVec 6) (k : BitVec 4) (c : BitVec 1) (s : State) : Out := pushMember s (.vredand f d a b k c)

/-- VREDOR (R181): pushed in a convoy. -/
def execVredor (f : BitVec 2) (d : BitVec 6) (a : BitVec 6) (b : BitVec 6) (k : BitVec 4) (c : BitVec 1) (s : State) : Out := pushMember s (.vredor f d a b k c)

/-- VREDXOR (R181): pushed in a convoy. -/
def execVredxor (f : BitVec 2) (d : BitVec 6) (a : BitVec 6) (b : BitVec 6) (k : BitVec 4) (c : BitVec 1) (s : State) : Out := pushMember s (.vredxor f d a b k c)

/-- VTOPM (R175): pushed in a convoy. -/
def execVtopm (f : BitVec 2) (m : BitVec 6) (a : BitVec 6) (b : BitVec 6) (k : BitVec 4) (c : BitVec 1) (s : State) : Out := pushMember s (.vtopm f m a b k c)

/-- VEXT (R180): pushed in a convoy. -/
def execVext (f : BitVec 2) (d : BitVec 5) (a : BitVec 6) (b : BitVec 6) (c : BitVec 1) (s : State) : Out := pushMember s (.vext f d a b c)

/-- VINS (R180): pushed in a convoy. -/
def execVins (f : BitVec 2) (d : BitVec 6) (a : BitVec 5) (b : BitVec 6) (c : BitVec 1) (s : State) : Out := pushMember s (.vins f d a b c)

/-- MAND (R171): pushed in a convoy. -/
def execMand (d : BitVec 6) (a : BitVec 6) (b : BitVec 6) (c : BitVec 1) (s : State) : Out := pushMember s (.mand d a b c)

/-- MOR (R171): pushed in a convoy. -/
def execMor (d : BitVec 6) (a : BitVec 6) (b : BitVec 6) (c : BitVec 1) (s : State) : Out := pushMember s (.mor d a b c)

/-- MXOR (R171): pushed in a convoy. -/
def execMxor (d : BitVec 6) (a : BitVec 6) (b : BitVec 6) (c : BitVec 1) (s : State) : Out := pushMember s (.mxor d a b c)

/-- MANDN (R171): pushed in a convoy. -/
def execMandn (d : BitVec 6) (a : BitVec 6) (b : BitVec 6) (c : BitVec 1) (s : State) : Out := pushMember s (.mandn d a b c)

/-- MORN (R171): pushed in a convoy. -/
def execMorn (d : BitVec 6) (a : BitVec 6) (b : BitVec 6) (c : BitVec 1) (s : State) : Out := pushMember s (.morn d a b c)

/-- MNOT (R171): pushed in a convoy. -/
def execMnot (d : BitVec 6) (a : BitVec 6) (c : BitVec 1) (s : State) : Out := pushMember s (.mnot d a c)

/-- MMOV (R171): pushed in a convoy. -/
def execMmov (d : BitVec 6) (a : BitVec 6) (c : BitVec 1) (s : State) : Out := pushMember s (.mmov d a c)

/-- MSET (R171): pushed in a convoy. -/
def execMset (d : BitVec 6) (c : BitVec 1) (s : State) : Out := pushMember s (.mset d c)

/-- MCLR (R171): pushed in a convoy. -/
def execMclr (d : BitVec 6) (c : BitVec 1) (s : State) : Out := pushMember s (.mclr d c)

/-- MSHL1 (R171): pushed in a convoy. -/
def execMshl1 (d : BitVec 6) (a : BitVec 6) (c : BitVec 1) (s : State) : Out := pushMember s (.mshl1 d a c)

/-- MSHR1 (R171): pushed in a convoy. -/
def execMshr1 (d : BitVec 6) (a : BitVec 6) (c : BitVec 1) (s : State) : Out := pushMember s (.mshr1 d a c)

/-- MFROMX (R171): pushed in a convoy. -/
def execMfromx (d : BitVec 6) (b : BitVec 5) (c : BitVec 1) (s : State) : Out := pushMember s (.mfromx d b c)

/-- VMPOP (R172): pushed in a convoy. -/
def execVmpop (d : BitVec 5) (a : BitVec 6) (k : BitVec 4) (c : BitVec 1) (s : State) : Out := pushMember s (.vmpop d a k c)

/-- VMFIRST (R172): pushed in a convoy. -/
def execVmfirst (d : BitVec 5) (a : BitVec 6) (k : BitVec 4) (c : BitVec 1) (s : State) : Out := pushMember s (.vmfirst d a k c)

/-- VMLAST (R172): pushed in a convoy. -/
def execVmlast (d : BitVec 5) (a : BitVec 6) (k : BitVec 4) (c : BitVec 1) (s : State) : Out := pushMember s (.vmlast d a k c)

/-- VPICK_MAX (R174): pushed in a convoy. -/
def execVpickMax (d : BitVec 5) (a : BitVec 6) (k : BitVec 4) (c : BitVec 1) (s : State) : Out := pushMember s (.vpickMax d a k c)

/-- VPICK_MIN (R174): pushed in a convoy. -/
def execVpickMin (d : BitVec 5) (a : BitVec 6) (k : BitVec 4) (c : BitVec 1) (s : State) : Out := pushMember s (.vpickMin d a k c)

/-- VPUSHQ (R184): pushed in a convoy. -/
def execVpushq (p : BitVec 3) (a : BitVec 6) (k : BitVec 4) (c : BitVec 1) (s : State) : Out := pushMember s (.vpushq p a k c)

/-- VLD (R235): pushed in a convoy. -/
def execVld (d : BitVec 6) (b : BitVec 5) (w : BitVec 5) (p : BitVec 2) (k : BitVec 4) (c : BitVec 1) (s : State) : Out := pushMember s (.vld d b w p k c)

/-- VLDS (R235): pushed in a convoy. -/
def execVlds (d : BitVec 6) (b : BitVec 5) (w : BitVec 5) (p : BitVec 2) (k : BitVec 4) (c : BitVec 1) (s : State) : Out := pushMember s (.vlds d b w p k c)

/-- VLDX (R235): pushed in a convoy. -/
def execVldx (d : BitVec 6) (b : BitVec 5) (im : BitVec 6) (w : BitVec 3) (k : BitVec 4) (c : BitVec 1) (s : State) : Out := pushMember s (.vldx d b im w k c)

/-- VLDSEG (R235): pushed in a convoy. -/
def execVldseg (d : BitVec 6) (b : BitVec 5) (w : BitVec 5) (h : BitVec 4) (k : BitVec 4) (c : BitVec 1) (s : State) : Out := pushMember s (.vldseg d b w h k c)

/-- VST (R238): pushed in a convoy. -/
def execVst (v : BitVec 6) (b : BitVec 5) (w : BitVec 5) (n : BitVec 1) (p : BitVec 2) (k : BitVec 4) (c : BitVec 1) (s : State) : Out := pushMember s (.vst v b w n p k c)

/-- VSTS (R238): pushed in a convoy. -/
def execVsts (v : BitVec 6) (b : BitVec 5) (w : BitVec 5) (n : BitVec 1) (p : BitVec 2) (k : BitVec 4) (c : BitVec 1) (s : State) : Out := pushMember s (.vsts v b w n p k c)

/-- VSTX (R238): pushed in a convoy. -/
def execVstx (v : BitVec 6) (b : BitVec 5) (im : BitVec 6) (w : BitVec 3) (k : BitVec 4) (c : BitVec 1) (s : State) : Out := pushMember s (.vstx v b im w k c)

/-- VSTSEG (R238): pushed in a convoy. -/
def execVstseg (v : BitVec 6) (b : BitVec 5) (w : BitVec 5) (h : BitVec 3) (k : BitVec 4) (c : BitVec 1) (s : State) : Out := pushMember s (.vstseg v b w h k c)

/-- VAMO_ADD (R240): pushed in a convoy. -/
def execVamoAdd (v : BitVec 6) (b : BitVec 5) (im : BitVec 6) (k : BitVec 4) (c : BitVec 1) (s : State) : Out := pushMember s (.vamoAdd v b im k c)

/-- VAMO_AND (R240): pushed in a convoy. -/
def execVamoAnd (v : BitVec 6) (b : BitVec 5) (im : BitVec 6) (k : BitVec 4) (c : BitVec 1) (s : State) : Out := pushMember s (.vamoAnd v b im k c)

/-- VAMO_OR (R240): pushed in a convoy. -/
def execVamoOr (v : BitVec 6) (b : BitVec 5) (im : BitVec 6) (k : BitVec 4) (c : BitVec 1) (s : State) : Out := pushMember s (.vamoOr v b im k c)

/-- VAMO_XOR (R240): pushed in a convoy. -/
def execVamoXor (v : BitVec 6) (b : BitVec 5) (im : BitVec 6) (k : BitVec 4) (c : BitVec 1) (s : State) : Out := pushMember s (.vamoXor v b im k c)

/-- VAMO_MIN (R240): pushed in a convoy. -/
def execVamoMin (v : BitVec 6) (b : BitVec 5) (im : BitVec 6) (k : BitVec 4) (c : BitVec 1) (s : State) : Out := pushMember s (.vamoMin v b im k c)

/-- VAMO_MAX (R240): pushed in a convoy. -/
def execVamoMax (v : BitVec 6) (b : BitVec 5) (im : BitVec 6) (k : BitVec 4) (c : BitVec 1) (s : State) : Out := pushMember s (.vamoMax v b im k c)

/-- VAMO_SWAP (R240): pushed in a convoy. -/
def execVamoSwap (v : BitVec 6) (b : BitVec 5) (im : BitVec 6) (k : BitVec 4) (c : BitVec 1) (s : State) : Out := pushMember s (.vamoSwap v b im k c)

/-- VREDM_SUM (R241): pushed in a convoy. -/
def execVredmSum (v : BitVec 6) (b : BitVec 5) (im : BitVec 6) (k : BitVec 4) (c : BitVec 1) (s : State) : Out := pushMember s (.vredmSum v b im k c)

/-- VREDM_MAX (R241): pushed in a convoy. -/
def execVredmMax (v : BitVec 6) (b : BitVec 5) (im : BitVec 6) (k : BitVec 4) (c : BitVec 1) (s : State) : Out := pushMember s (.vredmMax v b im k c)

/-- VREDM_MIN (R241): pushed in a convoy. -/
def execVredmMin (v : BitVec 6) (b : BitVec 5) (im : BitVec 6) (k : BitVec 4) (c : BitVec 1) (s : State) : Out := pushMember s (.vredmMin v b im k c)

/-- VREDM_AND (R241): pushed in a convoy. -/
def execVredmAnd (v : BitVec 6) (b : BitVec 5) (im : BitVec 6) (k : BitVec 4) (c : BitVec 1) (s : State) : Out := pushMember s (.vredmAnd v b im k c)

/-- VREDM_OR (R241): pushed in a convoy. -/
def execVredmOr (v : BitVec 6) (b : BitVec 5) (im : BitVec 6) (k : BitVec 4) (c : BitVec 1) (s : State) : Out := pushMember s (.vredmOr v b im k c)

/-- VREDM_XOR (R241): pushed in a convoy. -/
def execVredmXor (v : BitVec 6) (b : BitVec 5) (im : BitVec 6) (k : BitVec 4) (c : BitVec 1) (s : State) : Out := pushMember s (.vredmXor v b im k c)

/-- VSPILL (R96): pushed in a convoy. -/
def execVspill (b : BitVec 5) (sh : BitVec 10) (n : BitVec 6) (s : State) : Out := pushMember s (.vspill b sh n)

/-- VFILL (R97): pushed in a convoy. -/
def execVfill (b : BitVec 5) (sh : BitVec 10) (n : BitVec 6) (s : State) : Out := pushMember s (.vfill b sh n)

end Sys2Proof.Machine
end

