-- ==== Sys2Proof/Machine/Weeder.lean ====
section
/-! DEFINITION. The steps of the test blocks (R80, R414). -/

namespace Sys2Proof.Machine

/-- A step of the test block of a firmware core. -/
def testEvent (s : State) (fw : Nat) (name : String) (f : TestBlock → Option State) : Out :=
  if !s.powered then .fault .poweredOff
  else if 4 ≤ fw then noStep name
  else
    match f (s.test fw) with
    | some s1 => .next s1
    | none => noStep name

/-- SCTCTL_START (R80, R414): the START bit's action. -/
def execSctctlStart (fw : Nat) (s : State) : Out := testEvent s fw "SCTCTL_START" (startTest s fw)

/-- SCTCTL_ABORT (R80, R414): the ABORT bit's action; in a state in which it does not act it is accepted without effect. -/
def execSctctlAbort (fw : Nat) (s : State) : Out := testEvent s fw "SCTCTL_ABORT" fun t => some (abortTest s fw t)

/-- SCTCTL_RESETCORE (R80, R414): the RESETCORE bit's action. -/
def execSctctlResetcore (fw : Nat) (s : State) : Out := testEvent s fw "SCTCTL_RESETCORE" (resetTest s fw)

/-- TEST_DRAIN_DONE (R414): the target's memory traffic has completed; its L1 is invalid, and the pattern runs. -/
def execTestDrainDone (fw : Nat) (s : State) : Out :=
  testEvent s fw "TEST_DRAIN_DONE" fun t =>
    if t.stat != 1 || s.flights.any (·.core == t.sel) then none
    else some ((s.setL1 t.sel []).setTest fw { t with stat := 2, started := s.now })

/-- The signature of a completed pattern (R80). -/
def signatureOf (t : TestBlock) : Word :=
  if Config.coreHealthy t.sel then Config.scanSignature t.gen (coreClass t.sel) else Config.faultySignature t.gen t.sel

/-- TEST_PATTERN_END (R80, R414): the signature is compared; the pattern leaves the core's storage zero and its L1 invalid. -/
def execTestPatternEnd (fw : Nat) (s : State) : Out :=
  testEvent s fw "TEST_PATTERN_END" fun t =>
    if t.over s then
      let sig := signatureOf t
      some ((s.setL1 t.sel []).setTest fw { t with stat := if sig == t.exp then 3 else 4, cnt := 250000, sig := sig })
    else none

/-- Whether a queue holds a LAUNCH that is accepted and has neither started nor become final (R413). -/
def launchPending (c : CmdQueue) : Bool := c.commands.any fun x => x.kind == 1 && x.state = .accepted

/-- Whether a core's OCC bit is set: it holds a group, or a placement has found it and has still to commit (R413). -/
def coreOccupied (s : State) (core : Nat) : Bool :=
  (s.core core).slots.any (·.2.group.isSome) || s.tasks.any fun e => e.2.any (·.claim.contains core)

/-- The bits of a queue in one die's structures: LPEND, and PRI, whose bit is 1 in the array of the queue's priority (R300, R412). -/
def keepQueue (w : WeederArea) (s : State) (e : Nat × CmdQueue) : State :=
  (List.range 16).foldl (fun a p => writeFlag a (w.pri + 512 * p) e.1 (e.2.priority == p)) (writeFlag s w.lpend e.1 (launchPending e.2))

/-- The OCC, LPEND and PRI bits as the other firmware duties keep them (R412, R413). -/
def keepWeeder (s : State) : State :=
  s.trowel.weeder.foldl (fun a w =>
    s.queues.foldl (keepQueue w) ((List.range mapCores).foldl (fun b n => writeFlag b w.occ n (coreOccupied s n)) a)) s

/-- Whether a LAUNCH that is accepted and not started waits in a queue at or above a priority whose partition holds a column
(R80). -/
def pendingLaunch (s : State) (pri col : Nat) : Bool :=
  s.queues.any fun e =>
    decide (pri ≤ e.2.priority) && partHas s e.2.part col && launchPending e.2

/-- TEST_AUTO_ABORT (R80): an abort of the block's own. -/
def execTestAutoAbort (fw : Nat) (s : State) : Out :=
  testEvent s fw "TEST_AUTO_ABORT" fun t =>
    if t.abten && (t.stat == 1 || t.stat == 2) && t.stopAt.isNone && !t.over s && pendingLaunch s t.abtpri (coreCol t.sel) then some (abortTest s fw t) else none

/-- A map core reset, its storage zeroed, the scratchpad with its check values and marks too (R202, R414). -/
def resetCore (s : State) (core : Nat) : State := (zeroPad s core 0 524288).setCore core ((s.core core).afterReset s.now)

/-- TEST_RESET_DONE (R80, R414): 16 µs after RESETCORE. -/
def execTestResetDone (fw : Nat) (s : State) : Out :=
  testEvent s fw "TEST_RESET_DONE" fun t =>
    if t.stat == 6 && decide (20000 ≤ s.now - t.started) then some ((resetCore s t.sel).setTest fw { t with stat := 0 }) else none

/-- FIRMWARE_CORE_RETURN (R352, R384): the core takes its duties back, and its group starts; the first one to do so after a device reset
has been booted, which the measurements show (R388; log 19). -/
def execFirmwareCoreReturn (fw : Nat) (s : State) : Out :=
  if !s.powered then .fault .poweredOff
  else if decide (fw < 4) && (s.core (288 + fw)).down then
    let s1 := measureBoot s
    .next ((s1.setCore (288 + fw) { s1.core (288 + fw) with down := false }).enterSlot (288 + fw) 0 (firmwareGroup fw))
  else noStep "FIRMWARE_CORE_RETURN"

end Sys2Proof.Machine
end

