-- ==== Sys2Proof/Machine/Dispatch.lean ====
section
/-! DEFINITION. One arm for each constructor of Instr. -/

namespace Sys2Proof.Machine

def exec (i : Instr) (s : State) : Host.Outcome State Fault Refusal :=
  match i with
  | .add d a b => Sys2Proof.Machine.execAdd d a b s
  | .sub d a b => Sys2Proof.Machine.execSub d a b s
  | .and d a b => Sys2Proof.Machine.execAnd d a b s
  | .or d a b => Sys2Proof.Machine.execOr d a b s
  | .xor d a b => Sys2Proof.Machine.execXor d a b s
  | .andn d a b => Sys2Proof.Machine.execAndn d a b s
  | .shl d a b => Sys2Proof.Machine.execShl d a b s
  | .shr d a b => Sys2Proof.Machine.execShr d a b s
  | .sar d a b => Sys2Proof.Machine.execSar d a b s
  | .rol d a b => Sys2Proof.Machine.execRol d a b s
  | .ror d a b => Sys2Proof.Machine.execRor d a b s
  | .mul d a b => Sys2Proof.Machine.execMul d a b s
  | .mulh d a b => Sys2Proof.Machine.execMulh d a b s
  | .mulhn d a b => Sys2Proof.Machine.execMulhn d a b s
  | .div d a b => Sys2Proof.Machine.execDiv d a b s
  | .divn d a b => Sys2Proof.Machine.execDivn d a b s
  | .rem d a b => Sys2Proof.Machine.execRem d a b s
  | .remn d a b => Sys2Proof.Machine.execRemn d a b s
  | .min d a b => Sys2Proof.Machine.execMin d a b s
  | .max d a b => Sys2Proof.Machine.execMax d a b s
  | .minn d a b => Sys2Proof.Machine.execMinn d a b s
  | .maxn d a b => Sys2Proof.Machine.execMaxn d a b s
  | .slt d a b => Sys2Proof.Machine.execSlt d a b s
  | .sltn d a b => Sys2Proof.Machine.execSltn d a b s
  | .clz d a => Sys2Proof.Machine.execClz d a s
  | .ctz d a => Sys2Proof.Machine.execCtz d a s
  | .popc d a => Sys2Proof.Machine.execPopc d a s
  | .brev d a => Sys2Proof.Machine.execBrev d a s
  | .bswap d a => Sys2Proof.Machine.execBswap d a s
  | .sext d a b => Sys2Proof.Machine.execSext d a b s
  | .zext d a b => Sys2Proof.Machine.execZext d a b s
  | .addw d a b => Sys2Proof.Machine.execAddw d a b s
  | .subw d a b => Sys2Proof.Machine.execSubw d a b s
  | .addi d a im => Sys2Proof.Machine.execAddi d a im s
  | .andi d a im => Sys2Proof.Machine.execAndi d a im s
  | .ori d a im => Sys2Proof.Machine.execOri d a im s
  | .xori d a im => Sys2Proof.Machine.execXori d a im s
  | .shli d a sh => Sys2Proof.Machine.execShli d a sh s
  | .shri d a sh => Sys2Proof.Machine.execShri d a sh s
  | .sari d a sh => Sys2Proof.Machine.execSari d a sh s
  | .roli d a sh => Sys2Proof.Machine.execRoli d a sh s
  | .slti d a im => Sys2Proof.Machine.execSlti d a im s
  | .sltni d a im => Sys2Proof.Machine.execSltni d a im s
  | .lui d im => Sys2Proof.Machine.execLui d im s
  | .addpc d im => Sys2Proof.Machine.execAddpc d im s
  | .luih d im => Sys2Proof.Machine.execLuih d im s
  | .fadd d a b p => Sys2Proof.Machine.execFadd d a b p s
  | .fsub d a b p => Sys2Proof.Machine.execFsub d a b p s
  | .fmul d a b p => Sys2Proof.Machine.execFmul d a b p s
  | .fdiv d a b p => Sys2Proof.Machine.execFdiv d a b p s
  | .fsqrt d a p => Sys2Proof.Machine.execFsqrt d a p s
  | .fmin d a b p => Sys2Proof.Machine.execFmin d a b p s
  | .fmax d a b p => Sys2Proof.Machine.execFmax d a b p s
  | .fmad d a b p => Sys2Proof.Machine.execFmad d a b p s
  | .fmsb d a b p => Sys2Proof.Machine.execFmsb d a b p s
  | .fnma d a b p => Sys2Proof.Machine.execFnma d a b p s
  | .fcmpeq d a b p => Sys2Proof.Machine.execFcmpeq d a b p s
  | .fcmplt d a b p => Sys2Proof.Machine.execFcmplt d a b p s
  | .fcmple d a b p => Sys2Proof.Machine.execFcmple d a b p s
  | .fcmpun d a b p => Sys2Proof.Machine.execFcmpun d a b p s
  | .fclass d a p => Sys2Proof.Machine.execFclass d a p s
  | .fcvti d a p => Sys2Proof.Machine.execFcvti d a p s
  | .fcvtn d a p => Sys2Proof.Machine.execFcvtn d a p s
  | .fcvtf d a p => Sys2Proof.Machine.execFcvtf d a p s
  | .fcvtfn d a p => Sys2Proof.Machine.execFcvtfn d a p s
  | .fcvtp d a sh p => Sys2Proof.Machine.execFcvtp d a sh p s
  | .fsgn d a b p => Sys2Proof.Machine.execFsgn d a b p s
  | .fsgnn d a b p => Sys2Proof.Machine.execFsgnn d a b p s
  | .fsgnx d a b p => Sys2Proof.Machine.execFsgnx d a b p s
  | .fabs d a p => Sys2Proof.Machine.execFabs d a p s
  | .fneg d a p => Sys2Proof.Machine.execFneg d a p s
  | .beq a b o => Sys2Proof.Machine.execBeq a b o s
  | .bne a b o => Sys2Proof.Machine.execBne a b o s
  | .blt a b o => Sys2Proof.Machine.execBlt a b o s
  | .bge a b o => Sys2Proof.Machine.execBge a b o s
  | .bltn a b o => Sys2Proof.Machine.execBltn a b o s
  | .bgen a b o => Sys2Proof.Machine.execBgen a b o s
  | .jal o => Sys2Proof.Machine.execJal o s
  | .jalr d a im => Sys2Proof.Machine.execJalr d a im s
  | .bmz m o => Sys2Proof.Machine.execBmz m o s
  | .bmnz m o => Sys2Proof.Machine.execBmnz m o s
  | .trap a => Sys2Proof.Machine.execTrap a s
  | .rett => Sys2Proof.Machine.execRett s
  | .waite a => Sys2Proof.Machine.execWaite a s
  | .yield => Sys2Proof.Machine.execYield s
  | .exit => Sys2Proof.Machine.execExit s
  | .brk => Sys2Proof.Machine.execBrk s
  | .fencei => Sys2Proof.Machine.execFencei s
  | .mfcr d n => Sys2Proof.Machine.execMfcr d n s
  | .mtcr a n => Sys2Proof.Machine.execMtcr a n s
  | .setvl d a b k g => Sys2Proof.Machine.execSetvl d a b k g s
  | .setvt d a => Sys2Proof.Machine.execSetvt d a s
  | .setvti d z r sh e c => Sys2Proof.Machine.execSetvti d z r sh e c s
  | .setbase d a im => Sys2Proof.Machine.execSetbase d a im s
  | .settile d a b => Sys2Proof.Machine.execSettile d a b s
  | .vlenq d a => Sys2Proof.Machine.execVlenq d a s
  | .tmma n x t r => Sys2Proof.Machine.execTmma n x t r s
  | .tmmaOvr n x t r => Sys2Proof.Machine.execTmmaOvr n x t r s
  | .tzero t => Sys2Proof.Machine.execTzero t s
  | .tldacc t a b => Sys2Proof.Machine.execTldacc t a b s
  | .tstacc t a b f => Sys2Proof.Machine.execTstacc t a b f s
  | .tsave t a => Sys2Proof.Machine.execTsave t a s
  | .trestore t a => Sys2Proof.Machine.execTrestore t a s
  | .ttov t n => Sys2Proof.Machine.execTtov t n s
  | .tfromv t n => Sys2Proof.Machine.execTfromv t n s
  | .trel => Sys2Proof.Machine.execTrel s
  | .allred a b o f => Sys2Proof.Machine.execAllred a b o f s
  | .redscat a b o f => Sys2Proof.Machine.execRedscat a b o f s
  | .allgath a b => Sys2Proof.Machine.execAllgath a b s
  | .bcast a b => Sys2Proof.Machine.execBcast a b s
  | .cabort a b => Sys2Proof.Machine.execCabort a b s
  | .cattempt d a b => Sys2Proof.Machine.execCattempt d a b s
  | .tlda n x => Sys2Proof.Machine.execTlda n x s
  | .vadd f d a b k c => Sys2Proof.Machine.execVadd f d a b k c s
  | .vsub f d a b k c => Sys2Proof.Machine.execVsub f d a b k c s
  | .vrsub f d a b k c => Sys2Proof.Machine.execVrsub f d a b k c s
  | .vmul f d a b k c => Sys2Proof.Machine.execVmul f d a b k c s
  | .vmulh f d a b k c => Sys2Proof.Machine.execVmulh f d a b k c s
  | .vdiv f d a b k c => Sys2Proof.Machine.execVdiv f d a b k c s
  | .vrem f d a b k c => Sys2Proof.Machine.execVrem f d a b k c s
  | .vmin f d a b k c => Sys2Proof.Machine.execVmin f d a b k c s
  | .vmax f d a b k c => Sys2Proof.Machine.execVmax f d a b k c s
  | .vfma f d a b k c => Sys2Proof.Machine.execVfma f d a b k c s
  | .vfms f d a b k c => Sys2Proof.Machine.execVfms f d a b k c s
  | .vfnma f d a b k c => Sys2Proof.Machine.execVfnma f d a b k c s
  | .vand f d a b k c => Sys2Proof.Machine.execVand f d a b k c s
  | .vor f d a b k c => Sys2Proof.Machine.execVor f d a b k c s
  | .vxor f d a b k c => Sys2Proof.Machine.execVxor f d a b k c s
  | .vshl f d a b k c => Sys2Proof.Machine.execVshl f d a b k c s
  | .vshr f d a b k c => Sys2Proof.Machine.execVshr f d a b k c s
  | .vsar f d a b k c => Sys2Proof.Machine.execVsar f d a b k c s
  | .vadc f d a b k c => Sys2Proof.Machine.execVadc f d a b k c s
  | .vsbc f d a b k c => Sys2Proof.Machine.execVsbc f d a b k c s
  | .vcmpeq f m a b k c => Sys2Proof.Machine.execVcmpeq f m a b k c s
  | .vcmpne f m a b k c => Sys2Proof.Machine.execVcmpne f m a b k c s
  | .vcmplt f m a b k c => Sys2Proof.Machine.execVcmplt f m a b k c s
  | .vcmple f m a b k c => Sys2Proof.Machine.execVcmple f m a b k c s
  | .vcmpgt f m a b k c => Sys2Proof.Machine.execVcmpgt f m a b k c s
  | .vcmpge f m a b k c => Sys2Proof.Machine.execVcmpge f m a b k c s
  | .vcmpun f m a b k c => Sys2Proof.Machine.execVcmpun f m a b k c s
  | .vmerge f d a b k c => Sys2Proof.Machine.execVmerge f d a b k c s
  | .vabs d a k c => Sys2Proof.Machine.execVabs d a k c s
  | .vneg d a k c => Sys2Proof.Machine.execVneg d a k c s
  | .vnot d a k c => Sys2Proof.Machine.execVnot d a k c s
  | .vsqrt d a k c => Sys2Proof.Machine.execVsqrt d a k c s
  | .vrsqe d a k c => Sys2Proof.Machine.execVrsqe d a k c s
  | .vrcpe d a k c => Sys2Proof.Machine.execVrcpe d a k c s
  | .vexp2 d a k c => Sys2Proof.Machine.execVexp2 d a k c s
  | .vlog2 d a k c => Sys2Proof.Machine.execVlog2 d a k c s
  | .vsigm d a k c => Sys2Proof.Machine.execVsigm d a k c s
  | .vclz d a k c => Sys2Proof.Machine.execVclz d a k c s
  | .vpopc d a k c => Sys2Proof.Machine.execVpopc d a k c s
  | .vcvt d a k c => Sys2Proof.Machine.execVcvt d a k c s
  | .vmv f d b k c => Sys2Proof.Machine.execVmv f d b k c s
  | .vid d k c => Sys2Proof.Machine.execVid d k c s
  | .vslup f d a b k c => Sys2Proof.Machine.execVslup f d a b k c s
  | .vsldn f d a b k c => Sys2Proof.Machine.execVsldn f d a b k c s
  | .vsl1up f d a b k c => Sys2Proof.Machine.execVsl1up f d a b k c s
  | .vsl1dn f d a b k c => Sys2Proof.Machine.execVsl1dn f d a b k c s
  | .vperm d a im k c => Sys2Proof.Machine.execVperm d a im k c s
  | .vcomp d a k c => Sys2Proof.Machine.execVcomp d a k c s
  | .viota d k c => Sys2Proof.Machine.execViota d k c s
  | .vdot4 f d a b k c => Sys2Proof.Machine.execVdot4 f d a b k c s
  | .vdot8 f d a b k c => Sys2Proof.Machine.execVdot8 f d a b k c s
  | .vredsum f d a b k c => Sys2Proof.Machine.execVredsum f d a b k c s
  | .vredmax f d a b k c => Sys2Proof.Machine.execVredmax f d a b k c s
  | .vredmin f d a b k c => Sys2Proof.Machine.execVredmin f d a b k c s
  | .vredand f d a b k c => Sys2Proof.Machine.execVredand f d a b k c s
  | .vredor f d a b k c => Sys2Proof.Machine.execVredor f d a b k c s
  | .vredxor f d a b k c => Sys2Proof.Machine.execVredxor f d a b k c s
  | .vtopm f m a b k c => Sys2Proof.Machine.execVtopm f m a b k c s
  | .vext f d a b c => Sys2Proof.Machine.execVext f d a b c s
  | .vins f d a b c => Sys2Proof.Machine.execVins f d a b c s
  | .mand d a b c => Sys2Proof.Machine.execMand d a b c s
  | .mor d a b c => Sys2Proof.Machine.execMor d a b c s
  | .mxor d a b c => Sys2Proof.Machine.execMxor d a b c s
  | .mandn d a b c => Sys2Proof.Machine.execMandn d a b c s
  | .morn d a b c => Sys2Proof.Machine.execMorn d a b c s
  | .mnot d a c => Sys2Proof.Machine.execMnot d a c s
  | .mmov d a c => Sys2Proof.Machine.execMmov d a c s
  | .mset d c => Sys2Proof.Machine.execMset d c s
  | .mclr d c => Sys2Proof.Machine.execMclr d c s
  | .mshl1 d a c => Sys2Proof.Machine.execMshl1 d a c s
  | .mshr1 d a c => Sys2Proof.Machine.execMshr1 d a c s
  | .mfromx d b c => Sys2Proof.Machine.execMfromx d b c s
  | .vmpop d a k c => Sys2Proof.Machine.execVmpop d a k c s
  | .vmfirst d a k c => Sys2Proof.Machine.execVmfirst d a k c s
  | .vmlast d a k c => Sys2Proof.Machine.execVmlast d a k c s
  | .vpickMax d a k c => Sys2Proof.Machine.execVpickMax d a k c s
  | .vpickMin d a k c => Sys2Proof.Machine.execVpickMin d a k c s
  | .vpushq p a k c => Sys2Proof.Machine.execVpushq p a k c s
  | .vld d b w p k c => Sys2Proof.Machine.execVld d b w p k c s
  | .vlds d b w p k c => Sys2Proof.Machine.execVlds d b w p k c s
  | .vldx d b im w k c => Sys2Proof.Machine.execVldx d b im w k c s
  | .vldseg d b w h k c => Sys2Proof.Machine.execVldseg d b w h k c s
  | .vst v b w n p k c => Sys2Proof.Machine.execVst v b w n p k c s
  | .vsts v b w n p k c => Sys2Proof.Machine.execVsts v b w n p k c s
  | .vstx v b im w k c => Sys2Proof.Machine.execVstx v b im w k c s
  | .vstseg v b w h k c => Sys2Proof.Machine.execVstseg v b w h k c s
  | .vamoAdd v b im k c => Sys2Proof.Machine.execVamoAdd v b im k c s
  | .vamoAnd v b im k c => Sys2Proof.Machine.execVamoAnd v b im k c s
  | .vamoOr v b im k c => Sys2Proof.Machine.execVamoOr v b im k c s
  | .vamoXor v b im k c => Sys2Proof.Machine.execVamoXor v b im k c s
  | .vamoMin v b im k c => Sys2Proof.Machine.execVamoMin v b im k c s
  | .vamoMax v b im k c => Sys2Proof.Machine.execVamoMax v b im k c s
  | .vamoSwap v b im k c => Sys2Proof.Machine.execVamoSwap v b im k c s
  | .vredmSum v b im k c => Sys2Proof.Machine.execVredmSum v b im k c s
  | .vredmMax v b im k c => Sys2Proof.Machine.execVredmMax v b im k c s
  | .vredmMin v b im k c => Sys2Proof.Machine.execVredmMin v b im k c s
  | .vredmAnd v b im k c => Sys2Proof.Machine.execVredmAnd v b im k c s
  | .vredmOr v b im k c => Sys2Proof.Machine.execVredmOr v b im k c s
  | .vredmXor v b im k c => Sys2Proof.Machine.execVredmXor v b im k c s
  | .vspill b sh n => Sys2Proof.Machine.execVspill b sh n s
  | .vfill b sh n => Sys2Proof.Machine.execVfill b sh n s
  | .ldb d b w im => Sys2Proof.Machine.execLdb d b w im s
  | .ldh d b w im => Sys2Proof.Machine.execLdh d b w im s
  | .ldw d b w im => Sys2Proof.Machine.execLdw d b w im s
  | .ldd d b w im => Sys2Proof.Machine.execLdd d b w im s
  | .ldbn d b w im => Sys2Proof.Machine.execLdbn d b w im s
  | .ldhn d b w im => Sys2Proof.Machine.execLdhn d b w im s
  | .ldwn d b w im => Sys2Proof.Machine.execLdwn d b w im s
  | .stb sh b w im => Sys2Proof.Machine.execStb sh b w im s
  | .sth sh b w im => Sys2Proof.Machine.execSth sh b w im s
  | .stw sh b w im => Sys2Proof.Machine.execStw sh b w im s
  | .std sh b w im => Sys2Proof.Machine.execStd sh b w im s
  | .amoAdd d a b w z => Sys2Proof.Machine.execAmoAdd d a b w z s
  | .amoAnd d a b w z => Sys2Proof.Machine.execAmoAnd d a b w z s
  | .amoOr d a b w z => Sys2Proof.Machine.execAmoOr d a b w z s
  | .amoXor d a b w z => Sys2Proof.Machine.execAmoXor d a b w z s
  | .amoMin d a b w z => Sys2Proof.Machine.execAmoMin d a b w z s
  | .amoMax d a b w z => Sys2Proof.Machine.execAmoMax d a b w z s
  | .amoMinn d a b w z => Sys2Proof.Machine.execAmoMinn d a b w z s
  | .amoMaxn d a b w z => Sys2Proof.Machine.execAmoMaxn d a b w z s
  | .amoSwap d a b w z => Sys2Proof.Machine.execAmoSwap d a b w z s
  | .amoCas d a b w z => Sys2Proof.Machine.execAmoCas d a b w z s
  | .wlast d => Sys2Proof.Machine.execWlast d s
  | .wjoin d a b => Sys2Proof.Machine.execWjoin d a b s
  | .wmax d a b => Sys2Proof.Machine.execWmax d a b s
  | .wtest d a => Sys2Proof.Machine.execWtest d a s
  | .wwait a => Sys2Proof.Machine.execWwait a s
  | .wsettle a => Sys2Proof.Machine.execWsettle a s
  | .wnull d => Sys2Proof.Machine.execWnull d s
  | .copyLinear d a b t => Sys2Proof.Machine.execCopyLinear d a b t s
  | .copyBox d a b t => Sys2Proof.Machine.execCopyBox d a b t s
  | .copyTilea d a b f t => Sys2Proof.Machine.execCopyTilea d a b f t s
  | .copyTileb d a b f t => Sys2Proof.Machine.execCopyTileb d a b f t s
  | .copyTilec d a b f t => Sys2Proof.Machine.execCopyTilec d a b f t s
  | .copyFill d a b f t => Sys2Proof.Machine.execCopyFill d a b f t s
  | .copyRemote d a b t => Sys2Proof.Machine.execCopyRemote d a b t s
  | .ckick a => Sys2Proof.Machine.execCkick a s
  | .qbindMem a p => Sys2Proof.Machine.execQbindMem a p s
  | .qbindCopy p => Sys2Proof.Machine.execQbindCopy p s
  | .qbindFifo p => Sys2Proof.Machine.execQbindFifo p s
  | .qunbind p => Sys2Proof.Machine.execQunbind p s
  | .qstat d p => Sys2Proof.Machine.execQstat d p s
  | .qdrain p => Sys2Proof.Machine.execQdrain p s
  | .binit a b => Sys2Proof.Machine.execBinit a b s
  | .arrive a k => Sys2Proof.Machine.execArrive a k s
  | .bwait a d => Sys2Proof.Machine.execBwait a d s
  | .bexpect a b => Sys2Proof.Machine.execBexpect a b s
  | .waitc a c => Sys2Proof.Machine.execWaitc a c s
  | .rdcnt d c => Sys2Proof.Machine.execRdcnt d c s
  | .pgate a b => Sys2Proof.Machine.execPgate a b s
  | .pwait a b => Sys2Proof.Machine.execPwait a b s
  | .ppub d a b => Sys2Proof.Machine.execPpub d a b s
  | .epochWrite a => Sys2Proof.Machine.execEpochWrite a s
  | .mtcrFs core slot => Sys2Proof.Machine.execMtcrFs core slot s
  | .mtcrPw core slot => Sys2Proof.Machine.execMtcrPw core slot s
  | .mtcrPtb core slot => Sys2Proof.Machine.execMtcrPtb core slot s
  | .sctctlStart fw => Sys2Proof.Machine.execSctctlStart fw s
  | .sctctlAbort fw => Sys2Proof.Machine.execSctctlAbort fw s
  | .sctctlResetcore fw => Sys2Proof.Machine.execSctctlResetcore fw s
  | .testDrainDone fw => Sys2Proof.Machine.execTestDrainDone fw s
  | .testPatternEnd fw => Sys2Proof.Machine.execTestPatternEnd fw s
  | .testAutoAbort fw => Sys2Proof.Machine.execTestAutoAbort fw s
  | .testResetDone fw => Sys2Proof.Machine.execTestResetDone fw s
  | .arbiterDecision core u => Sys2Proof.Machine.execArbiterDecision core u s
  | .queueEntryComplete core slot q => Sys2Proof.Machine.execQueueEntryComplete core slot q s
  | .pushResume core slot => Sys2Proof.Machine.execPushResume core slot s
  | .drainEnd core slot => Sys2Proof.Machine.execDrainEnd core slot s
  | .loadDataReturn core slot => Sys2Proof.Machine.execLoadDataReturn core slot s
  | .witnessWaitEnd core slot => Sys2Proof.Machine.execWitnessWaitEnd core slot s
  | .gatePass core slot => Sys2Proof.Machine.execGatePass core slot s
  | .waitcEnd core slot => Sys2Proof.Machine.execWaitcEnd core slot s
  | .bwaitReturn core slot => Sys2Proof.Machine.execBwaitReturn core slot s
  | .arriveAction core slot => Sys2Proof.Machine.execArriveAction core slot s
  | .vlmaxNegotiation core slot => Sys2Proof.Machine.execVlmaxNegotiation core slot s
  | .settileStorageClaim core slot => Sys2Proof.Machine.execSettileStorageClaim core slot s
  | .waiteTimeout core slot => Sys2Proof.Machine.execWaiteTimeout core slot s
  | .yieldExpiry core slot => Sys2Proof.Machine.execYieldExpiry core slot s
  | .groupExitDrained core slot => Sys2Proof.Machine.execGroupExitDrained core slot s
  | .arrayModeChange core => Sys2Proof.Machine.execArrayModeChange core s
  | .pageWalk core slot va acc => Sys2Proof.Machine.execPageWalk core slot va acc s
  | .elementPerform im => Sys2Proof.Machine.execElementPerform im s
  | .l1StoreUpdate im => Sys2Proof.Machine.execL1StoreUpdate im s
  | .entryComplete core slot => Sys2Proof.Machine.execEntryComplete core slot s
  | .notifyUpdate core slot => Sys2Proof.Machine.execNotifyUpdate core slot s
  | .ppubUpdate core slot => Sys2Proof.Machine.execPpubUpdate core slot s
  | .portFetch core slot port => Sys2Proof.Machine.execPortFetch core slot port s
  | .copyRequestBegin core slot => Sys2Proof.Machine.execCopyRequestBegin core slot s
  | .copySectorPerform core slot => Sys2Proof.Machine.execCopySectorPerform core slot s
  | .trapDelivery core slot => Sys2Proof.Machine.execTrapDelivery core slot s
  | .taskKill task why => Sys2Proof.Machine.execTaskKill task why s
  | .preemption task cluster => Sys2Proof.Machine.execPreemption task cluster s
  | .resume task cluster => Sys2Proof.Machine.execResume task cluster s
  | .checkpoint team => Sys2Proof.Machine.execCheckpoint team s
  | .rollback team => Sys2Proof.Machine.execRollback team s
  | .uncorrectableError place => Sys2Proof.Machine.execUncorrectableError place s
  | .columnMapout core => Sys2Proof.Machine.execColumnMapout core s
  | .commandAccept q => Sys2Proof.Machine.execCommandAccept q s
  | .queueSelection part => Sys2Proof.Machine.execQueueSelection part s
  | .placementPass task => Sys2Proof.Machine.execPlacementPass task s
  | .commandFinal q => Sys2Proof.Machine.execCommandFinal q s
  | .launch q => Sys2Proof.Machine.execLaunch q s
  | .copyCommand q => Sys2Proof.Machine.execCopyCommand q s
  | .signal q => Sys2Proof.Machine.execSignal q s
  | .wait q => Sys2Proof.Machine.execWait q s
  | .depend q => Sys2Proof.Machine.execDepend q s
  | .refill q => Sys2Proof.Machine.execRefill q s
  | .cancel q => Sys2Proof.Machine.execCancel q s
  | .mark q => Sys2Proof.Machine.execMark q s
  | .deviceEventJournal reason tag => Sys2Proof.Machine.execDeviceEventJournal reason tag s
  | .chargeRead => Sys2Proof.Machine.execChargeRead s
  | .periodEnd q => Sys2Proof.Machine.execPeriodEnd q s
  | .powerSample watts => Sys2Proof.Machine.execPowerSample watts s
  | .thermalCap die => Sys2Proof.Machine.execThermalCap die s
  | .thermalRelease die => Sys2Proof.Machine.execThermalRelease die s
  | .thermalTrip => Sys2Proof.Machine.execThermalTrip s
  | .supplyDroop die => Sys2Proof.Machine.execSupplyDroop die s
  | .alarmExpiry die => Sys2Proof.Machine.execAlarmExpiry die s
  | .memoryTrained => Sys2Proof.Machine.execMemoryTrained s
  | .deviceReset => Sys2Proof.Machine.execDeviceReset s
  | .dbw q v => Sys2Proof.Machine.execDbw q v s
  | .mmr off => Sys2Proof.Machine.execMmr off s
  | .mmw off v => Sys2Proof.Machine.execMmw off v s
  | .dmr pa mask => Sys2Proof.Machine.execDmr pa mask s
  | .dmw pa bytes => Sys2Proof.Machine.execDmw pa bytes s
  | .hostCompletion im => Sys2Proof.Machine.execHostCompletion im s
  | .qload q => Sys2Proof.Machine.execQload q s
  | .mmioerrClear => Sys2Proof.Machine.execMmioerrClear s
  | .partitionTableWrite im v => Sys2Proof.Machine.execPartitionTableWrite im v s
  | .osrefuseClear => Sys2Proof.Machine.execOsrefuseClear s
  | .queueSettings => Sys2Proof.Machine.execQueueSettings s
  | .translationInvalidation => Sys2Proof.Machine.execTranslationInvalidation s
  | .invalidationAck => Sys2Proof.Machine.execInvalidationAck s
  | .partitionReset => Sys2Proof.Machine.execPartitionReset s
  | .modulePowerLimit => Sys2Proof.Machine.execModulePowerLimit s
  | .firmwareUpdate => Sys2Proof.Machine.execFirmwareUpdate s
  | .attestation => Sys2Proof.Machine.execAttestation s
  | .measurementExtend => Sys2Proof.Machine.execMeasurementExtend s
  | .ownershipRelease => Sys2Proof.Machine.execOwnershipRelease s
  | .enrolment => Sys2Proof.Machine.execEnrolment s
  | .ucieModuleFail m => Sys2Proof.Machine.execUcieModuleFail m s
  | .flitReceive fl => Sys2Proof.Machine.execFlitReceive fl s
  | .portDown p => Sys2Proof.Machine.execPortDown p s
  | .abortToken comm attempt => Sys2Proof.Machine.execAbortToken comm attempt s
  | .mtcrAsid core slot => Sys2Proof.Machine.execMtcrAsid core slot s
  | .mailboxRequestComplete => Sys2Proof.Machine.execMailboxRequestComplete s
  | .firmwareCoreReturn fw => Sys2Proof.Machine.execFirmwareCoreReturn fw s
  | .correctedError place => Sys2Proof.Machine.execCorrectedError place s
  | .coreLogicError core => Sys2Proof.Machine.execCoreLogicError core s
  | .qseqMsgIntervalEnd q => Sys2Proof.Machine.execQseqMsgIntervalEnd q s

end Sys2Proof.Machine
end

