-- ==== Sys2Proof/Machine/Fetch.lean ====
section
/-! DEFINITION. Fetching an instruction's word (R37, R143, R221), and placing one where it is fetched (log 4). -/

namespace Sys2Proof.Machine

/-- Key of a cached word (R221). -/
def icacheKey (asid addr : Nat) : Nat := asid * 2 ^ 46 + addr / 4

/-- A fetched word, or the fault of the fetch (R37, R215, R216). -/
def fetchWord (s : State) (core slot : Nat) (g : Group) : State × Except (Nat × Word) (BitVec 32) :=
  let ctx := ctxOf s core slot g
  let pc := g.sca.pc
  if pc.toNat % 4 != 0 then (s, .error (cMisaligned, pc))
  else
    let sps := spans s ctx .fetch pc 4
    match accessFault sps with
    | some f => (s, .error f)
    | none =>
      let s1 := touchSpans s ctx false sps
      match spanRefs sps with
      | (key, _, _, _) :: _ =>
        let fresh : BitVec 32 := BitVec.ofNat 32 (memNat s1.mem key 4)
        if poisoned s1 (key / 48) then (s1, .error (cMachine, pc - BitVec.ofNat 64 (key % 48)))
        else
          let ik := icacheKey ctx.asid pc.toNat
          let hit := (s1.core core).icache.any fun e => e.1 == ik
          let s1 := countAccess s1 core slot key false (!hit)
          let co := s1.core core
          let word : BitVec 32 := match co.icache.find? fun e => e.1 == ik with
            | some old => if old.2 != fresh && Config.staleWord s.tick then old.2 else fresh
            | none => fresh
          (s1.setCore core { co with icache := ((ik, word) :: co.icache.filter fun e => e.1 != ik).take 16384 }, .ok word)
      | [] => (s1, .error (cTranslation, pc))

/-! ## Placing a word (log 4) -/

/-- The address at which the placed group starts. -/
def placeEntry : Word := 0

/-- Physical addresses of the placed group's four tables and its page. -/
def placeTop : Nat := 0x10_0000
def placePage : Nat := 49152

/-- A placed group's page table: one page of 48 KiB at virtual address 0, with every right. -/
def placeTables (s : State) : State :=
  let s1 := writeNat s placeTop 8 (0x10_8000 + 1)
  let s2 := writeNat s1 0x10_8000 8 (0x10_C000 + 1)
  let s3 := writeNat s2 0x10_C000 8 (0x10_D000 + 1)
  writeNat s3 0x10_D000 8 (placePage + 0x3F)

/-- The task of the placed group: one cluster of one team of one group. -/
def placeTask (s : State) : Task :=
  { queue := 0, jidx := 0
    descr := { entry := placeEntry, args := 0, tvec := 0, clusters := 1, vlmax := 128, slices := 128, region := 196608, frame := 4096,
               groups := 1, width := 1, height := 1, klass := 2, attr := 0, addr := 0 }
    argp := 0, cword := 0, gate := 0, faultrec := 0, next := 1, live := FMap.set 0 [] 0 (s.now + 1), finished := 0, fail := none,
    more := 0, kill := none, pri := 0, placing := false, due := false, asked := [] }

/-- Firmware cores that have returned from their reset without a group, so that no firmware runs beside the placed word. -/
def quietFirmware (s : State) : State := { s with cores := (s.cores.map fun c => (c.1, { c.2 with down := false })).filter (·.2 != .empty) }

/-- A team of one group on core 0 as a launch places it. -/
def placeGroup (s : State) : State :=
  let t := s.nextTeam
  let k := s.nextTask
  let team : Team :=
    { task := k, cluster := 0, cidx := 0, core := 0, slots := [0], region := 0, size := 196608, frame := 4096, groups := 1,
      cores := [0], resilient := none, cut := false, roll := none, inside := false }
  let g := freshGroup
    { entry := placeEntry, argp := 0, vlmax := 128, gidx := 0, cidx := 0, cluster := 0, region := 196608, frame := 4096,
      team := t, share := 1, gpri := 0, tattr := 0, alloc := 128, tvec := 0, ptb := BitVec.ofNat 64 placeTop, asid := 1,
      units := 8 }
  ((({ placeTables (quietFirmware s) with nextTeam := t + 1, nextTask := k + 1 }).setTask k (some (placeTask s))).setTeam t (some team)).enterSlot 0 0 g

end Sys2Proof.Machine
end

