-- ==== Sys2Proof/Machine/Schedule.lean ====
section
/-! DEFINITION. Who goes next: the events that may happen, the streams that may run, the passing of time (R14, R15, R27, R202,
R303; log 1, log 2, log 3). -/

namespace Sys2Proof.Machine

/-! ## Events that the device brings about by itself -/

/-- Events of one group. -/
noncomputable def slotEvents (c k : Nat) : List Instr :=
  [.queueEntryComplete c k .vector, .queueEntryComplete c k .matrix, .queueEntryComplete c k .copy, .entryComplete c k,
   .notifyUpdate c k, .ppubUpdate c k, .copyRequestBegin c k, .copySectorPerform c k, .trapDelivery c k, .drainEnd c k,
   .pushResume c k, .loadDataReturn c k, .witnessWaitEnd c k, .gatePass c k, .waitcEnd c k, .bwaitReturn c k]
  ++ [.arriveAction c k, .vlmaxNegotiation c k, .settileStorageClaim c k, .waiteTimeout c k, .yieldExpiry c k,
   .groupExitDrained c k, .mtcrFs c k, .mtcrPw c k, .mtcrPtb c k, .mtcrAsid c k]
  ++ (List.range 8).map fun p => .portFetch c k p

/-- Events of a core's units. -/
noncomputable def unitEvents (c : Nat) : List Instr :=
  [.arbiterDecision c .vector, .arbiterDecision c .matrixWhole, .arbiterDecision c (.matrixHalf 0), .arbiterDecision c (.matrixHalf 1),
   .arbiterDecision c (.matrixQuarter 0), .arbiterDecision c (.matrixQuarter 1), .arbiterDecision c (.matrixQuarter 2),
   .arbiterDecision c (.matrixQuarter 3), .arbiterDecision c .copy, .arrayModeChange c]

/-- Events of the writes under way. -/
noncomputable def flightEvents (s : State) : List Instr :=
  (List.range s.flights.length).flatMap fun i => [.elementPerform i, .hostCompletion i, .l1StoreUpdate i]

/-- Events of a team: a cluster that is to be pre-empted takes its checkpoint on the way (R351, R355). -/
noncomputable def teamEvents (s : State) : List Instr :=
  s.teams.flatMap fun e =>
    match e.2 with
    | some t => if preemptWanted s t.task t.cluster then [.rollback e.1, .preemption t.task t.cluster, .checkpoint e.1]
        else [.rollback e.1, .checkpoint e.1]
    | none => []

/-- Events of the tasks and of the clusters in the context pool. -/
noncomputable def taskEvents (s : State) : List Instr :=
  (s.tasks.flatMap fun e =>
    match e.2 with
    | some k => [.taskKill e.1 (k.kill.getD 0), .placementPass e.1]
    | none => []) ++ s.saved.map fun v => .resume v.task v.cluster

/-- Events of a command queue at a reference tick. -/
noncomputable def queueEvents (ticks : Nat) (e : Nat × CmdQueue) : List Instr :=
  let q := e.1
  [.commandAccept q, .launch q, .copyCommand q, .signal q, .wait q, .depend q, .refill q, .cancel q, .mark q, .commandFinal q,
   .qseqMsgIntervalEnd q] ++ (if e.2.periodOver ticks then [.periodEnd q] else [])

/-- Events of the Trowel that are no queue's. -/
noncomputable def trowelEvents (s : State) : List Instr :=
  (if s.queues.isEmpty then [] else (List.range 8).map .queueSelection) ++ (s.trowel.events.map fun e => .deviceEventJournal e.1 e.2)
    ++ ((s.trowel.weeder.filterMap (doorEvent s)).map fun e => .deviceEventJournal e.1 e.2)
    ++ (if s.liveGroups.isEmpty then [] else [.chargeRead])
    ++ s.trowel.removals.flatMap fun r => if r.2 then (if teamOn s r.1 then [] else [.coreLogicError r.1]) else [.columnMapout r.1]

/-- Events of the mailbox, while it is busy. -/
noncomputable def mailEvents (s : State) : List Instr :=
  if s.trowel.mail.busy then
    [.queueSettings, .translationInvalidation, .invalidationAck, .partitionReset, .modulePowerLimit, .firmwareUpdate, .attestation,
     .measurementExtend, .ownershipRelease, .enrolment, .mailboxRequestComplete]
  else []

/-- Events of the firmware cores' test blocks and of their resets. -/
noncomputable def testEvents (s : State) : List Instr :=
  (List.range 4).flatMap fun i =>
    (if (s.test i).busy then [.testDrainDone i, .testPatternEnd i, .testAutoAbort i, .testResetDone i] else [])
      ++ if (s.core (288 + i)).down then [.firmwareCoreReturn i] else []

/-- Events that time brings, and those of the links: memory is trained 200 ms after reset at the latest (R391). -/
noncomputable def timedEvents (s : State) : List Instr :=
  (if 250000000 ≤ s.now then [.memoryTrained] else []) ++ s.dies.map (fun d => .alarmExpiry d.1) ++ s.fabric.replays.map fun p => .portDown (p.1 % 64)

/-- Events of the Trowel's duties, which wait while no firmware core has them (R384). -/
noncomputable def dutyEvents (s : State) : List Instr :=
  if dutyTaken s 0 then taskEvents s ++ s.queues.flatMap (queueEvents s.refTicks) ++ trowelEvents s ++ mailEvents s else []

/-- Every event that might come next, checked one by one where it is carried out. -/
noncomputable def possibleEvents (s : State) : List Instr :=
  (s.liveGroups.flatMap fun e => slotEvents e.1 e.2.1)
    ++ ((s.cores.filter fun c => c.2.slots.any fun k => k.2.group.isSome).flatMap fun c => unitEvents c.1)
    ++ flightEvents s ++ teamEvents s ++ dutyEvents s ++ testEvents s ++ timedEvents s

/-- Whether an event can happen now. -/
noncomputable def happens (s : State) (i : Instr) : Bool :=
  match exec i s with
  | .next _ => true
  | _ => false

/-- The events that can happen. -/
noncomputable def enabledEvents (s : State) : List Instr := (possibleEvents s).filter (happens s)

/-! ## Streams (R14, R140, R141, R351, R361) -/

/-- Whether a team's rollback, kill or checkpoint keeps a group's stream from running; a handler runs on until its queues are
empty. -/
def streamHeld (s : State) (g : Group) : Bool :=
  match s.teamOf g with
  | some t => t.roll.isSome || (s.task t.task).any (·.kill.isSome) || (t.cut && !(g.trp.frozen && !drained g))
  | none => false

/-- Whether a stream can execute an instruction: it runs, or the event that its WAITE selects has occurred. -/
def streamReady (s : State) (g : Group) : Bool :=
  !streamHeld s g
    && match g.sca.status with
      | .running => true
      | .waiting (.waite sel _) => g.sca.latch &&& sel != 0
      | _ => false

/-- Scalar pipelines of a core (R14, R384). -/
def pipelines (core : Nat) : Nat := if isFirmware core then 1 else if coreClass core == 0 then 4 else 2

/-- The slot that a scalar pipeline serves: the lowest ready one that it did not serve in its previous cycle and that has not yielded, else one
that yielded, else the same again (R14, R141). -/
def pipelinePick (s : State) (core p : Nat) : Option Nat :=
  let ready := (s.core core).slots.filterMap fun e =>
    e.2.group.bind fun g => if e.1 % pipelines core == p && streamReady s g then some (e.1, g) else none
  let last := FMap.get 0 (s.core core).served p
  let fresh := ready.filter fun e => e.2.sca.yieldUntil ≤ s.cyc core
  let other (xs : List (Nat × Group)) : Option Nat := (xs.find? fun e => e.1 + 1 != last).map (·.1)
  ((other fresh).orElse fun _ => (fresh.head?.map (·.1))).orElse fun _ => (other ready).orElse fun _ => ready.head?.map (·.1)

/-- Streams that may go next: one of each scalar pipeline. -/
def readyStreams (s : State) : List (Nat × Nat) :=
  (s.cores.filter fun c => c.2.slots.any fun k => k.2.group.isSome).flatMap fun c =>
    (List.range (pipelines c.1)).filterMap fun p => (pipelinePick s c.1 p).map fun k => (c.1, k)

/-! ## The choice -/

/-- What the device does next. -/
inductive Move where
  | event (i : Instr)
  | stream (core slot : Nat)
  /-- Nothing can happen before more time has passed. -/
  | wait
  deriving DecidableEq, Repr

/-- One of several moves, by the free schedule (log 2). -/
def chooseMove (tick : Nat) : List Move → Move
  | [] => .wait
  | [m] => m
  | m :: ms => (m :: ms).getD (Config.schedule tick % (ms.length + 1)) m

/-- The next move: at the prompt pace events go before streams, at the lagged pace any may go (log 1). -/
noncomputable def nextMove (s : State) : Move :=
  let es := (enabledEvents s).map Move.event
  let ss := (readyStreams s).map fun p => Move.stream p.1 p.2
  chooseMove s.tick (if s.pace = .lagged then es ++ ss else if es.isEmpty then ss else es)

/-! ## Running a stream (R15, R37, R54, R303) -/

/-- Whether a word is of the scalar class, by its major opcode (R15). -/
def scalarWord (w : BitVec 32) : Bool :=
  let m := (w.extractLsb' 25 7).toNat
  decide (m ≤ 0x23) || (decide (0x6C ≤ m) && decide (m ≤ 0x78)) || (decide (0x7C ≤ m) && decide (m ≤ 0x7E))

/-- A fault found before an instruction executes stands at its convoy's first word (R24, R351). DEDUCED (log 20): for a fault of the fetch,
and for an undefined word of the scalar, matrix or copy class right after a word with C = 1, which R54 can be read to name itself. -/
def fetchFault (s : State) (core slot : Nat) (g : Group) (code : Nat) (addr : Word) : State :=
  scalarFault s core slot (if g.sca.openWords.isEmpty then g else g.setPc g.sca.openPc) code addr

/-- The scalar pipeline has served a slot. -/
def serve (s : State) (core slot : Nat) : State :=
  let co := s.core core
  { s.setCore core { co with served := FMap.set 0 co.served (slot % pipelines core) (slot + 1) } with curCore := core, curSlot := slot }

/-- Whether an execution of a word is not counted: one that has to execute again, or the end of a WAITE that was counted as it began to
wait (R303). -/
def uncounted (before : Group) (after : State) (core slot : Nat) : Bool :=
  let again (g : Group) : Bool := match g.sca.status with
    | .waiting (.drain _) | .waiting (.push _) | .waiting .fencei => true
    | _ => false
  (match before.sca.status with
    | .waiting (.waite _ _) => true
    | _ => false)
  || match after.group? core slot with
    | some g => again g
    | none => true

/-- A scalar instruction counted once it has executed (R303). -/
def countScalar (core slot : Nat) (before : Group) : Out → Out
  | .next s => .next (if uncounted before s core slot then s else s.tally core slot 1 1)
  | o => o

/-- The step of a stream: fetch, decode, execute. -/
noncomputable def runStream (s : State) (core slot : Nat) (g : Group) : Out :=
  match fetchWord (serve s core slot) core slot g with
  | (s1, .error f) => .next (fetchFault s1 core slot g f.1 f.2)
  | (s1, .ok w) =>
    match decodeWord w.toNat with
    | .ok i => if scalarWord w then countScalar core slot g (exec i s1) else exec i s1
    | .error _ => .next (fetchFault s1 core slot g cUndefined (w.zeroExtend 64))

/-! ## A word placed where the next stream fetches (log 4) -/

/-- A word written where a group's pc fetches, with the instruction cache's older word dropped. -/
def placeAtPc (s : State) (core slot w : Nat) (g : Group) : State :=
  let ctx := ctxOf s core slot g
  match spanRefs (spans s ctx .fetch g.sca.pc 4) with
  | (key, _, _, _) :: _ =>
    let s1 := writeNat s key 4 w
    let co := s1.core core
    s1.setCore core { co with icache := co.icache.filter fun e => e.1 != icacheKey ctx.asid g.sca.pc.toNat }
  | [] => s

/-- A word placed for the stream that goes next; with no live group, for one team of one group as a launch places it. -/
noncomputable def placeWord (s : State) (w : Nat) : State :=
  if s.liveGroups.isEmpty then writeNat (placeGroup s) placePage 4 w
  else
    match nextMove s with
    | .stream c k =>
      match s.group? c k with
      | some g => placeAtPc s c k w g
      | none => s
    | _ => s

/-! ## Time (R27, R202) -/

/-- Core cycles in which a head of another array mode has been ready (R202). -/
def Core.waitMode (co : Core) (other : Bool) (cycles : Nat) : Core := { co with modeWait := if other then co.modeWait + cycles else 0 }

/-- The array modes of the cores, after some cycles. -/
def waitModes (s : State) (cycles : Nat) : State :=
  s.cores.foldl (fun a c =>
    if c.2.modeWait == 0 && !(c.2.slots.any fun k => match k.2.group with | some g => !g.que.mq.isEmpty | none => false) then a
    else a.setCore c.1 ((a.core c.1).waitMode (!(modeHeads s c.1).2.isEmpty) cycles)) s

/-- Slots that pipelines served in their previous cycles: a pipeline without a ready slot serves none (R14). -/
def servedNow (s : State) (core : Nat) : FMap Nat :=
  (s.core core).served.filter fun e => (pipelinePick s core e.1).isSome

/-- Idle cycles of the cores' pipelines. -/
def idlePipelines (s : State) : State :=
  s.cores.foldl (fun a c => if c.2.served.isEmpty then a else a.setCore c.1 { a.core c.1 with served := servedNow s c.1 }) s

/-- Time passes: at least one core cycle (log 3). -/
def passTime (s : State) : State :=
  let n := 1 + Config.elapsed s.tick
  let s1 := waitModes (idlePipelines s) n
  { s1 with tick := s1.tick + 1, now := s1.now + n }

/-- The Weeder's structures are kept, and time passes, after a step that answers a state (R413). -/
def afterStep : Out → Out
  | .next s => .next (passTime (keepWeeder s))
  | o => o

/-- A happening from outside: an instruction word is none. -/
noncomputable def happening (i : Instr) (s : State) : Out := if (encode i).isSome then .refused (.notEnabled "AGENDA") else exec i s

end Sys2Proof.Machine
end

