-- ==== Sys2Proof/Machine/Step.lean ====
section
/-! DEFINITION. One step of the device, and a word placed where the next step fetches. -/

namespace Sys2Proof.Machine

/-- One step: what the outside has put on the agenda first, else the device's own next move. -/
noncomputable def step (s : State) : Host.Outcome State Fault Refusal :=
  match s.agenda with
  | i :: rest => afterStep (happening i { s with agenda := rest })
  | [] =>
    if !s.powered then .fault .poweredOff
    else
      match nextMove s with
      | .event i => afterStep (exec i s)
      | .stream c k =>
        match s.group? c k with
        | some g => afterStep (runStream s c k g)
        | none => .fault .noGroup
      | .wait => .next (passTime s)

/-- A word stored where the next step fetches (log 4); the agenda is emptied. -/
noncomputable def State.withFetchWord (s : State) (_nbits w : Nat) : State := placeWord { s with agenda := [] } w

end Sys2Proof.Machine
end

