-- ==== Sys2Proof/Safety.lean ====
section
/-! DEFINITION. What counts as a safe run, and the terms in which the statements speak: when a scalar word executes at
once, and how it ends. -/

namespace Sys2Proof

/-- Memory keeps its canonical form. -/
def Safe (s : Machine.State) : Prop := Machine.Memory.wf s.mem = true

end Sys2Proof

namespace Sys2Proof.Machine

/-- The module has power, the slot whose step it is holds `g`, no convoy is open in its stream, and none of the registers
`rs` is tagged by a queued member (R18, R24). The stream's status is left free: a word that has waited executes again. -/
structure Ready (s : State) (g : Group) (rs : List (BitVec 5)) : Prop where
  powered : s.powered = true
  group : s.group? s.curCore s.curSlot = some g
  closed : g.sca.openWords = []
  untagged : ∀ r ∈ rs, g.tagged r.toNat = false

/-- The word completes: x `d` is `v`, the stream is at the next word, and nothing else has changed. -/
def writes (s : State) (g : Group) (d : BitVec 5) (v : Word) : Out := .next (s.put (g.run.setX d.toNat v).advance)

/-- The word completes without a register result: the stream is at the next word, and nothing else has changed. -/
def passes (s : State) (g : Group) : Out := .next (s.put g.run.advance)

/-- The word completes with the stream at `pc`, and nothing else has changed. -/
def goes (s : State) (g : Group) (pc : Word) : Out := .next (s.put (g.run.setPc pc))

/-- The word raises the fault `code` with `addr`: the fault is recorded, the stream stopped, the pc at the word. -/
def traps (s : State) (g : Group) (code : Nat) (addr : Word) : Out := .next (s.put (g.run.raiseScalar code addr))

/-! ## Encodings -/

/-- Words that the manual prints, each with the instruction that it prints beside it. -/
noncomputable def printedWords : List (Nat × Instr) :=
  [(0x12512345, .lui 5 0x12345), (0x04528678, .addi 5 5 0x678), (0x1863800F, .fcvti 6 7 0), (0x18638813, .fcvtp 6 7 2 0),
   (0x3CA58000, .setvl 10 11 0 0 0), (0x420000C0, .setbase 0 0 192), (0x46A58000, .vlenq 10 11), (0x34058000, .trap 11),
   (0x22C07FFB, .bne 12 0 0x7FFB), (0x568409A1, .vmul 1 2 1 13 0 1), (0x62021061, .vfma 0 1 2 3 0 1), (0x7D042004, .vcmplt 2 2 4 0 2 0),
   (0x750A2802, .vadc 2 5 5 0 1 0), (0x88061060, .vsqrt 3 2 0 0), (0x8D820040, .vmv 3 1 2 0 0), (0xB4000012, .mshl1 0 0 0),
   (0xB48400F6, .mfromx 2 7 0), (0xB6161800, .vmpop 11 3 0 0), (0xBD141806, .vpickMax 10 3 3 0), (0xAF021202, .vtopm 2 1 2 16 1 0)]
  ++ [(0xA2000840, .vredsum 0 0 1 2 0 0), (0x9E0A0840, .vdot4 0 5 1 2 0 0), (0x48134000, .tmma 2 13 0 0), (0x48135200, .tmma 2 13 1 1),
   (0x48027400, .tmmaOvr 0 9 3 0), (0x4A100000, .tzero 1), (0x4A073C32, .tstacc 0 14 15 3), (0x4A000045, .ttov 0 4), (0x4A000007, .trel),
   (0x4E130000, .tlda 2 12), (0xC21A8A00, .vlds 3 10 5 0 0 0), (0xC4230664, .vldx 4 12 6 3 2 0), (0xC6450040, .vldseg 8 20 0 2 0 0),
   (0xC00B0101, .vld 1 12 0 2 0 1), (0xC8139300, .vst 2 14 9 1 0 0 0), (0xD02B0600, .vamoAdd 5 12 6 0 0),
   (0xD2130302, .vredmSum 2 12 3 1 0), (0xDE531C02, .ldd 5 6 7 2), (0xEA449802, .stw 4 9 6 2), (0xECA68000, .std 10 13 0 0)]
  ++ [(0xF0900000, .wlast 9), (0xF0A29801, .wjoin 10 5 6), (0xEE551939, .amoCas 5 10 6 9 1), (0xF34B5CD3, .copyTileb 20 22 23 3 1),
   (0xF4060000, .ckick 12), (0xF6058020, .qbindMem 11 2), (0xF6A00022, .qstat 10 2), (0xFA058010, .waitc 11 1), (0xFAA00031, .rdcnt 10 3),
   (0xFC063400, .pgate 12 13), (0xFC963402, .ppub 9 12 13), (0xF80A2C00, .binit 20 11), (0xF80A0031, .arrive 20 3), (0xF80A0012, .bwait 20 1),
   (0xF80A3003, .bexpect 20 12), (0x4C063410, .allred 12 13 0 1), (0x4C063531, .redscat 12 13 1 3), (0x4CA63405, .cattempt 10 12 13)]

/-! ## The machine as a whole -/

/-- The x registers that a word without memory, queue or control register writes (R125 to R138). -/
noncomputable def registersWritten : Instr → Option (List Nat)
  | .add d _ _ | .sub d _ _ | .and d _ _ | .or d _ _ | .xor d _ _ | .andn d _ _ | .shl d _ _ | .shr d _ _ | .sar d _ _ => some [d.toNat]
  | .rol d _ _ | .ror d _ _ | .mul d _ _ | .mulh d _ _ | .mulhn d _ _ | .div d _ _ | .divn d _ _ | .rem d _ _ => some [d.toNat]
  | .remn d _ _ | .min d _ _ | .max d _ _ | .minn d _ _ | .maxn d _ _ | .slt d _ _ | .sltn d _ _ => some [d.toNat]
  | .sext d _ _ | .zext d _ _ | .addw d _ _ | .subw d _ _ => some [d.toNat]
  | .clz d _ | .ctz d _ | .popc d _ | .brev d _ | .bswap d _ => some [d.toNat]
  | .addi d _ _ | .andi d _ _ | .ori d _ _ | .xori d _ _ | .slti d _ _ | .sltni d _ _ => some [d.toNat]
  | .shli d _ _ | .shri d _ _ | .sari d _ _ | .roli d _ _ => some [d.toNat]
  | .lui d _ | .addpc d _ | .luih d _ => some [d.toNat]
  | .fadd d _ _ _ | .fsub d _ _ _ | .fmul d _ _ _ | .fdiv d _ _ _ | .fmin d _ _ _ | .fmax d _ _ _ => some [d.toNat]
  | .fmad d _ _ _ | .fmsb d _ _ _ | .fnma d _ _ _ | .fsgn d _ _ _ | .fsgnn d _ _ _ | .fsgnx d _ _ _ => some [d.toNat]
  | .fcmpeq d _ _ _ | .fcmplt d _ _ _ | .fcmple d _ _ _ | .fcmpun d _ _ _ | .fcvtp d _ _ _ => some [d.toNat]
  | .fsqrt d _ _ | .fclass d _ _ | .fcvti d _ _ | .fcvtn d _ _ | .fcvtf d _ _ | .fcvtfn d _ _ | .fabs d _ _ | .fneg d _ _ => some [d.toNat]
  | .jal _ => some [1]
  | .jalr d _ _ => some [d.toNat]
  | .beq _ _ _ | .bne _ _ _ | .blt _ _ _ | .bge _ _ _ | .bltn _ _ _ | .bgen _ _ _ | .bmz _ _ | .bmnz _ _ => some []
  | _ => none

/-- The float words of R131 to R133, which may set bits of fs. -/
noncomputable def raisesFlags : Instr → Bool
  | .fadd _ _ _ _ | .fsub _ _ _ _ | .fmul _ _ _ _ | .fdiv _ _ _ _ | .fmin _ _ _ _ | .fmax _ _ _ _ | .fmad _ _ _ _ => true
  | .fmsb _ _ _ _ | .fnma _ _ _ _ | .fcmpeq _ _ _ _ | .fcmplt _ _ _ _ | .fcmple _ _ _ _ | .fcmpun _ _ _ _ | .fcvtp _ _ _ _ => true
  | .fsqrt _ _ _ | .fcvti _ _ _ | .fcvtn _ _ _ | .fcvtf _ _ _ | .fcvtfn _ _ _ => true
  | _ => false

/-! ## Scalar floating point -/

/-- A scalar floating-point result reaches x d: an enabled exception raises arithmetic and writes nothing, else x d is
written and the flags are ORed into fs (R116, R117). -/
def floatEnds (s : State) (g : Group) (d : BitVec 5) (r : Nat × FlagSet) (i : Instr) : Prop :=
  (g.stops r.2 = true → exec i s = traps s g cArithmetic 0)
    ∧ (g.stops r.2 = false → exec i s = .next (s.put ((g.run.setX d.toNat (BitVec.ofNat 64 r.1)).fold r.2).advance))

/-- An exact result rounded once to a format, with the flags of the operation and of the rounding (R114). -/
def roundedOnce (g : Group) (f : Fmt) (r : Val × FlagSet) : Nat × FlagSet :=
  ((roundTo (envOf g.vec.vt) f r.1).1, r.2 ||| (roundTo (envOf g.vec.vt) f r.1).2)

/-- The bits of x a in a precision, with another sign bit. -/
def withSign (g : Group) (f : Fmt) (a : BitVec 5) (neg : Bool) : Word :=
  BitVec.ofNat 64 ((g.x a.toNat).toNat % 2 ^ (f.width - 1) + (if neg then 2 ^ (f.width - 1) else 0))

/-! ## SYS operations, control registers, strips -/

/-- The word waits: the stream's status is the wait, and nothing else has changed. -/
def waits (s : State) (g : Group) (w : Wait) : Out := .next (s.put (g.run.wait w))

/-- The slot named holds `g`, and the module has power. -/
def Holds (s : State) (c k : Nat) (g : Group) : Prop := s.powered = true ∧ s.group? c k = some g

/-- Numbers and values of the registers that both views read alike (R67 to R76, R79). -/
def commonRegs (s : State) (g : Group) : List (Nat × Word) :=
  [(0x000, BitVec.ofNat 64 g.vec.vl), (0x001, BitVec.ofNat 64 g.vec.vlmax), (0x002, g.vec.vt), (0x003, BitVec.ofNat 64 g.vec.vst),
   (0x004, BitVec.ofNat 64 g.vec.sc), (0x005, g.vec.fs), (0x006, BitVec.ofNat 64 g.mzf),
   (0x008, g.gra.gm.zeroExtend 64), (0x009, g.gra.gn.zeroExtend 64), (0x00A, g.gra.gk.zeroExtend 64), (0x00B, g.gra.gf.zeroExtend 64),
   (0x010, BitVec.ofNat 64 g.ord.wseq), (0x011, BitVec.ofNat 64 g.ord.wdone),
   (0x018, BitVec.ofNat 64 (g.count 0)), (0x019, BitVec.ofNat 64 (g.count 1)), (0x01A, BitVec.ofNat 64 (g.count 2)),
   (0x01B, BitVec.ofNat 64 (g.count 3)), (0x020, g.ord.pw), (0x021, g.ord.gate), (0x022, g.ord.gcons),
   (0x025, BitVec.ofNat 64 (s.cyc s.curCore)), (0x026, BitVec.ofNat 64 g.idn.gpri), (0x027, gidImage s.curCore s.curSlot g.idn),
   (0x028, g.idn.tattr.zeroExtend 64)]

/-- Numbers and values of the registers with a privileged number only (R77 to R79). -/
def trapRegs (s : State) (g : Group) : List (Nat × Word) :=
  [(0x200, g.trp.trpc), (0x201, g.trp.tres), (0x202, g.trp.tcause), (0x203, g.trp.taddr), (0x204, g.trp.telem), (0x205, g.trp.tvec),
   (0x206, g.trp.tsv0), (0x207, g.trp.tsv1), (0x210, g.trp.ptb), (0x211, g.trp.asid),
   (0x2C0, BitVec.ofNat 64 (coreidImage s.curCore)), (0x2C1, swfreeImage s s.curCore)]

/-- Numbers and values of a test block's registers, which firmware cores alone have (R80, R414). -/
noncomputable def testRegs (s : State) (i : Nat) : List (Nat × Word) :=
  let t := s.test i
  [(0x300, BitVec.ofNat 64 t.sel), (0x301, BitVec.ofNat 64 (t.abtpri * 2 ^ 8 + if t.abten then 4 else 0)), (0x302, BitVec.ofNat 64 t.stat),
   (0x303, BitVec.ofNat 64 (if t.stat = 2 then Min.min (s.now - t.started) 249999 else t.cnt)), (0x305, t.exp), (0x306, t.gen)]

/-- No producer that MFCR waits for is queued, or the queues are frozen (R18, R420). -/
def quietFor (g : Group) (n : Nat) : Prop :=
  n = 0x003 ∨ n = 0x005 ∨ n = 0x006 → g.trp.frozen = true ∨ (g.que.vq = [] ∧ g.que.mq = [])

/-- What an MTCR in the privileged view makes of a group, by the register's number there (R67 to R73, R75 to R78). -/
def writtenRegs (g : Group) (v : Word) : List (Nat × Group) :=
  [(0x100, { g with vec := { g.vec with vl := v.toNat } }), (0x102, { g with vec := { g.vec with vt := v } }),
   (0x103, { g with vec := { g.vec with vst := v.toNat } }), (0x104, { g with vec := { g.vec with sc := v.toNat } }),
   (0x105, { g with vec := { g.vec with fs := v } }),
   (0x108, { g with gra := { g.gra with gm := v.truncate 32 } }), (0x109, { g with gra := { g.gra with gn := v.truncate 32 } }),
   (0x10A, { g with gra := { g.gra with gk := v.truncate 32 } }), (0x10B, { g with gra := { g.gra with gf := v.truncate 12 } }),
   (0x120, { g with ord := { g.ord with pw := v } }), (0x121, { g with ord := { g.ord with gate := v } }),
   (0x122, { g with ord := { g.ord with gcons := v } }), (0x126, { g with idn := { g.idn with gpri := v.toNat } }),
   (0x200, { g with trp := { g.trp with trpc := v } }), (0x201, { g with trp := { g.trp with tres := v } }),
   (0x202, { g with trp := { g.trp with tcause := v } }), (0x203, { g with trp := { g.trp with taddr := v } }),
   (0x204, { g with trp := { g.trp with telem := v } }), (0x205, { g with trp := { g.trp with tvec := v } }),
   (0x206, { g with trp := { g.trp with tsv0 := v } }), (0x207, { g with trp := { g.trp with tsv1 := v } }),
   (0x211, { g with trp := { g.trp with asid := v } })]

/-- A value that R64 lets an MTCR write: its reserved and read-only bits are as they read, its fields in range. -/
def writableValue (s : State) (g : Group) (n : Nat) (v : Word) : Prop :=
  let rw := writable (decide (0x100 ≤ n)) (baseNumber n)
  v &&& ~~~rw = readControl s s.curCore s.curSlot g n &&& ~~~rw ∧ (rw ≠ 0 → inRange g (baseNumber n) v = true)

/-- The word leaves the test block of its firmware core as `b`, the stream at the next word, and memory as it was. -/
def testBecomes (s : State) (g : Group) (i : Instr) (b : TestBlock) : Prop :=
  ∃ t, exec i s = .next t ∧ t.group? s.curCore s.curSlot = some g.run.advance ∧ (t.core s.curCore).test = b ∧ t.mem = s.mem

/-- A strip of n elements begins: vl, sc and x d (R31, R32, R145). -/
def beginsStrip (s : State) (g : Group) (d : BitVec 5) (n : Nat) (keep : Bool) : Out :=
  writes s { g with vec := { g.vec with vl := n, sc := if keep then g.vec.sc else (g.vec.sc + 1) % 2 ^ 32 } } d (BitVec.ofNat 64 n)

/-- min(a, vlmax, cap) of R145, with cls.CAP where CAPON is 1. -/
def stripLength (s : State) (vlmax : Nat) (a : Word) : Nat :=
  Min.min a.toNat (if s.cap s.curCore = 0 then vlmax else Min.min vlmax (s.cap s.curCore))

/-- The machine and the group in which a gated SETVL meets its gate: as they are where vlmax is kept, else after the negotiation of it
(R100, R145). -/
def meetsGate (s s2 : State) (g g2 : Group) (b : BitVec 5) : Prop :=
  let target := vlmaxTarget g.protected_ (g.x b.toNat)
  let kept := b = 0 ∨ 288 ≤ s.curCore ∨ target = g.vec.vlmax
  (kept → s2 = s ∧ g2 = g)
    ∧ (¬kept → g.que.vq = [] ∧ g.que.mq = [] ∧ negotiationFirst s s.curCore s.curSlot = false
        ∧ negotiate s s.curCore s.curSlot g.run (g.x b.toNat) = .done s2 ∧ s2.group? s.curCore s.curSlot = some g2)

/-! ## The dispatch queues -/

/-- The words of the convoy that `i` would end or extend, and what each needs at push (R23, R24). -/
def convoyWith (g : Group) (i : Instr) : List Instr := g.sca.openWords ++ [i]

/-- The convoy that a vector-queue word ends may be pushed: it keeps R24, the queues are not frozen, no register that it reads is
tagged, the store sequence is not exhausted, and queue and counter have room (R18, R19, R30, R74, R331). -/
structure CanPush (s : State) (g : Group) (i : Instr) : Prop where
  powered : s.powered = true
  group : s.group? s.curCore s.curSlot = some g
  last : ∀ p, pushInfo i = some p → p.chain = false
  composed : convoyOk ((convoyWith g i).filterMap pushInfo) = true
  thawed : g.trp.frozen = false
  untagged : ∀ p ∈ (convoyWith g i).filterMap pushInfo, ∀ r ∈ p.regs, g.tagged r = false
  numbered : g.seqFull (entriesOf g ((convoyWith g i).filterMap pushInfo)) = false
  room : g.que.vq.length < 32
  counter : (∃ p ∈ (convoyWith g i).filterMap pushInfo, p.ac = true) → g.count 2 < 65535

/-- A matrix or copy word may be pushed: nothing is frozen, and no register that it reads is tagged. -/
def Unhindered (s : State) (g : Group) (rs : List (BitVec 5)) : Prop := Ready s g rs ∧ g.trp.frozen = false

/-- The matrix word is pushed with what R16 captures, behind what the matrix queue holds, counted in mc or not (R75, R200); nothing
else has changed. -/
def pushesMatrix (s : State) (g : Group) (i : Instr) (x y : Word) (counted : Bool) : Prop :=
  let e : MEntry :=
    { serial := g.sca.serial, pc := g.sca.pc, instr := i, x := x, y := y, vl := g.vec.vl, vt := g.vec.vt, gm := g.gra.gm,
      gn := g.gra.gn, gk := g.gra.gk, gf := g.gra.gf, begun := false, done := none }
  let g1 := { g.run.nextSerial with que := { g.que with mq := g.que.mq ++ [e] } }
  exec i s = .next (s.put (if counted then g1.countUp 1 g.sca.serial else g1).advance)

/-- The copy-queue word is pushed with what it reads and the grant, behind what the copy queue holds (R16, R268); `cls` is the
counter that counts it (4 for none), `takes` whether it takes a store-sequence entry, `d` the register that it will write. -/
def pushesCopy (s : State) (g : Group) (i : Instr) (op : CopyOp) (xd xd1 xa xb : Word) (cls : Nat) (takes : Bool) (d : Nat) : Prop :=
  ∃ e g', exec i s = .next (s.put g') ∧ g'.que = { g.que with cq := g.que.cq ++ [e] }
    ∧ e.op = op ∧ e.pc = g.sca.pc ∧ e.word = wordOf i ∧ e.xd = xd ∧ e.xd1 = xd1 ∧ e.xa = xa ∧ e.xb = xb
    ∧ e.gm = g.gra.gm ∧ e.gn = g.gra.gn ∧ e.gk = g.gra.gk ∧ e.gf = g.gra.gf ∧ e.begun = false
    ∧ e.seq = (if takes then g.ord.wseq else 0) ∧ g'.ord.wseq = g.ord.wseq + (if takes then 1 else 0)
    ∧ (∀ c, c < 4 → g'.count c = g.count c + if c = cls then 1 else 0)
    ∧ g'.sca.pc = g.sca.pc + 4 ∧ g'.sca.status = .running ∧ g'.sca.x = g.sca.x ∧ g'.fil = g.fil ∧ g'.vec = g.vec ∧ g'.gra = g.gra
    ∧ g'.trp = g.trp ∧ g'.idn = g.idn ∧ g'.sto = g.sto
    ∧ (d ≠ 0 → g'.tagsOf d = g.tagsOf d ++ [g.sca.serial]) ∧ ∀ r, r ≠ d → g'.tagsOf r = g.tagsOf r

/-- The copy queue and the counter have room (R19, R331). -/
def copyRoom (g : Group) (cls : Nat) : Prop := g.que.cq.length < 16 ∧ g.count cls < 65535 ∧ g.ord.wseq + 1 ≤ 2 ^ 38 - 1

/-! ## Scalar loads, stores, atomics and witnesses -/

/-- The word raises a fault of a memory access: it is recorded, or in a resilient team it asks for a rollback (R125, R351). -/
def faults (s : State) (g : Group) (code : Nat) (addr : Word) : Out := .next (scalarFault s s.curCore s.curSlot g.run code addr)

/-- The scalar loads, each with its size in bytes and whether it extends the sign (R242). -/
def loadForms (d b w : BitVec 5) (i : BitVec 10) : List (Instr × Nat × Bool) :=
  [(.ldb d b w i, 1, true), (.ldh d b w i, 2, true), (.ldw d b w i, 4, true), (.ldd d b w i, 8, true),
   (.ldbn d b w i, 1, false), (.ldhn d b w i, 2, false), (.ldwn d b w i, 4, false)]

/-- The scalar stores, each with its size in bytes. -/
def storeForms (r b w : BitVec 5) (i : BitVec 10) : List (Instr × Nat) :=
  [(.stb r b w i, 1), (.sth r b w i, 2), (.stw r b w i, 4), (.std r b w i, 8)]

/-- The forms of AMO, each with its operation. -/
def atomicForms (d a b w : BitVec 5) (z : BitVec 1) : List (Instr × AtomicFn) :=
  [(.amoAdd d a b w z, .add), (.amoAnd d a b w z, .and), (.amoOr d a b w z, .or), (.amoXor d a b w z, .xor), (.amoMin d a b w z, .min),
   (.amoMax d a b w z, .max), (.amoMinn d a b w z, .minn), (.amoMaxn d a b w z, .maxn), (.amoSwap d a b w z, .swap),
   (.amoCas d a b w z, .cas)]

/-- No team is resilient, and no write is on its way to its home. -/
structure Settled (s : State) : Prop where
  landed : s.flights = []
  plain : ∀ e ∈ s.teams, ∀ t, e.2 = some t → t.resilient = none

/-- The key lies outside the leaf entries in which the walker may set AF or DF for these spans (R217). -/
def awayFromLeaves (sps : List Span) (k : Nat) : Prop :=
  ∀ sp ∈ sps, ∀ r, sp.ref = .ok r → ∀ e, r.entry = some e → k < e.pte ∨ e.pte + 8 ≤ k

/-- What a word extends to 64 bits from n bytes. -/
def extended (signed : Bool) (n v : Nat) : Word :=
  if signed then BitVec.ofInt 64 (BitVec.ofNat (8 * n) v).toInt else BitVec.ofNat 64 v

/-- The group once a store or an atomic has been sent: the next sequence number is taken, its witness is in x w, and the stream is
at the next word (R74, R242, R244). -/
def storedGroup (s : State) (g : Group) (w : BitVec 5) : Group :=
  ((g.run.takeSerial.1.takeEntry (.plain true)).1.setX w.toNat
    (witnessOf s.curCore s.curSlot (s.slot s.curCore s.curSlot).epoch g.ord.wseq)).advance

/-- The new value of a location of m bits under AMO (R243): sums wrap, MIN and MAX compare signed values, MINN and MAXN unsigned
ones, and CAS stores its second operand where the first is what the location holds. -/
def amoResult (fn : AtomicFn) (m old arg arg2 : Nat) : Nat :=
  match fn with
  | .add => (old + arg) % 2 ^ m
  | .and => old &&& arg
  | .or => old ||| arg
  | .xor => old ^^^ arg
  | .min => if (BitVec.ofNat m arg).toInt < (BitVec.ofNat m old).toInt then arg else old
  | .max => if (BitVec.ofNat m old).toInt < (BitVec.ofNat m arg).toInt then arg else old
  | .minn => Min.min old arg
  | .maxn => Max.max old arg
  | .swap => arg
  | .cas => if old = arg then arg2 else old

/-- The group once an AMO has been sent: a sequence number and a count in ac are taken, and the witness is in x w. -/
def sentAtomic (s : State) (g : Group) (w : BitVec 5) : Group :=
  ((g.run.takeSerial.1.takeEntry (.plain true)).1.countUp 2 g.sca.serial).setX w.toNat
    (witnessOf s.curCore s.curSlot (s.slot s.curCore s.curSlot).epoch g.ord.wseq)

/-! ## Barrier objects -/

/-- What a BAR instruction does that does not stop: the object in the sector becomes `b`, no other sector has changed since
the object was read in `s1`, and the stream is at the next word. -/
def barrierStep (s1 t : State) (c k : Nat) (g : Group) (sector : Nat) (b : Barrier) : Prop :=
  Barrier.ofNat (sectorData t sector).toNat = b ∧ (∀ a, a / 48 ≠ sector → memGet t.mem a = memGet s1.mem a)
    ∧ t.group? c k = some g.run.advance

/-- A wait or a fault that reading an object leads to. -/
def barrierStop (s1 : State) (g : Group) (w : Wait) (x : Stop) : Out := .next (stopBarrier s1 s1.curCore s1.curSlot g.run w x)

/-- R340, R341: adding c arrivals to an object's phase. The sum stands, unless it completes the next phase: LAST is then that
phase and its slot is 0, and the rule is applied again. -/
def arriveOn (b : Barrier) (phase c : Nat) : Barrier := ((b.addArr phase c).complete 4).1

/-- The mask that ARRIVE counts, if it names one, is there: no queued member writes it, or the queues are frozen, and none of its
bits below vl is marked (R18, R345, R366). -/
def maskThere (s : State) (g : Group) (k : BitVec 4) : Prop :=
  k = 0 ∨ ((g.trp.frozen = true ∨ maskQueued s s.curCore s.curSlot g (k.toNat - 1) = false) ∧ ∀ e, e < g.vec.vl → g.badBit (k.toNat - 1) e = false)

/-! ## Engine counters, gates and progress words -/

/-- A progress word at a key that nothing holds back: its sector is sound, and no copy of it stands in the core's L1. -/
structure PlainWord (s : State) (core : Nat) (r : Ref) : Prop where
  aligned : r.key % 8 = 0
  near : r.key + 8 ≤ remoteKey 0 0
  sound : poisoned s (r.key / 48) = false
  checked : r.chk = false ∨ mismatched s (r.key / 48) = false
  uncached : (s.core core).l1 = []

/-! ## Units, requests and writes under way -/

/-- What the write of a flight reports as it performs: bytes at a barrier object, or values at a port (R284, R346). -/
def reported (s : State) (f : Flight) : State :=
  match f.report with
  | some r => actReport s f.core f.slot f.team r
  | none => s

/-- What a queue's head leaves in its group: its flags in fs, its x register where the tag still stands (R69, R116, R173). -/
def leaves (g g' : Group) (serial : Nat) (d : Done) : Prop :=
  g'.vec.fs = g.vec.fs ||| d.flags.zeroExtend 64
    ∧ (d.xreg = none → g'.sca.x = g.sca.x)
    ∧ ∀ r v, d.xreg = some (r, v) →
        g'.sca.x = if r ≠ 0 ∧ (g.tagsOf r).contains serial then FMap.set 0 g.sca.x r v else g.sca.x

/-- The copy arbiter picks a group whose head is `e`, which is not marked (R21, R366). -/
structure CopyRun (s s1 : State) (c k : Nat) (g : Group) (e : CEntry) : Prop where
  powered : s.powered = true
  picked : decide21 s c .copy = some (s1, k)
  group : s1.group? c k = some g
  head : copyHead s1 c k g = some e
  unmarked : g.que.bad.contains e.serial = false
  canonical : FMap.wf .empty g.fil.ports = true

/-- An entry of the copy queue has executed with what it returns to an x register; the group's stream, registers, masks and tiles, its
other queues and its other entries are as they were. -/
def endsCopy (g g' : Group) (e : CEntry) (x : Option (Nat × Word)) : Prop :=
  g'.que = { g.que with cq := g.que.cq.map fun o => if o.serial = e.serial then { o with done := some { flags := 0, xreg := x } } else o }
    ∧ g'.fil = { g.fil with ports := g'.fil.ports } ∧ g'.sca = g.sca ∧ g'.vec = g.vec ∧ g'.trp = g.trp ∧ g'.gra = g.gra

/-- The status word of a port (R280): its position, how many values reads could take, whether it is done, its kind. -/
def statusWord (pos avail : Nat) (done : Bool) (kind : Nat) : Word :=
  BitVec.ofNat 64 (pos % 2 ^ 32 * 2 ^ 32 + Min.min 4096 avail * 2 ^ 16 + (if done then 8 else 0) + kind)

/-- Bytes stand at the keys of spans, and nothing else has changed, but in the walker's leaf entries. -/
def bytesAt (before after : List Host.Cell) (sps : List Span) (bs : List Byte) : Prop :=
  let keys := spanKeys (spanRefs sps)
  keys.Nodup → (∀ k ∈ keys, k < remoteKey 0 0) →
    (∀ (i k : Nat) (b : Byte), keys[i]? = some k → bs[i]? = some b → memGet after k = b)
      ∧ ∀ x, x ∉ keys → awayFromLeaves sps x → memGet after x = memGet before x

/-! ## Commands -/

/-- The started command of a kind that a queue's event serves. -/
def serves (s : State) (q kind : Nat) (c : Command) : Prop :=
  s.powered = true ∧ (s.queue q).commands.find? (fun c => c.kind == kind && c.state = .started && c.result.isNone) = some c

/-- What a started command comes to in a state. -/
def results (s : State) (q : Nat) (c : Command) (st : CmdState) (reason : Nat) (tag : Word) : Out :=
  .next (resultCommand s q c.jidx st reason tag)

/-- The progress word after a SIGNAL of an operation (R293): SET and ADD of COUNT, COMPLETE, POISON. -/
def signalled (op old v : Nat) : Nat :=
  let flags := old / 2 ^ 62 * 2 ^ 62
  if op = 0 then flags + v % 2 ^ 62 else if op = 1 then flags + (old + v) % 2 ^ 62 else if op = 2 then old ||| 2 ^ 62 else old ||| 2 ^ 63

/-! ## Power, reset, the host and the fabric -/

/-- The window's region of one 64-bit register holds back an access: the write is discarded and recorded in MMIOERR (R82). -/
def discarded (s : State) (kind queue off : Nat) : Out :=
  .next { s with trowel := { s.trowel with mmioerr := BitVec.ofNat 64 (off % 2 ^ 25 + queue % 2 ^ 12 * 2 ^ 25 + kind % 2 * 2 ^ 37) } }

/-- A data access of the host is refused: an error completion, with MMIOERR of window kind 1 (R371). -/
def dataRefused (s : State) (pa : Nat) (i : Instr) : Prop :=
  ∃ t, exec i s = .next t ∧ t.replies = s.replies ++ [.error pa] ∧ t.mem = s.mem ∧ t.trowel.mmioerr.getLsbD 37 = true

/-- The host may reach these bytes: they are installed memory, and HOSTCTL.DMAEN is 1 (R307, R371). -/
def hostReaches (s : State) (keys : List Nat) : Prop := (∀ k ∈ keys, installed k 1 = true) ∧ s.trowel.hostctl.getLsbD 0 = true

/-- The mailbox holds a request of a kind that has not acted. -/
def asks (s : State) (kind : Nat) : Prop :=
  s.powered = true ∧ s.trowel.mail.busy = true ∧ s.trowel.mail.acted = false ∧ (s.req 0).toNat % 2 ^ 8 = kind

/-! ## Quiet clusters -/

/-- A running group with nothing queued, nothing begun, nothing counted and every store-sequence entry complete. -/
def Group.Rests (g : Group) : Prop :=
  g.sca.status = .running ∧ g.trp.pending = [] ∧ g.que.vq = [] ∧ g.que.mq = [] ∧ g.que.cq = [] ∧ g.que.jobs = []
    ∧ g.ord.entries = [] ∧ g.ord.counted = [] ∧ g.ord.wdone + 1 = g.ord.wseq

/-- The device has power, no write or collective is under way, and every group rests. -/
def Resting (s : State) : Prop :=
  s.powered = true ∧ s.flights = [] ∧ s.fabric.runs = [] ∧ ∀ e ∈ s.liveGroups, e.2.2.Rests

/-- A core whose L1 holds no uncommitted sector. -/
def Committed (s : State) (core : Nat) : Prop := ∀ x ∈ (s.core core).l1, x.dirty = 0

/-- The search finds one core for the next cluster of a task that is one core large and not resilient, and its scratchpad has room. -/
def oneCoreFound (s : State) (n : Nat) (k : Task) (core : Nat) : Prop :=
  k.descr.attr.getLsbD 1 = false ∧ k.next + 1 = k.descr.clusters
    ∧ searchRect s (s.queue k.queue).part k.descr.width k.descr.height (classOrder k.descr.klass)
        (fun _ c => coreFits s c (startDemand n k.descr)) = some [core]
    ∧ (padPlan s core (startDemand n k.descr)).isSome = true ∧ Committed s core

/-- The machine after the task's next cluster has been placed on one core as a team of the next number. -/
def placedOn (s : State) (n : Nat) (k : Task) (core : Nat) (u : State) : Prop :=
  u.task n = some { k with next := k.next + 1, live := FMap.set 0 k.live k.next (s.now + 1), claim := [] }
    ∧ ∃ t, u.team s.nextTeam = some t ∧ t.task = n ∧ t.cluster = k.next ∧ t.cidx = 0 ∧ t.core = core ∧ t.cores = [core]
        ∧ t.size = k.descr.region ∧ t.resilient = none

/-! ## Results of the vector and matrix units -/

/-- The vector unit picks a convoy of the one well-formed word `i`, with `caps` captured, that begins at element 0, and nothing the group holds is
marked poisoned (R21, R23). -/
structure OneWord (s s1 : State) (c k : Nat) (g : Group) (e : VEntry) (rest : List VEntry) (i : Instr) (caps : List Word) :
    Prop where
  powered : s.powered = true
  picked : decide21 s c .vector = some (s1, k)
  group : s1.group? c k = some g
  head : vectorHead s1 c k g = some (e, rest)
  only : e.members = [i] ∧ e.caps = [caps]
  formed : i.WellFormed
  whole : g.vec.vst = 0 ∧ e.vl ≤ g.vec.vlmax ∧ g.vec.vlmax ≤ 1024
  fresh : e.prog = .fresh
  unmarked : g.que.bad.contains e.serial = false ∧ g.fil.badSlices = [] ∧ g.fil.badMasks = []
  canonical : FMap.wf 0 g.fil.slices = true ∧ FMap.wf 0 g.fil.masks = true

/-- Both types of a captured VT are integers (R5, R67). -/
def integerTypes (e : VEntry) : Prop := vtScls e.vt ≤ 1 ∧ vtDcls e.vt ≤ 1

/-- The value of w slices of an integer class (R104, R118). -/
def integerValue (cls w bits : Nat) : Int := if cls = 0 then (BitVec.ofNat (4 * w) bits).toInt else (bits % 2 ^ (4 * w) : Nat)

/-- The slices of a name under a vector type, with its width in that role (R41, R85). -/
def nameRange (vt : BitVec 64) (w : Nat) (n : BitVec 6) : Nat × Nat := (vtBase vt + n.toNat * w, w)

/-- The value of a name in the source role at an element. -/
def sourceValue (g : Group) (e : VEntry) (n : BitVec 6) (j : Nat) : Int :=
  integerValue (vtScls e.vt) (vtEws e.vt) (g.slices j (nameRange e.vt (vtEws e.vt) n).1 (vtEws e.vt))

/-- Operand b at an element in its first three forms: a name, an x register, an immediate (R40, R150). -/
def operandValue (g : Group) (e : VEntry) (caps : List Word) (f : BitVec 2) (b : BitVec 6) (j : Nat) : Int :=
  if f = 0 then sourceValue g e b j
  else if f = 1 then integerValue (vtScls e.vt) (vtEws e.vt) (caps.getD 0 0).toNat else b.toInt

/-- An element is below vl, and active under k (R40, R151). -/
def performs (g : Group) (e : VEntry) (k : BitVec 4) (j : Nat) : Prop :=
  j < e.vl ∧ (k = 0 ∨ (g.mask (k.toNat - 1)).getLsbD j = true)

/-- The two-source integer words: form, destination, operands and mask, and the w-bit result from the exact values of A and B
and of the addend D (R153 to R157). -/
def integerResult (w : Nat) (x y z : Int) :
    Instr → Option (BitVec 2 × BitVec 6 × BitVec 6 × BitVec 6 × BitVec 4 × BitVec w)
  | .vadd f d a b k _ => some (f, d, a, b, k, BitVec.ofInt w (x + y))
  | .vsub f d a b k _ => some (f, d, a, b, k, BitVec.ofInt w (x - y))
  | .vrsub f d a b k _ => some (f, d, a, b, k, BitVec.ofInt w (y - x))
  | .vmul f d a b k _ => some (f, d, a, b, k, BitVec.ofInt w (x * y))
  | .vmulh f d a b k _ => some (f, d, a, b, k, BitVec.ofInt w (x * y / 2 ^ w))
  | .vdiv f d a b k _ => some (f, d, a, b, k, if y = 0 then BitVec.allOnes w else BitVec.ofInt w (x.tdiv y))
  | .vrem f d a b k _ => some (f, d, a, b, k, BitVec.ofInt w (if y = 0 then x else x - x.tdiv y * y))
  | .vmin f d a b k _ => some (f, d, a, b, k, BitVec.ofInt w (min x y))
  | .vmax f d a b k _ => some (f, d, a, b, k, BitVec.ofInt w (max x y))
  | .vfma f d a b k _ => some (f, d, a, b, k, BitVec.ofInt w (x * y + z))
  | .vfms f d a b k _ => some (f, d, a, b, k, BitVec.ofInt w (x * y - z))
  | .vfnma f d a b k _ => some (f, d, a, b, k, BitVec.ofInt w (-(x * y) + z))
  | .vand f d a b k _ => some (f, d, a, b, k, BitVec.ofInt w x &&& BitVec.ofInt w y)
  | .vor f d a b k _ => some (f, d, a, b, k, BitVec.ofInt w x ||| BitVec.ofInt w y)
  | .vxor f d a b k _ => some (f, d, a, b, k, BitVec.ofInt w x ^^^ BitVec.ofInt w y)
  | .vshl f d a b k _ => some (f, d, a, b, k, if 0 ≤ y ∧ y < w then BitVec.ofInt w x <<< y.toNat else 0)
  | .vshr f d a b k _ => some (f, d, a, b, k, if 0 ≤ y ∧ y < w then BitVec.ofInt w x >>> y.toNat else 0)
  | .vsar f d a b k _ => some (f, d, a, b, k, (BitVec.ofInt w x).sshiftRight (if 0 ≤ y ∧ y < w then y.toNat else w))
  | _ => none

/-- The compares with their relation on integers: form, mask, operands and execution mask (R159). -/
def integerRelation (x y : Int) : Instr → Option (BitVec 2 × BitVec 6 × BitVec 6 × BitVec 6 × BitVec 4 × Bool)
  | .vcmpeq f m a b k _ => some (f, m, a, b, k, decide (x = y))
  | .vcmpne f m a b k _ => some (f, m, a, b, k, decide (x ≠ y))
  | .vcmplt f m a b k _ => some (f, m, a, b, k, decide (x < y))
  | .vcmple f m a b k _ => some (f, m, a, b, k, decide (x ≤ y))
  | .vcmpgt f m a b k _ => some (f, m, a, b, k, decide (y < x))
  | .vcmpge f m a b k _ => some (f, m, a, b, k, decide (y ≤ x))
  | _ => none

/-- The operations on masks: the mask written, and bit j of it (R171). -/
def maskResult (g : Group) (e : VEntry) (caps : List Word) (j : Nat) : Instr → Option (BitVec 6 × Bool)
  | .mand d a b _ => some (d, (g.mask a.toNat).getLsbD j && (g.mask b.toNat).getLsbD j)
  | .mor d a b _ => some (d, (g.mask a.toNat).getLsbD j || (g.mask b.toNat).getLsbD j)
  | .mxor d a b _ => some (d, (g.mask a.toNat).getLsbD j != (g.mask b.toNat).getLsbD j)
  | .mandn d a b _ => some (d, (g.mask a.toNat).getLsbD j && !(g.mask b.toNat).getLsbD j)
  | .morn d a b _ => some (d, (g.mask a.toNat).getLsbD j || !(g.mask b.toNat).getLsbD j)
  | .mnot d a _ => some (d, !(g.mask a.toNat).getLsbD j)
  | .mmov d a _ => some (d, (g.mask a.toNat).getLsbD j)
  | .mset d _ => some (d, true)
  | .mclr d _ => some (d, false)
  | .mshl1 d a _ => some (d, decide (1 ≤ j) && (g.mask a.toNat).getLsbD (j - 1))
  | .mshr1 d a _ => some (d, decide (j + 1 < e.vl) && (g.mask a.toNat).getLsbD (j + 1))
  | .mfromx d _ _ => some (d, decide (j < 64) && (caps.getD 0 0).getLsbD j)
  | _ => none

/-- The indices below vl at which mask a is true and k active, which VMPOP, VMFIRST and VMLAST count (R172). -/
def countedBits (g : Group) (e : VEntry) (a : BitVec 6) (k : BitVec 4) : List Nat :=
  (List.range e.vl).filter fun j => (g.mask a.toNat).getLsbD j && (k == 0 || (g.mask (k.toNat - 1)).getLsbD j)

/-- How a word that writes no slice ends: executed, with what it returns to an x register; no slice has changed. -/
def endsMask (s t : State) (c slot : Nat) (g' g : Group) (e : VEntry) (rest : List VEntry) (x : Option (Nat × Word)) : Prop :=
  exec (.arbiterDecision c .vector) s = .next t ∧ t.group? c slot = some g' ∧ t.mem = s.mem
    ∧ g'.que.vq = { e with begun := true, done := some { flags := 0, xreg := x } } :: rest ∧ g'.fil.slices = g.fil.slices
    ∧ g'.fil.tiles = g.fil.tiles ∧ g'.sca = g.sca ∧ g'.vec = g.vec

/-- The matrix unit `u` picks the entry `e` of a group, with nothing marked (R21, R201). -/
structure MatrixHead (s s1 : State) (u : UnitKind) (c k : Nat) (g : Group) (e : MEntry) (rest : List MEntry) : Prop where
  powered : s.powered = true
  array : u ≠ .vector ∧ u ≠ .copy
  picked : decide21 s c u = some (s1, k)
  group : s1.group? c k = some g
  head : matrixHead s1 c k g = some (e, rest)
  unmarked : g.que.bad.contains e.serial = false ∧ g.fil.badSlices = [] ∧ g.fil.badTiles = []
  canonical : FMap.wf 0 g.fil.tiles = true ∧ FMap.wf 0 g.fil.slices = true

/-- The matrix unit `u` picks the entry `e`, whose grant and pairing pass their checks (R201). -/
structure MatrixRun (s s1 : State) (u : UnitKind) (c k : Nat) (g : Group) (e : MEntry) (rest : List MEntry) : Prop
    extends MatrixHead s s1 u c k g e rest where
  granted : grantOf e.gm ≠ 0 ∧ grantOf e.gn ≠ 0 ∧ validOf e.gm ≤ grantOf e.gm ∧ validOf e.gn ≤ grantOf e.gn
  pairing : pairOk (gfIfmt e.gf) (gfAcc e.gf) = true

/-- The sum of the products of row i of A, from the slices, and column j of the B box read, over k (R121, R195). -/
def productSum (g : Group) (e : MEntry) (start : Nat) (rows : List Nat) (i j : Nat) : Int :=
  let cls := (formatClass (gfIfmt e.gf)).1
  let w := (formatClass (gfIfmt e.gf)).2
  (List.range (min (validOf e.gk) (grantOf e.gk))).foldl (fun acc k =>
    acc + integerValue cls w (g.slices i (start + k * w) w) * integerValue cls w (boxVal rows (4 * w) k j)) 0

/-! ## Results of the element-wise words -/

/-- Whether an element below vl is active under k (R40, R151). -/
def activeAt (g : Group) (e : VEntry) (k : BitVec 4) (j : Nat) : Bool := decide (j < e.vl) && (k == 0 || (g.mask (k.toNat - 1)).getLsbD j)

/-- A member whose execution mask is all false is dropped (R26). -/
def droppedBy (g : Group) (k : BitVec 4) : Prop := k ≠ 0 ∧ g.allFalse (k.toNat - 1) = true

/-- Stored bits of a name in the source role at an element (R41, R85). -/
def sourceBits (g : Group) (e : VEntry) (n : BitVec 6) (j : Nat) : Nat := g.slices j (nameRange e.vt (vtEws e.vt) n).1 (vtEws e.vt)

/-- What the member finds when it is the only one of its convoy: its environment, and its work as it begins. -/
def loneMember (s1 : State) (c slot : Nat) (g : Group) (e : VEntry) (caps : List Word) : MemberEnv × Work :=
  ({ core := c, slot := slot, e := e, place := 0, caps := caps, ctx := ctxOf s1 c slot g },
   { s := s1, g := g, flags := 0, xreg := none, pend := [], rows := [], view := none, upset := none })

/-- The values that a port gives a member, n for each element below vl whether it is active or not, with the flags of their decoding
(R150, R272, R274): `σ j` is the work as it stands after j elements. -/
def portGives (me : MemberEnv) (w : Work) (b : BitVec 6) (n : Nat) (σ : Nat → Work) (vs : Nat → List Nat) (fl : Nat → FlagSet) : Prop :=
  σ 0 = w ∧ ∀ j, j < me.e.vl → takeMany me (b.toNat % 8) n (σ j) = .ok (vs j, fl j, σ (j + 1))

/-- What an element's operation is given: the exact values of A, of B and of the addend, the stored bits of A and B, whether B is an
immediate, and the flags of decoding B (R118, R150). -/
structure Given where
  a : Val
  b : Val
  d : Val
  abits : Nat
  bbits : Nat
  imm : Bool
  fl : FlagSet

/-- The form of an element-wise word without a carry: operand form, destination, A where it has one, B, execution mask (R153 to R164). -/
def elementForm : Instr → Option (BitVec 2 × BitVec 6 × Option (BitVec 6) × BitVec 6 × BitVec 4)
  | .vadd f d a b k _ | .vsub f d a b k _ | .vrsub f d a b k _ | .vmul f d a b k _ | .vmulh f d a b k _ | .vdiv f d a b k _
  | .vrem f d a b k _ | .vmin f d a b k _ | .vmax f d a b k _ | .vfma f d a b k _ | .vfms f d a b k _ | .vfnma f d a b k _
  | .vand f d a b k _ | .vor f d a b k _ | .vxor f d a b k _ | .vshl f d a b k _ | .vshr f d a b k _ | .vsar f d a b k _ =>
    some (f, d, some a, b, k)
  | .vmerge f d a b _ _ => some (f, d, some a, b, 0)
  | .vabs d a k _ | .vneg d a k _ | .vnot d a k _ | .vsqrt d a k _ | .vrsqe d a k _ | .vrcpe d a k _ | .vexp2 d a k _ | .vlog2 d a k _
  | .vsigm d a k _ | .vclz d a k _ | .vpopc d a k _ | .vcvt d a k _ => some (2, d, some a, 0, k)
  | .vmv f d b k _ => some (f, d, none, b, k)
  | .vid d k _ => some (2, d, none, 0, k)
  | _ => none

/-- The class combinations that a word permits (R152, R182). -/
def permits (e : VEntry) (i : Instr) : Bool :=
  let ints := decide (vtScls e.vt ≤ 1 ∧ vtDcls e.vt ≤ 1)
  let floats := decide (2 ≤ vtScls e.vt ∧ 2 ≤ vtDcls e.vt)
  let same := decide (vtScls e.vt = vtDcls e.vt ∧ vtEws e.vt = vtEwd e.vt)
  match i with
  | .vadd _ _ _ _ _ _ | .vsub _ _ _ _ _ _ | .vrsub _ _ _ _ _ _ | .vmul _ _ _ _ _ _ | .vdiv _ _ _ _ _ _ | .vmin _ _ _ _ _ _
  | .vmax _ _ _ _ _ _ | .vfma _ _ _ _ _ _ | .vfms _ _ _ _ _ _ | .vfnma _ _ _ _ _ _ | .vabs _ _ _ _ | .vneg _ _ _ _
  | .vredsum _ _ _ _ _ _ | .vredmax _ _ _ _ _ _ | .vredmin _ _ _ _ _ _ => ints || floats
  | .vmulh _ _ _ _ _ _ | .vrem _ _ _ _ _ _ | .vand _ _ _ _ _ _ | .vor _ _ _ _ _ _ | .vxor _ _ _ _ _ _ | .vshl _ _ _ _ _ _
  | .vshr _ _ _ _ _ _ | .vsar _ _ _ _ _ _ | .vnot _ _ _ _ | .vclz _ _ _ _ | .vpopc _ _ _ _ | .vredand _ _ _ _ _ _
  | .vredor _ _ _ _ _ _ | .vredxor _ _ _ _ _ _ => ints
  | .vadc _ _ _ _ _ _ | .vsbc _ _ _ _ _ _ => ints && same
  | .vsqrt _ _ _ _ => floats
  | .vrsqe _ _ _ _ | .vrcpe _ _ _ _ | .vexp2 _ _ _ _ | .vlog2 _ _ _ _ | .vsigm _ _ _ _ =>
    floats && decide (vtEws e.vt ≠ 16 ∧ vtEwd e.vt ≠ 16)
  | .vcmpun _ _ _ _ _ _ => decide (2 ≤ vtScls e.vt)
  | .vslup _ _ _ _ _ _ | .vsldn _ _ _ _ _ _ | .vsl1up _ _ _ _ _ _ | .vsl1dn _ _ _ _ _ _ | .vperm _ _ _ _ _ | .vcomp _ _ _ _ => same
  | .vdot4 _ _ _ _ _ _ | .vdot8 _ _ _ _ _ _ =>
    decide (vtScls e.vt ≤ 1 ∧ vtDcls e.vt ≤ 1 ∧ vtEws e.vt ≤ 4)
      || decide (2 ≤ vtScls e.vt ∧ vtDcls e.vt = 2 ∧ (vtEwd e.vt = 8 ∨ vtEwd e.vt = 16) ∧ (vtScls e.vt = 2 → vtEws e.vt = 4))
  | _ => true

/-- What element j of a word is given, with operand B of its form; `vs` are a port's values for the element. -/
def givenAt (g : Group) (e : VEntry) (caps : List Word) (f : BitVec 2) (d : BitVec 6) (a : Option (BitVec 6)) (b : BitVec 6)
    (vs : List Nat) (fl : FlagSet) (j : Nat) : Given :=
  let value (bits : Nat) : Val := extend (envOf e.vt) (vtScls e.vt) (vtEws e.vt) bits
  let abits := sourceBits g e (a.getD 0) j
  let bbits := if f = 0 then sourceBits g e b j else if f = 1 then (caps.getD 0 0).toNat % 2 ^ (4 * vtEws e.vt) else if f = 2 then 0 else vs.headD 0
  { a := value abits, b := if f = 2 then .ofInt b.toInt else value bbits
    d := extend (envOf e.vt) (vtDcls e.vt) (vtEwd e.vt) (g.slices j (nameRange e.vt (vtEwd e.vt) d).1 (vtEwd e.vt))
    abits := abits, bbits := bbits, imm := decide (f = 2), fl := if f = 3 then fl else 0 }

/-- The result of an element-wise word in the destination's format, with its flags: the operation on the exact values, delivered
once (R118, R153 to R164). `sel` is the selector's bit of VMERGE, `j` the element. -/
def elementResult (e : VEntry) (x : Given) (sel : Bool) (j : Nat) (i : Instr) : Nat × FlagSet :=
  let env := envOf e.vt
  let w := 4 * vtEwd e.vt
  let same := vtScls e.vt = vtDcls e.vt ∧ vtEws e.vt = vtEwd e.vt
  let out (v : Val × FlagSet) : Nat × FlagSet :=
    ((narrow env (vtDcls e.vt) (vtEwd e.vt) v.1).1, x.fl ||| v.2 ||| (narrow env (vtDcls e.vt) (vtEwd e.vt) v.1).2)
  let int (v : Int) : Nat × FlagSet := out (.ofInt v, 0)
  let arith (v : Int) (r : Val × FlagSet) : Nat × FlagSet := if vtScls e.vt ≤ 1 then int v else out r
  let m := x.a.toInt
  let n := x.b.toInt
  let p : BitVec w := BitVec.ofInt w m
  let q : BitVec w := BitVec.ofInt w n
  let bits (r : BitVec w) : Nat × FlagSet := (r.toNat, x.fl)
  let cvt (v : Val) (fl : FlagSet) : Nat × FlagSet :=
    let r := if vtDcls e.vt ≤ 1 ∧ 2 ≤ vtScls e.vt then floatToInt env.rm (vtDcls e.vt) w v else narrow env (vtDcls e.vt) (vtEwd e.vt) v
    (r.1, fl ||| r.2)
  let place (v : Val) (stored : Nat) (imm : Bool) (fl : FlagSet) : Nat × FlagSet := if same ∧ imm = false then (stored, fl) else cvt v fl
  match i with
  | .vadd _ _ _ _ _ _ => arith (m + n) (addVal env x.a x.b)
  | .vsub _ _ _ _ _ _ => arith (m - n) (subVal env x.a x.b)
  | .vrsub _ _ _ _ _ _ => arith (n - m) (reverseSub env x.a x.b)
  | .vmul _ _ _ _ _ _ => arith (m * n) (mulVal x.a x.b)
  | .vmulh _ _ _ _ _ _ => int (m * n / 2 ^ w)
  | .vdiv _ _ _ _ _ _ => if vtScls e.vt ≤ 1 ∧ n = 0 then bits (BitVec.allOnes w) else arith (m.tdiv n) (divVal x.a x.b)
  | .vrem _ _ _ _ _ _ => int (if n = 0 then m else m - m.tdiv n * n)
  | .vmin _ _ _ _ _ _ => arith (min m n) (minMaxVal false x.a x.b)
  | .vmax _ _ _ _ _ _ => arith (max m n) (minMaxVal true x.a x.b)
  | .vfma _ _ _ _ _ _ => arith (m * n + x.d.toInt) (fmaVal env false false x.a x.b x.d)
  | .vfms _ _ _ _ _ _ => arith (m * n - x.d.toInt) (fmaVal env false true x.a x.b x.d)
  | .vfnma _ _ _ _ _ _ => arith (x.d.toInt - m * n) (fmaVal env true false x.a x.b x.d)
  | .vand _ _ _ _ _ _ => bits (p &&& q)
  | .vor _ _ _ _ _ _ => bits (p ||| q)
  | .vxor _ _ _ _ _ _ => bits (p ^^^ q)
  | .vshl _ _ _ _ _ _ => bits (if 0 ≤ n ∧ n < w then p <<< n.toNat else 0)
  | .vshr _ _ _ _ _ _ => bits (if 0 ≤ n ∧ n < w then p >>> n.toNat else 0)
  | .vsar _ _ _ _ _ _ => bits (p.sshiftRight (if 0 ≤ n ∧ n < w then n.toNat else w))
  | .vmerge _ _ _ _ _ _ => if sel then place x.b x.bbits x.imm x.fl else place x.a x.abits false 0
  | .vmv _ _ _ _ _ => place x.b x.bbits x.imm x.fl
  | .vid _ _ _ => int j
  | .vabs _ _ _ _ =>
    if 2 ≤ vtScls e.vt then if same then (x.abits % 2 ^ (4 * vtEws e.vt - 1), 0) else out (x.a.absolute, 0) else int m.natAbs
  | .vneg _ _ _ _ =>
    if 2 ≤ vtScls e.vt then if same then (x.abits ^^^ 2 ^ (4 * vtEws e.vt - 1), 0) else out (x.a.negated, 0) else int (-m)
  | .vnot _ _ _ _ => bits (~~~p)
  | .vsqrt _ _ _ _ => out (sqrtVal x.a)
  | .vrsqe _ _ _ _ => out (rsqeVal x.a)
  | .vrcpe _ _ _ _ => out (rcpeVal x.a)
  | .vexp2 _ _ _ _ => out (exp2Val x.a)
  | .vlog2 _ _ _ _ => out (log2Val x.a)
  | .vsigm _ _ _ _ => out (sigmVal x.a)
  | .vclz _ _ _ _ => int ((List.range (4 * vtEws e.vt)).takeWhile fun t => !x.abits.testBit (4 * vtEws e.vt - 1 - t)).length
  | .vpopc _ _ _ _ => int ((List.range (4 * vtEws e.vt)).filter x.abits.testBit).length
  | .vcvt _ _ _ _ => cvt x.a 0
  | _ => (0, 0)

/-- The flags of the elements that have a result. -/
def flagsBelow (vl : Nat) (new : Nat → Option (Nat × FlagSet)) : FlagSet :=
  (List.range vl).foldl (fun fl j => fl ||| ((new j).map (·.2)).getD 0) 0

/-- How a word that writes slices ends: executed with the flags `fl`, nothing returned to an x register; an element's slices `d` are
`new`, where it has a new value, and every other slice is kept, as are tiles, x registers, control registers and trap registers. -/
def endsSlices (s t : State) (c slot : Nat) (g' g : Group) (e : VEntry) (rest : List VEntry) (fl : FlagSet) (d : Nat × Nat)
    (new : Nat → Option Nat) : Prop :=
  exec (.arbiterDecision c .vector) s = .next t ∧ t.group? c slot = some g'
    ∧ g'.que.vq = { e with begun := true, done := some { flags := fl, xreg := none } } :: rest
    ∧ (∀ j v, new j = some v → g'.slices j d.1 d.2 = v % 2 ^ (4 * d.2))
    ∧ (∀ j n, new j = none ∨ n < d.1 ∨ d.1 + d.2 ≤ n → n < 768 → g'.slices j n 1 = g.slices j n 1)
    ∧ g'.fil.tiles = g.fil.tiles ∧ g'.sca = g.sca ∧ g'.vec = g.vec ∧ g'.gra = g.gra ∧ g'.trp = g.trp

/-- A port and memory after a word: as `σ` leaves them where it took the port's values, else as they were. -/
def portAfter (s t : State) (g' g : Group) (took : Prop) (last : Work) : Prop :=
  (took → g'.fil.ports = last.g.fil.ports ∧ t.mem = last.s.mem) ∧ (¬took → g'.fil.ports = g.fil.ports ∧ t.mem = s.mem)

/-- The compares with their relation: form, mask written, operands, execution mask (R159). -/
def compareForm : Instr → Option (BitVec 2 × BitVec 6 × BitVec 6 × BitVec 6 × BitVec 4 × Rel)
  | .vcmpeq f m a b k _ => some (f, m, a, b, k, .eq)
  | .vcmpne f m a b k _ => some (f, m, a, b, k, .ne)
  | .vcmplt f m a b k _ => some (f, m, a, b, k, .lt)
  | .vcmple f m a b k _ => some (f, m, a, b, k, .le)
  | .vcmpgt f m a b k _ => some (f, m, a, b, k, .gt)
  | .vcmpge f m a b k _ => some (f, m, a, b, k, .ge)
  | .vcmpun f m a b k _ => some (f, m, a, b, k, .un)
  | _ => none

/-! ## Results of the words that move, select and reduce elements -/

/-- Elements below vl that are active under k, in increasing order. -/
def activeList (g : Group) (e : VEntry) (k : BitVec 4) : List Nat := (List.range e.vl).filter (activeAt g e k)

/-- An amount, a count or an index: a captured x register unsigned, or the immediate (R175, R176, R180). -/
def amountGiven (caps : List Word) (n : Nat) (f : BitVec 2) (b : BitVec 6) : Nat := if f = 1 then (caps.getD n 0).toNat else b.toNat

/-- The words that move elements: destination, source role names read, execution mask (R176 to R180). -/
def movingForm : Instr → Option (BitVec 6 × List (BitVec 6) × BitVec 4)
  | .vslup _ d a _ k _ | .vsldn _ d a _ k _ | .vsl1up _ d a _ k _ | .vsl1dn _ d a _ k _ | .vcomp d a k _ | .vperm d a _ k _ =>
    some (d, [a], k)
  | .viota d _ _ => some (d, [], 0)
  | .vins _ d _ _ _ => some (d, [], 0)
  | _ => none

/-- What element j of the destination of a word that moves elements becomes, from what the sources held before it; none where it is
kept (R176 to R180). -/
def movedElement (g : Group) (e : VEntry) (caps : List Word) (j : Nat) (i : Instr) : Option Nat :=
  let entered (f : BitVec 2) (b : BitVec 6) : Nat :=
    if f = 1 then (caps.getD 0 0).toNat else (narrow (envOf e.vt) (vtDcls e.vt) (vtEwd e.vt) (.ofInt b.toInt)).1
  match i with
  | .vslup f _ a b k _ =>
    let n := amountGiven caps 0 f b
    if activeAt g e k j && decide (n ≤ j) then some (sourceBits g e a (j - n)) else none
  | .vsldn f _ a b k _ =>
    let n := amountGiven caps 0 f b
    if activeAt g e k j then some (if j + n < e.vl then sourceBits g e a (j + n) else 0) else none
  | .vsl1up f _ a b k _ => if activeAt g e k j then some (if j = 0 then entered f b else sourceBits g e a (j - 1)) else none
  | .vsl1dn f _ a b k _ => if activeAt g e k j then some (if j + 1 < e.vl then sourceBits g e a (j + 1) else entered f b) else none
  | .vperm _ a n k _ =>
    let x := (BitVec.ofNat 32 (g.slices j (nameRange e.vt 8 n).1 8)).toInt
    if activeAt g e k j then some (if 0 ≤ x ∧ x < e.vl then sourceBits g e a x.toNat else 0) else none
  | .vcomp _ a k _ => (activeList g e k)[j]?.map (sourceBits g e a)
  | .viota _ k _ =>
    if j < e.vl then some (narrow (envOf e.vt) (vtDcls e.vt) (vtEwd e.vt)
      (.ofInt ((List.range j).filter fun t => (g.mask (k.toNat - 1)).getLsbD t).length)).1 else none
  | .vins f _ _ b _ => if j = amountGiven caps 1 f b ∧ j < e.vl then some (caps.getD 0 0).toNat else none
  | _ => none

/-- Recursive halving (R119): for h = 2^(n-1), …, 1, element j is combined with element j + h. -/
def halved (op : Nat → Nat → Nat × FlagSet) : Nat → (Nat → Partial) → Nat → Partial
  | 0, t => t
  | n + 1, t => halved op n fun j => combine op (t j) (t (j + 2 ^ n))

/-- How often vl elements are halved: the exponent of the least power of two that is not below vl (R119). -/
def halvings (vl : Nat) : Nat := if vl ≤ 1 then 0 else Nat.log2 (vl - 1) + 1

/-- The words that reduce: form, destination, source, seed, execution mask; whether the operation is bitwise; and the operation (R181). -/
def reduction (e : VEntry) : Instr → Option (BitVec 2 × BitVec 6 × BitVec 6 × BitVec 6 × BitVec 4 × Bool × (Nat → Nat → Nat × FlagSet))
  | .vredsum f d a b k _ => some (f, d, a, b, k, false, both (· + ·) (addVal (envOf e.vt)))
  | .vredmax f d a b k _ => some (f, d, a, b, k, false, both max (minMaxVal true))
  | .vredmin f d a b k _ => some (f, d, a, b, k, false, both min (minMaxVal false))
  | .vredand f d a b k _ => some (f, d, a, b, k, true, fun x y => (x &&& y, 0))
  | .vredor f d a b k _ => some (f, d, a, b, k, true, fun x y => (x ||| y, 0))
  | .vredxor f d a b k _ => some (f, d, a, b, k, true, fun x y => (x ^^^ y, 0))
  | _ => none
where
  /-- An arithmetic operation on two stored values of the destination's type, delivered once. -/
  both (fi : Int → Int → Int) (fv : Val → Val → Val × FlagSet) (x y : Nat) : Nat × FlagSet :=
    let vx := extend (envOf e.vt) (vtDcls e.vt) (vtEwd e.vt) x
    let vy := extend (envOf e.vt) (vtDcls e.vt) (vtEwd e.vt) y
    let r : Val × FlagSet := if 2 ≤ vtDcls e.vt then fv vx vy else (.ofInt (fi vx.toInt vy.toInt), 0)
    let o := narrow (envOf e.vt) (vtDcls e.vt) (vtEwd e.vt) r.1
    (o.1, r.2 ||| o.2)

/-! ## Results of the vector words at memory -/

/-- The address of an element under an index name: base plus the index as a signed 32-bit number (R232). -/
def indexedAddr (g : Group) (e : VEntry) (caps : List Word) (j : Nat) (n : BitVec 6) : Word :=
  caps.getD 0 0 + (BitVec.ofNat 32 (g.slices j (nameRange e.vt 8 n).1 8)).signExtend 64

/-- Address and first bit of the value at a place of so many bits from the base (R231). -/
def packedAt (caps : List Word) (bits : Nat) : Word × Nat := (caps.getD 0 0 + BitVec.ofNat 64 (bits / 8), bits % 8)

/-- The loads: destination, values in an element, policy, where among the captured values the witness stands, execution mask; and the
place of value f of element j (R231, R232, R235). -/
def loadForm (g : Group) (e : VEntry) (caps : List Word) : Instr →
    Option (BitVec 6 × Nat × Nat × Nat × BitVec 4 × (Nat → Nat → Word × Nat))
  | .vld d _ _ p k _ => some (d, 1, p.toNat, 1, k, fun j _ => packedAt caps (j * (4 * vtEws e.vt)))
  | .vlds d _ _ p k _ => some (d, 1, p.toNat, 2, k, fun j _ => (caps.getD 0 0 + BitVec.ofNat 64 j * caps.getD 1 0, 0))
  | .vldx d _ n _ k _ => some (d, 1, 0, 1, k, fun j _ => (indexedAddr g e caps j n, 0))
  | .vldseg d _ _ h k _ => some (d, h.toNat + 1, 0, 1, k, fun j f => packedAt caps ((j * (h.toNat + 1) + f) * (4 * vtEws e.vt)))
  | _ => none

/-- The index name of a word, below A (R89). -/
def indexBelow (g : Group) (e : VEntry) : Instr → Prop
  | .vldx _ _ n _ _ _ | .vstx _ _ n _ _ _ => (nameRange e.vt 8 n).1 + 8 ≤ g.idn.alloc
  | _ => True

/-- The bits that writes cover, by key and place in the byte, each with its new value: a write has its address, first bit, width and
value. -/
def bitsWritten (s : State) (ctx : Ctx) (vals : List (Word × Nat × Nat × Nat)) : List ((Nat × Nat) × Bool) :=
  vals.flatMap fun v =>
    let keys := spanKeys (spanRefs (spans s ctx .store v.1 (bytesOf v.2.1 v.2.2.1)))
    (List.range v.2.2.1).filterMap fun x => keys[(v.2.1 + x) / 8]?.map fun k => ((k, (v.2.1 + x) % 8), v.2.2.2.testBit x)

/-- Bits that no two writes share, and that are no leaf entry's, stand with their new values, and every other bit is as before, but in
the walker's leaf entries. -/
def bitsStand (s : State) (ctx : Ctx) (after : List Host.Cell) (vals : List (Word × Nat × Nat × Nat)) : Prop :=
  let ps := bitsWritten s ctx vals
  let sps := vals.flatMap fun v => spans s ctx .store v.1 (bytesOf v.2.1 v.2.2.1)
  (ps.map (·.1)).Nodup → (∀ p ∈ ps, p.1.1 < remoteKey 0 0 ∧ awayFromLeaves sps p.1.1) →
    (∀ p ∈ ps, (memGet after p.1.1).getLsbD p.1.2 = p.2)
      ∧ ∀ x y, y < 8 → (x, y) ∉ ps.map (·.1) → awayFromLeaves sps x → (memGet after x).getLsbD y = (memGet s.mem x).getLsbD y

/-- The stores and VSPILL: execution mask, policy of the L1, slices read, and what element j writes: address, first bit, width, value and
flags of each (R95, R231, R232, R238). -/
def storeForm (g : Group) (e : VEntry) (caps : List Word) : Instr →
    Option (BitVec 4 × Bool × (Nat × Nat) × (Nat → List ((Word × Nat × Nat × Nat) × FlagSet)))
  | .vst v _ _ _ p k _ => some (k, p == 0, nameRange e.vt (vtEws e.vt) v, fun j => [value (packedAt caps (j * (4 * vtEwd e.vt))) v 0 j])
  | .vsts v _ _ _ p k _ =>
    some (k, p == 0, nameRange e.vt (vtEws e.vt) v, fun j => [value (caps.getD 0 0 + BitVec.ofNat 64 j * caps.getD 1 0, 0) v 0 j])
  | .vstx v _ n _ k _ => some (k, true, nameRange e.vt (vtEws e.vt) v, fun j => [value (indexedAddr g e caps j n, 0) v 0 j])
  | .vstseg v _ _ h k _ =>
    some (k, true, ((nameRange e.vt (vtEws e.vt) v).1, (h.toNat + 1) * vtEws e.vt), fun j => (List.range (h.toNat + 1)).map fun f =>
      value (packedAt caps ((j * (h.toNat + 1) + f) * (4 * vtEwd e.vt))) v f j)
  | .vspill _ start n =>
    let size := (n.toNat + 2) / 2
    some (0, true, (start.toNat, n.toNat + 1), fun j =>
      [((caps.getD 0 0 + BitVec.ofNat 64 (j * size), 0, 8 * size, g.slices j start.toNat (n.toNat + 1)), 0)])
  | _ => none
where
  /-- An element of the name f places after v, delivered to the destination's type, with its place. -/
  value (p : Word × Nat) (v : BitVec 6) (f j : Nat) : (Word × Nat × Nat × Nat) × FlagSet :=
    let bits := g.slices j ((nameRange e.vt (vtEws e.vt) v).1 + f * vtEws e.vt) (vtEws e.vt)
    let r := deliver (envOf e.vt) (vtScls e.vt) (vtEws e.vt) (vtDcls e.vt) (vtEwd e.vt) bits
    ((p.1, p.2, 4 * vtEwd e.vt, r.1), r.2)

/-- The atomics and the reductions at memory: operation, name, index name, execution mask, and whether it is an atomic (R239). -/
def atomicForm : Instr → Option (AtomicFn × BitVec 6 × BitVec 6 × BitVec 4 × Bool)
  | .vamoAdd v _ n k _ => some (.add, v, n, k, true)
  | .vamoAnd v _ n k _ => some (.and, v, n, k, true)
  | .vamoOr v _ n k _ => some (.or, v, n, k, true)
  | .vamoXor v _ n k _ => some (.xor, v, n, k, true)
  | .vamoMin v _ n k _ => some (.min, v, n, k, true)
  | .vamoMax v _ n k _ => some (.max, v, n, k, true)
  | .vamoSwap v _ n k _ => some (.swap, v, n, k, true)
  | .vredmSum v _ n k _ => some (.add, v, n, k, false)
  | .vredmMax v _ n k _ => some (.max, v, n, k, false)
  | .vredmMin v _ n k _ => some (.min, v, n, k, false)
  | .vredmAnd v _ n k _ => some (.and, v, n, k, false)
  | .vredmOr v _ n k _ => some (.or, v, n, k, false)
  | .vredmXor v _ n k _ => some (.xor, v, n, k, false)
  | _ => none

/-- A word at memory runs at elements whose places are `key j` under the page `page j`: its type and names are permitted, and each active
element's place is translated for reading and writing, aligned, of the local space or of tier 0 or 1, and neither poisoned nor
mismatched (R239, R249). `σ j` is the device as the element finds it. -/
structure AtomicRun (s1 : State) (c slot : Nat) (g : Group) (e : VEntry) (caps : List Word) (fn : AtomicFn) (v n : BitVec 6)
    (k : BitVec 4) (σ : Nat → State) (key : Nat → Nat) (page : Nat → Ref) : Prop where
  type : vtScls e.vt = vtDcls e.vt ∧ vtEws e.vt = vtEwd e.vt ∧ (vtEwd e.vt = 8 ∨ vtEwd e.vt = 16)
    ∧ (vtDcls e.vt ≤ 1 ∨ (vtDcls e.vt = 2 ∧ (fn = .add ∨ fn = .min ∨ fn = .max ∨ fn = .swap)))
  names : (nameRange e.vt (vtEwd e.vt) v).1 + vtEwd e.vt ≤ g.idn.alloc ∧ (nameRange e.vt 8 n).1 + 8 ≤ g.idn.alloc ∧ g.idn.alloc ≤ 768
  begins : σ 0 = s1
  idle : ∀ j, j < e.vl → activeAt g e k j = false → σ (j + 1) = σ j
  placed : ∀ j, activeAt g e k j = true →
    let a := indexedAddr g e caps j n
    let sps := spans (σ j) (ctxOf s1 c slot g) .atomic a (vtEwd e.vt / 2)
    accessFault sps = none ∧ (∃ len ad, (spanRefs sps).head? = some (key j, len, page j, ad)) ∧ a.toNat % (vtEwd e.vt / 2) = 0
      ∧ ((page j).local_ = true ∨ (page j).tier ≤ 1) ∧ key j + vtEwd e.vt / 2 ≤ remoteKey 0 0
      ∧ awayFromLeaves sps (key j) ∧ awayFromLeaves sps (key j + (vtEwd e.vt / 2 - 1))
      ∧ poisoned (σ j) (key j / 48) = false ∧ ((page j).chk = true → mismatched (σ j) (key j / 48) = false)

/-! ## Results of the words that move tiles -/

/-- The work of a matrix entry as it begins, and what it knows. -/
def loneEntry (s1 : State) (c slot : Nat) (g : Group) (e : MEntry) : MatrixEnv × Work :=
  ({ core := c, slot := slot, e := e, ctx := ctxOf s1 c slot g },
   { s := s1, g := g, flags := 0, xreg := none, pend := [], rows := [], view := none, upset := none })

/-- How a matrix entry ends: executed, with the flags `fl`. -/
def endsMatrix (s t : State) (u : UnitKind) (c slot : Nat) (g' g : Group) (e : MEntry) (rest : List MEntry) (fl : FlagSet) : Prop :=
  exec (.arbiterDecision c u) s = .next t ∧ t.group? c slot = some g'
    ∧ g'.que.mq = { e with begun := true, done := some { flags := fl, xreg := none } } :: rest
    ∧ g'.fil.masks = g.fil.masks ∧ g'.fil.ports = g.fil.ports ∧ g'.sca = g.sca ∧ g'.vec = g.vec

/-- The elements of tile n are `new`, every other tile element is kept. -/
def tileBecomes (g' g : Group) (n : Nat) (new : Nat → Nat → Nat) : Prop :=
  ∀ m i j, i < 65536 → j < 65536 → g'.tile m i j = if m = n then new i j else g.tile m i j

/-- Slices from `start` of the elements below `rows` take `new`, w slices for each of `cols` columns; every other slice is kept. -/
def slicesBecome (g' g : Group) (start w rows cols : Nat) (new : Nat → Nat → Nat) : Prop :=
  (∀ i j, i < rows → j < cols → g'.slices i (start + j * w) w = new i j % 2 ^ (4 * w))
    ∧ ∀ i n, rows ≤ i ∨ n < start ∨ start + cols * w ≤ n → n < 768 → g'.slices i n 1 = g.slices i n 1

/-- Flags that a rectangle's elements raise. -/
def flagsOver (m n : Nat) (f : Nat → Nat → FlagSet) : FlagSet :=
  (List.range m).foldl (fun a i => (List.range n).foldl (fun b j => b ||| f i j) a) 0

/-- A tile element converted to a class and a width (R197): its exact value in the accumulator's format, delivered once. -/
def tileValue (e : MEntry) (cls w bits : Nat) : Nat × FlagSet :=
  let v : Val := if gfAcc e.gf = 2 then .ofInt (BitVec.ofNat 32 bits).toInt else readFloat (envOf e.vt) (if gfAcc e.gf = 0 then .f32 else .f64) bits
  narrow (envOf e.vt) cls w v

/-- The products of a row of A and a column of B added to an accumulator, block by block of kb values of k (R120, R121): each block's exact
sum is rounded to the accumulator's format, then added to the accumulator and rounded again; integer sums are exact, and each
addition wraps or saturates. `start` is the accumulator's bits, none for TMMA.OVR. -/
def blockwise (e : MEntry) (a b : Nat → Nat) (start : Option Nat) : Nat × FlagSet :=
  let env := envOf e.vt
  let cls := formatClass (gfIfmt e.gf)
  let kb := blockK (gfIfmt e.gf)
  let kv := min (validOf e.gk) (grantOf e.gk)
  let value (bits : Nat) : Val := extend env cls.1 cls.2 bits
  let places (h : Nat) : List Nat := (List.range kb).map fun i => h * kb + i
  let blocks : List Nat := List.range ((kv + kb - 1) / kb)
  if kv = 0 then (start.getD 0, 0)
  else if gfAcc e.gf = 2 then
    let add (x : Int × FlagSet) (h : Nat) : Int × FlagSet :=
      let sum := ((places h).map fun k => if k < kv then (value (a k)).toInt * (value (b k)).toInt else 0).sum
      let r := narrow env 0 8 (.ofInt (x.1 + sum))
      ((BitVec.ofNat 32 r.1).toInt, x.2 ||| r.2)
    let r := blocks.foldl add ((BitVec.ofNat 32 (start.getD 0)).toInt, 0)
    ((BitVec.ofInt 32 r.1).toNat, r.2)
  else
    let fmt := if gfAcc e.gf = 0 then Fmt.f32 else Fmt.f64
    let flush (x : Nat) : Nat := if env.fz = 2 ∧ isSubnormal fmt x then signBits fmt (decodeFloat fmt x).isNeg 0 else x
    let add (x : Option Nat × FlagSet) (h : Nat) : Option Nat × FlagSet :=
      let ps := (places h).map fun k => if k < kv then mulVal (value (a k)) (value (b k)) else (Val.zero false, 0)
      let sum := exactSum env (ps.map (·.1))
      let block := roundTo env fmt sum.1
      let fl := ps.foldl (fun f p => f ||| p.2) (x.2 ||| sum.2 ||| block.2)
      match x.1 with
      | none => (some (roundTo env fmt (readFloat env fmt block.1)).1, fl)
      | some y =>
        let z := exactSum env [readFloat env fmt y, readFloat env fmt block.1]
        let r := roundTo env fmt z.1
        (some r.1, fl ||| z.2 ||| r.2)
    let r := blocks.foldl add (start.map flush, 0)
    (r.1.getD 0, r.2)

end Sys2Proof.Machine
end

