-- ==== Sys2Proof/Certificates/Slice0/Obligations.lean ====
section
/-! DEFINITION. The statements for the provers. What a statement takes from the rules of spec/ stands in its first words; what it takes
from the model's own choices, with the log entry, at its end. -/

open Sys2Proof Sys2Proof.Machine

/-- R38 to R54: for every instruction that passes its decode checks, with every operand at every value, decoding the word that the
encoder writes gives the instruction back. -/
def Obligations.DecodeEncode : Prop :=
  ∀ (i : Instr) (w : Nat), i.WellFormed → encode i = some w → w < 2 ^ 32 ∧ decodeWord w = .ok i

/-- R43, R54: a word has one meaning at most: an instruction that a 32-bit word decodes to is well formed, and is written as that
word only. -/
def Obligations.EncodeDecode : Prop :=
  ∀ (w : Nat) (i : Instr), w < 2 ^ 32 → decodeWord w = .ok i → i.WellFormed ∧ encode i = some w

/-- The words that chapters 2 to 18 print decode to the instructions beside them. -/
def Obligations.PrintedWords : Prop :=
 ∀ p ∈ printedWords, decodeWord p.1 = .ok p.2

/-- R37, R54, R303: a step with nothing on the agenda that goes to a stream executes what the word at the stream's pc decodes to,
in the state after the fetch, a word of the scalar class is counted where it has executed, and time passes. A word that decodes to
nothing, and a fetch that fails, record the front end's fault, at the first word of an open convoy. Which stream goes, and how
much time passes, are the model's choices (logs 1 to 3). That a fetch which fails inside an open convoy names the convoy's first
word, with SRC 0, and that a pc which is no multiple of 4 is a misaligned fetch, are readings (logs 20 and 24); so is what class 1
counts (log 35). -/
def Obligations.StepRunsDecoded : Prop :=
  ∀ (s : State) (g : Group) (c k : Nat), s.powered = true → s.agenda = [] → nextMove s = .stream c k → s.group? c k = some g →
    let s0 := serve s c k
    (∀ s1 w i, fetchWord s0 c k g = (s1, .ok w) → decodeWord w.toNat = .ok i →
        step s = afterStep (if scalarWord w then countScalar c k g (exec i s1) else exec i s1))
      ∧ (∀ s1 w e, fetchWord s0 c k g = (s1, .ok w) → decodeWord w.toNat = .error e →
        step s = afterStep (.next (fetchFault s1 c k g 0x01 (w.zeroExtend 64))))
      ∧ (∀ s1 code addr, fetchWord s0 c k g = (s1, .error (code, addr)) → step s = afterStep (.next (fetchFault s1 c k g code addr)))
      ∧ (g.sca.pc.toNat % 4 ≠ 0 → fetchWord s0 c k g = (s0, .error (0x05, g.sca.pc)))
      ∧ (∀ key n j r rest, g.sca.pc.toNat % 4 = 0 →
          spanRefs (spans s0 (ctxOf s0 c k g) .fetch g.sca.pc 4) = (key, n, j, r) :: rest →
          accessFault (spans s0 (ctxOf s0 c k g) .fetch g.sca.pc 4) = none →
          let s2 := touchSpans s0 (ctxOf s0 c k g) false (spans s0 (ctxOf s0 c k g) .fetch g.sca.pc 4)
          poisoned s2 (key / 48) = false → ((s2.core c).icache.any fun e => e.1 == icacheKey (ctxOf s0 c k g).asid g.sca.pc.toNat) = false →
          (fetchWord s0 c k g).2 = .ok (BitVec.ofNat 32 (memNat s2.mem key 4)) ∧ (fetchWord s0 c k g).1.mem = s2.mem)
      ∧ (∀ t, countScalar c k g (.next t) = .next (if uncounted g t c k then t else t.tally c k 1 1))
      ∧ (∀ t g', g.sca.status = .running → t.group? c k = some g' → g'.sca.status = .running → uncounted g t c k = false)
      ∧ (∀ t, afterStep (.next t) = .next (passTime (keepWeeder t))) ∧ (∀ f, afterStep (.fault f) = .fault f)
      ∧ ∀ r, afterStep (.refused r) = .refused r

/-- R79, R81, R221, R259, R271, R291, R299, R307, R388, R390, R391: the machine right after reset. Every slot of every core is
empty with epoch 0, every TLB, L1 and instruction cache holds nothing, the array is whole; the firmware cores are in reset; no
task, team or queue exists; partition 0 holds every column, and host access is permitted; each die has no power cap and is
narrowed until memory is trained; every byte of memory reads as it was born, which in the core map is the core's identity and
elsewhere 0 (log 5). That memory which nothing has written reads as 0 (log 5), the place of the core map (log 6), a journal head
and generation of 0 (log 8), the firmware cores under reset until each returns (log 19) and measurements of 0 until the boot has
extended them (log 29) are the model's choices. -/
def Obligations.ResetState : Prop :=
  Safe State.reset ∧ State.reset.powered = true ∧ State.reset.now = 0 ∧ State.reset.agenda = [] ∧ State.reset.flights = []
    ∧ (∀ c k, State.reset.group? c k = none ∧ (State.reset.slot c k).epoch = 0 ∧ (State.reset.slot c k).killed = 0
        ∧ (State.reset.slot c k).away = 0)
    ∧ (∀ c, (State.reset.core c).tlb = [] ∧ (State.reset.core c).l1 = [] ∧ (State.reset.core c).icache = []
        ∧ (State.reset.core c).mode = .whole ∧ (State.reset.core c).handler = false ∧ (State.reset.core c).test.stat = 0
        ∧ ((State.reset.core c).down = true ↔ 288 ≤ c ∧ c < 292))
    ∧ (∀ t, State.reset.task t = none ∧ State.reset.team t = none) ∧ State.reset.saved = [] ∧ State.reset.aways = []
    ∧ (∀ q, (State.reset.queue q).enable = false ∧ (State.reset.queue q).nextSeq = 1 ∧ (State.reset.queue q).commands = [])
    ∧ FMap.get 0 State.reset.trowel.parts 0 = 0x1FF_FFFF ∧ (∀ p, p ≠ 0 → FMap.get 0 State.reset.trowel.parts p = 0)
    ∧ State.reset.trowel.hostctl.getLsbD 0 = true ∧ State.reset.trowel.jgen = 0 ∧ State.reset.trowel.jhead = 0
    ∧ (∀ m, FMap.get 0 State.reset.trowel.ms m = 0)
    ∧ (∀ d, State.reset.cap d = 0 ∧ State.reset.narrowed d = true)
    ∧ (∀ c, c < 288 → ∃ st m, memNat State.reset.mem (Config.cmapBase + 8 * c) 8 = coreidImage c + st * 2 ^ 21 + m * 2 ^ 28
        ∧ (st = 0 ∨ st = 2 ∨ st = 3) ∧ m < if coreClass c = 0 then 8 else 2)
    ∧ ∀ key, (key < Config.cmapBase ∨ Config.cmapBase + 2304 ≤ key) → memGet State.reset.mem key = 0

/-- The memory keeps its canonical form: from every state that has it, whatever the step, the state it answers has it. The
canonical form is the model's own. -/
def Obligations.StepKeepsMemory : Prop :=
 ∀ s t : State, Safe s → step s = .next t → Safe t

/-- R209, R211, R309: memory is bytes, and wider values are little-endian: bytes written at a key are the bytes read there, a
value written is the value read, every other byte reads as before, and the canonical form is kept. -/
def Obligations.MemoryReadsWrites : Prop :=
  ∀ (s : State) (key : Nat), Safe s →
    (∀ bs : List Byte, Safe (writeBytes s key bs) ∧ memBytes (writeBytes s key bs).mem key bs.length = bs
        ∧ ∀ q, (q < key ∨ key + bs.length ≤ q) → memGet (writeBytes s key bs).mem q = memGet s.mem q)
      ∧ (∀ n v, memNat (writeNat s key n v).mem key n = v % 2 ^ (8 * n))
      ∧ ∀ n, memNat s.mem key (n + 1) = (memGet s.mem key).toNat + 256 * memNat s.mem (key + 1) n

/-- R125 to R138, R116: what a scalar word of registers leaves alone, whenever it answers a state, whether it completes, waits or
traps: memory and everything else outside its group; every x register but its destination; every control register, accumulator,
mask, slice, queue and trap register, but for a fault that it adds to those not yet delivered; fs, but for the float words, which
only set bits of it. -/
def Obligations.ScalarFrames : Prop :=
  ∀ (s t : State) (g : Group) (i : Instr) (ds : List Nat), registersWritten i = some ds → s.group? s.curCore s.curSlot = some g →
    exec i s = .next t →
      ∃ g', t = s.put g' ∧ (∀ q, memGet t.mem q = memGet s.mem q)
        ∧ (∀ r, r ∉ ds → g'.x r = g.x r) ∧ g'.x 0 = 0
        ∧ g'.vec = { g.vec with fs := g'.vec.fs } ∧ (raisesFlags i = false → g'.vec.fs = g.vec.fs)
        ∧ g.vec.fs &&& g'.vec.fs = g.vec.fs
        ∧ g'.gra = g.gra ∧ g'.ord = g.ord ∧ g'.idn = g.idn ∧ g'.fil = g.fil ∧ g'.sto = g.sto ∧ g'.que = g.que
        ∧ g'.sca.level = g.sca.level ∧ g'.trp = { g.trp with pending := g'.trp.pending }
        ∧ ∀ f ∈ g.trp.pending, f ∈ g'.trp.pending

/-- R63, R64, R77, R78: no instruction word that a group executes at level U changes its level, its page tables, its address
space, its trap vector or its trap registers, whatever it does otherwise and wherever it ends; only a firmware core's double trap,
which resets that core (R352), leaves no group. -/
def Obligations.UserWordsKeepPrivilege : Prop :=
  ∀ (s t : State) (g : Group) (i : Instr) (w : Nat), encode i = some w → s.group? s.curCore s.curSlot = some g → g.sca.level = .u →
    exec i s = .next t →
      (288 ≤ s.curCore ∧ t.group? s.curCore s.curSlot = none) ∨
      ∃ g', t.group? s.curCore s.curSlot = some g' ∧ g'.sca.level = .u ∧ g'.trp.ptb = g.trp.ptb ∧ g'.trp.asid = g.trp.asid
        ∧ g'.trp.tvec = g.trp.tvec ∧ g'.trp.trpc = g.trp.trpc ∧ g'.trp.tres = g.trp.tres ∧ g'.trp.tcause = g.trp.tcause
        ∧ g'.trp.taddr = g.trp.taddr ∧ g'.trp.telem = g.trp.telem ∧ g'.trp.tsv0 = g.trp.tsv0 ∧ g'.trp.tsv1 = g.trp.tsv1

/-- R126: ADD, SUB and the bitwise operations write their 64-bit result to x d, for every register and value; a write of x0 is
discarded, a read of x0 gives 0 (in `setX` and `x`). R126: the shifts and rotations use the low six bits of b. R126: MUL gives the
low 64 bits of the product, MULH and MULHN the high 64 bits of the signed and of the unsigned 128-bit product. R128: the immediate
forms, with imm15 sign-extended, and the shifts and the rotation by six bits of it. -/
def Obligations.IntegerResults : Prop :=
  (∀ (s : State) (g : Group) (d a b : BitVec 5), Ready s g [a, b] →
    let x := g.x a.toNat
    let y := g.x b.toNat
    exec (.add d a b) s = writes s g d (BitVec.ofNat 64 (x.toNat + y.toNat))
      ∧ exec (.sub d a b) s = writes s g d (BitVec.ofInt 64 ((x.toNat : Int) - y.toNat))
      ∧ exec (.and d a b) s = writes s g d (x &&& y)
      ∧ exec (.or d a b) s = writes s g d (x ||| y)
      ∧ exec (.xor d a b) s = writes s g d (x ^^^ y)
      ∧ exec (.andn d a b) s = writes s g d (x &&& ~~~y))
    ∧ (∀ (s : State) (g : Group) (d a b : BitVec 5), Ready s g [a, b] →
    let x := g.x a.toNat
    let n := ((g.x b.toNat).extractLsb' 0 6).toNat
    exec (.shl d a b) s = writes s g d (BitVec.ofNat 64 (x.toNat * 2 ^ n))
      ∧ exec (.shr d a b) s = writes s g d (BitVec.ofNat 64 (x.toNat / 2 ^ n))
      ∧ exec (.sar d a b) s = writes s g d (BitVec.ofInt 64 (x.toInt / 2 ^ n))
      ∧ exec (.rol d a b) s = writes s g d (BitVec.ofNat 64 (x.toNat * 2 ^ n + x.toNat / 2 ^ (64 - n)))
      ∧ exec (.ror d a b) s = writes s g d (BitVec.ofNat 64 (x.toNat / 2 ^ n + x.toNat * 2 ^ (64 - n))))
    ∧ (∀ (s : State) (g : Group) (d a b : BitVec 5), Ready s g [a, b] →
    let x := g.x a.toNat
    let y := g.x b.toNat
    ∃ low high highU : Word,
      exec (.mul d a b) s = writes s g d low
        ∧ exec (.mulh d a b) s = writes s g d high
        ∧ exec (.mulhn d a b) s = writes s g d highU
        ∧ x.toInt * y.toInt = high.toInt * 2 ^ 64 + low.toNat
        ∧ x.toNat * y.toNat = highU.toNat * 2 ^ 64 + low.toNat)
    ∧ (∀ (s : State) (g : Group) (d a : BitVec 5), Ready s g [a] →
    let x := g.x a.toNat
    (∀ i : BitVec 15,
      let imm := BitVec.ofInt 64 i.toInt
      exec (.addi d a i) s = writes s g d (BitVec.ofInt 64 (x.toInt + i.toInt))
        ∧ exec (.andi d a i) s = writes s g d (x &&& imm)
        ∧ exec (.ori d a i) s = writes s g d (x ||| imm)
        ∧ exec (.xori d a i) s = writes s g d (x ^^^ imm)
        ∧ exec (.slti d a i) s = writes s g d (if x.toInt < i.toInt then 1 else 0)
        ∧ exec (.sltni d a i) s = writes s g d (if x.toNat < imm.toNat then 1 else 0))
      ∧ (∀ n : BitVec 6,
        exec (.shli d a n) s = writes s g d (BitVec.ofNat 64 (x.toNat * 2 ^ n.toNat))
          ∧ exec (.shri d a n) s = writes s g d (BitVec.ofNat 64 (x.toNat / 2 ^ n.toNat))
          ∧ exec (.sari d a n) s = writes s g d (BitVec.ofInt 64 (x.toInt / 2 ^ n.toNat))
          ∧ exec (.roli d a n) s
              = writes s g d (BitVec.ofNat 64 (x.toNat * 2 ^ n.toNat + x.toNat / 2 ^ (64 - n.toNat)))))

/-- R127: quotients are truncated toward zero and remainders have the sign of a; the edge cases are fixed, and none of them traps.
-/
def Obligations.DivisionResults : Prop :=
  ∀ (s : State) (g : Group) (d a b : BitVec 5), Ready s g [a, b] →
    let x := g.x a.toNat
    let y := g.x b.toNat
    ∃ q r qU rU : Word,
      exec (.div d a b) s = writes s g d q ∧ exec (.rem d a b) s = writes s g d r
        ∧ exec (.divn d a b) s = writes s g d qU ∧ exec (.remn d a b) s = writes s g d rU
        ∧ (y = 0 → q = BitVec.allOnes 64 ∧ r = x ∧ qU = BitVec.allOnes 64 ∧ rU = x)
        ∧ (x = BitVec.intMin 64 ∧ y = BitVec.allOnes 64 → q = BitVec.intMin 64 ∧ r = 0)
        ∧ (y ≠ 0 → ¬(x = BitVec.intMin 64 ∧ y = BitVec.allOnes 64) →
            x.toInt = q.toInt * y.toInt + r.toInt ∧ r.toInt.natAbs < y.toInt.natAbs
              ∧ (0 ≤ x.toInt → 0 ≤ r.toInt) ∧ (x.toInt ≤ 0 → r.toInt ≤ 0))
        ∧ (y ≠ 0 → x.toNat = qU.toNat * y.toNat + rU.toNat ∧ rU.toNat < y.toNat)

/-- R126: minimum, maximum and comparison, signed and unsigned. R126: the counts of zero and one bits, and the reversals of bits
and bytes. R126: SEXT and ZEXT extend the low n bits, n being b as unsigned, and ADDW and SUBW the low 32 bits of the sum and of
the difference. -/
def Obligations.CompareCountExtend : Prop :=
  (∀ (s : State) (g : Group) (d a b : BitVec 5), Ready s g [a, b] →
    let x := g.x a.toNat
    let y := g.x b.toNat
    exec (.min d a b) s = writes s g d (BitVec.ofInt 64 (Min.min x.toInt y.toInt))
      ∧ exec (.max d a b) s = writes s g d (BitVec.ofInt 64 (Max.max x.toInt y.toInt))
      ∧ exec (.minn d a b) s = writes s g d (BitVec.ofNat 64 (Min.min x.toNat y.toNat))
      ∧ exec (.maxn d a b) s = writes s g d (BitVec.ofNat 64 (Max.max x.toNat y.toNat))
      ∧ exec (.slt d a b) s = writes s g d (if x.toInt < y.toInt then 1 else 0)
      ∧ exec (.sltn d a b) s = writes s g d (if x.toNat < y.toNat then 1 else 0))
    ∧ (∀ (s : State) (g : Group) (d a : BitVec 5), Ready s g [a] →
    let x := g.x a.toNat
    ∃ lead trail ones rev swap : Word,
      exec (.clz d a) s = writes s g d lead ∧ exec (.ctz d a) s = writes s g d trail
        ∧ exec (.popc d a) s = writes s g d ones ∧ exec (.brev d a) s = writes s g d rev
        ∧ exec (.bswap d a) s = writes s g d swap
        ∧ lead.toNat ≤ 64 ∧ (∀ i, 64 - lead.toNat ≤ i → x.getLsbD i = false)
        ∧ (lead.toNat < 64 → x.getLsbD (63 - lead.toNat) = true)
        ∧ trail.toNat ≤ 64 ∧ (∀ i, i < trail.toNat → x.getLsbD i = false)
        ∧ (trail.toNat < 64 → x.getLsbD trail.toNat = true)
        ∧ ones.toNat = ((List.range 64).filter fun i => x.getLsbD i).length
        ∧ (∀ i, i < 64 → rev.getLsbD (63 - i) = x.getLsbD i)
        ∧ (∀ i, i < 8 → swap.extractLsb' (8 * (7 - i)) 8 = x.extractLsb' (8 * i) 8))
    ∧ (∀ (s : State) (g : Group) (d a b : BitVec 5), Ready s g [a, b] →
    let x := g.x a.toNat
    let n := (g.x b.toNat).toNat
    ∃ sx zx aw sw : Word,
      exec (.sext d a b) s = writes s g d sx ∧ exec (.zext d a b) s = writes s g d zx
        ∧ exec (.addw d a b) s = writes s g d aw ∧ exec (.subw d a b) s = writes s g d sw
        ∧ (∀ i, i < 64 → sx.getLsbD i = if n = 0 then false else x.getLsbD (Min.min i (n - 1)))
        ∧ (∀ i, i < 64 → zx.getLsbD i = (decide (i < n) && x.getLsbD i))
        ∧ (∀ i, i < 64 → aw.getLsbD i = (x + g.x b.toNat).getLsbD (Min.min i 31))
        ∧ (∀ i, i < 64 → sw.getLsbD i = (x - g.x b.toNat).getLsbD (Min.min i 31)))

/-- R129: LUI, ADDPC and LUIH in the U format, with their words; of the three only LUIH reads its destination, and waits for it.
-/
def Obligations.UpperImmediateResults : Prop :=
  ∀ (s : State) (g : Group) (d : BitVec 5) (i : BitVec 20),
    (Ready s g [] → exec (.lui d i) s = writes s g d (BitVec.ofInt 64 (i.toInt * 2 ^ 12))
      ∧ exec (.addpc d i) s = writes s g d (g.sca.pc + BitVec.ofInt 64 (i.toInt * 2 ^ 12)))
    ∧ (Ready s g [d] → exec (.luih d i) s = writes s g d (BitVec.ofNat 64 (i.toNat * 2 ^ 44 + (g.x d.toNat).toNat % 2 ^ 44)))
    ∧ ∀ e ∈ [(Instr.lui d i, 0b0001001), (.addpc d i, 0b0001010), (.luih d i, 0b0001011)],
        encode e.1 = some (e.2 * 2 ^ 25 + d.toNat * 2 ^ 20 + i.toNat)

/-- R131: each arithmetic operation computes one exact value from its operands as they are read in the precision, and delivers it
rounded once. -/
def Obligations.FloatArithmetic : Prop :=
  ∀ (s : State) (g : Group) (d a b : BitVec 5) (p : BitVec 2),
    let f := precision p
    let env := envOf g.vec.vt
    let x := readFloat env f ((g.x a.toNat).toNat % 2 ^ f.width)
    let y := readFloat env f ((g.x b.toNat).toNat % 2 ^ f.width)
    let z := readFloat env f ((g.x d.toNat).toNat % 2 ^ f.width)
    (Ready s g [a, b] →
      floatEnds s g d (roundedOnce g f (addVal env x y)) (.fadd d a b p)
        ∧ floatEnds s g d (roundedOnce g f (subVal env x y)) (.fsub d a b p)
        ∧ floatEnds s g d (roundedOnce g f (mulVal x y)) (.fmul d a b p)
        ∧ floatEnds s g d (roundedOnce g f (divVal x y)) (.fdiv d a b p)
        ∧ floatEnds s g d (roundedOnce g f (minMaxVal false x y)) (.fmin d a b p)
        ∧ floatEnds s g d (roundedOnce g f (minMaxVal true x y)) (.fmax d a b p))
      ∧ (Ready s g [a] → floatEnds s g d (roundedOnce g f (sqrtVal x)) (.fsqrt d a p))
      ∧ (Ready s g [a, b, d] →
        floatEnds s g d (roundedOnce g f (fmaVal env false false x y z)) (.fmad d a b p)
          ∧ floatEnds s g d (roundedOnce g f (fmaVal env false true x y z)) (.fmsb d a b p)
          ∧ floatEnds s g d (roundedOnce g f (fmaVal env true false x y z)) (.fnma d a b p))

/-- R132: the comparisons write 1 or 0, and raise NV on the NaNs the table names; FCLASS writes the one bit of the operand's class
and raises nothing. R134: FSGN, FSGNN, FSGNX, FABS and FNEG change only the sign bit, bit w - 1, and copy every other bit of a;
they raise no flag. -/
def Obligations.FloatComparisonsAndSigns : Prop :=
  (∀ (s : State) (g : Group) (d a b : BitVec 5) (p : BitVec 2),
    let f := precision p
    let env := envOf g.vec.vt
    let x := readFloat env f ((g.x a.toNat).toNat % 2 ^ f.width)
    let y := readFloat env f ((g.x b.toNat).toNat % 2 ^ f.width)
    let one := fun (r : Rel) => ((if (relVal r x y).1 then 1 else 0 : Nat), (relVal r x y).2)
    (Ready s g [a, b] →
      floatEnds s g d (one .eq) (.fcmpeq d a b p) ∧ floatEnds s g d (one .lt) (.fcmplt d a b p)
        ∧ floatEnds s g d (one .le) (.fcmple d a b p) ∧ floatEnds s g d (one .un) (.fcmpun d a b p))
      ∧ (Ready s g [a] →
        ∃ n, n < 10 ∧ exec (.fclass d a p) s = writes s g d (BitVec.ofNat 64 (2 ^ n))
          ∧ n = floatClass f ((g.x a.toNat).toNat % 2 ^ f.width)))
    ∧ (∀ (s : State) (g : Group) (d a b : BitVec 5) (p : BitVec 2),
    let f := precision p
    let sa := (g.x a.toNat).getLsbD (f.width - 1)
    let sb := (g.x b.toNat).getLsbD (f.width - 1)
    (Ready s g [a, b] →
      exec (.fsgn d a b p) s = writes s g d (withSign g f a sb)
        ∧ exec (.fsgnn d a b p) s = writes s g d (withSign g f a (!sb))
        ∧ exec (.fsgnx d a b p) s = writes s g d (withSign g f a (sa != sb)))
      ∧ (Ready s g [a] →
        exec (.fabs d a p) s = writes s g d (withSign g f a false)
          ∧ exec (.fneg d a p) s = writes s g d (withSign g f a (!sa))))

/-- R133: conversions between floats and 64-bit integers, and between precisions. -/
def Obligations.FloatConversion : Prop :=
  ∀ (s : State) (g : Group) (d a : BitVec 5) (p q : BitVec 2), Ready s g [a] →
    let x := readFloat (envOf g.vec.vt) (precision p) ((g.x a.toNat).toNat % 2 ^ (precision p).width)
    floatEnds s g d (floatToInt (vtRm g.vec.vt) 0 64 x) (.fcvti d a p)
      ∧ floatEnds s g d (floatToInt (vtRm g.vec.vt) 1 64 x) (.fcvtn d a p)
      ∧ floatEnds s g d (roundedOnce g (precision p) (.ofInt (g.x a.toNat).toInt, 0)) (.fcvtf d a p)
      ∧ floatEnds s g d (roundedOnce g (precision p) (.ofInt (g.x a.toNat).toNat, 0)) (.fcvtfn d a p)
      ∧ floatEnds s g d (roundedOnce g (precision q) (x, 0)) (.fcvtp d a p q)

/-- R135: a branch, in the B format, goes to its own address + 4 × sext(off15) where its condition holds, and to its own address +
4 otherwise; nothing else changes. -/
def Obligations.BranchResults : Prop :=
  ∀ (s : State) (g : Group) (a b : BitVec 5) (o : BitVec 15), Ready s g [a, b] →
    let x := g.x a.toNat
    let y := g.x b.toNat
    let jump := fun (c : Prop) [Decidable c] => if c then goes s g (g.sca.pc + BitVec.ofInt 64 (4 * o.toInt)) else goes s g (g.sca.pc + 4)
    exec (.beq a b o) s = jump (x = y) ∧ exec (.bne a b o) s = jump (x ≠ y)
      ∧ exec (.blt a b o) s = jump (x.toInt < y.toInt) ∧ exec (.bge a b o) s = jump (x.toInt ≥ y.toInt)
      ∧ exec (.bltn a b o) s = jump (x.toNat < y.toNat) ∧ exec (.bgen a b o) s = jump (x.toNat ≥ y.toNat)
      ∧ ∀ e ∈ [(Instr.beq a b o, 0b0010000), (.bne a b o, 0b0010001), (.blt a b o, 0b0010010), (.bge a b o, 0b0010011),
          (.bltn a b o, 0b0010100), (.bgen a b o, 0b0010101)],
          encode e.1 = some (e.2 * 2 ^ 25 + a.toNat * 2 ^ 20 + b.toNat * 2 ^ 15 + o.toNat)

/-- R136: JAL links in x1, JALR in x d, and the target is computed before the link is written. R137: once no queued convoy writes
the mask, BMZ branches when the mask has no true bit below vlmax and BMNZ when it has one; while one does, both wait for it (R18).
R138: TRAP raises trap-instruction and BRK breakpoint, each at its own address; neither changes a register. -/
def Obligations.JumpsAndSystemCalls : Prop :=
  (∀ (s : State) (g : Group) (d a : BitVec 5) (o : BitVec 25) (i : BitVec 15),
    (Ready s g [] →
      exec (.jal o) s = .next (s.put ((g.run.setX 1 (g.sca.pc + 4)).setPc (g.sca.pc + BitVec.ofInt 64 (4 * o.toInt)))))
    ∧ (Ready s g [a] →
      exec (.jalr d a i) s = .next (s.put ((g.run.setX d.toNat (g.sca.pc + 4)).setPc
        (BitVec.ofNat 64 ((g.x a.toNat + BitVec.ofInt 64 i.toInt).toNat / 4 * 4))))))
    ∧ (∀ (s : State) (g : Group) (m : BitVec 5) (o : BitVec 15), Ready s g [] →
    let zero := ∀ i, i < g.vec.vlmax → (g.mask m.toNat).getLsbD i = false
    let queued := !g.trp.frozen && maskQueued s s.curCore s.curSlot g.run m.toNat
    let target := g.sca.pc + BitVec.ofInt 64 (4 * o.toInt)
    (queued = true → exec (.bmz m o) s = .next (s.put (g.run.wait (.drain (.mask m.toNat))))
        ∧ exec (.bmnz m o) s = .next (s.put (g.run.wait (.drain (.mask m.toNat)))))
      ∧ (queued = false → zero → exec (.bmz m o) s = goes s g target ∧ exec (.bmnz m o) s = goes s g (g.sca.pc + 4))
      ∧ (queued = false → ¬zero → exec (.bmz m o) s = goes s g (g.sca.pc + 4) ∧ exec (.bmnz m o) s = goes s g target))
    ∧ (∀ (s : State) (g : Group) (a : BitVec 5), Ready s g [] →
    exec (.trap a) s = traps s g 0x10 0 ∧ exec .brk s = traps s g 0x11 0)

/-- R139: RETT is privileged-instruction at level U; at levels S and F the level becomes tcause.PLEV, the queues are no longer
frozen and the pc is tres; at level S with PLEV = 2 it is a double trap, which kills the task. On a firmware core it ends the
handler (R352). What the fault record of a double trap holds, code 0 and source 0, is a reading (log 27). -/
def Obligations.ReturnFromTrap : Prop :=
  ∀ (s : State) (g : Group), Ready s g [] →
    let plev := (g.trp.tcause.toNat / 2 ^ 12) % 4
    (g.sca.level = .u → exec .rett s = traps s g 0x02 0)
      ∧ (g.sca.level = .s → plev = 2 → exec .rett s = .next (doubleTrap s g.run 0 0))
      ∧ (g.sca.level ≠ .u → ¬(g.sca.level = .s ∧ plev = 2) →
        ∃ t, exec .rett s = .next t
          ∧ t.group? s.curCore s.curSlot = some { g with
              sca := { g.sca with pc := g.trp.tres, status := .running, level := if plev = 0 then .u else if plev = 1 then .s else .f }
              trp := { g.trp with frozen := false } }
          ∧ (s.curCore < 288 → t = s.put g.run.leaveTrap)
          ∧ (288 ≤ s.curCore → (t.core s.curCore).handler = false))

/-- R140: WAITE ends at once where a selected latch bit is 1 or the operand selects nothing, clearing the selected bits; otherwise
the stream waits, with the limit in cycles of cyc. WAITE_TIMEOUT ends the wait at its limit. R141: YIELD changes no architectural
state; for 16 cycles its slot counts as not ready, which YIELD_EXPIRY ends. R142 steps 1 and 2: EXIT stops the stream for good. At
level U, or where no trap has frozen the queues, every queue entry stays; else the entries that have not begun are discarded and
the rest unfrozen. R143: FENCEI waits until wdone = wseq - 1 and then discards the core's cached words under the group's asid. -/
def Obligations.StreamControl : Prop :=
  ((∀ (s : State) (g : Group) (a : BitVec 5), Ready s g [a] →
    let sel : BitVec 3 := (g.x a.toNat).extractLsb' 0 3
    let limit := ((g.x a.toNat).extractLsb' 32 32).toNat
    let ended := { g.run with sca := { g.run.sca with latch := g.sca.latch &&& ~~~sel, pc := g.sca.pc + 4 } }
    (g.sca.latch &&& sel ≠ 0 ∨ (sel = 0 ∧ limit = 0) → exec (.waite a) s = .next (s.put ended))
      ∧ (g.sca.latch &&& sel = 0 → ¬(sel = 0 ∧ limit = 0) →
          exec (.waite a) s = waits s g (.waite sel (if limit = 0 then none else some (s.cyc s.curCore + limit)))))
  ∧ ∀ (s : State) (g : Group) (c k t : Nat) (sel : BitVec 3), Holds s c k g → g.sca.status = .waiting (.waite sel (some t)) →
      t ≤ s.cyc c →
      exec (.waiteTimeout c k) s = .next (s.setGroup c k
        { g with sca := { g.sca with latch := g.sca.latch &&& ~~~sel, pc := g.sca.pc + 4, status := .running } }))
    ∧ ((∀ (s : State) (g : Group), Ready s g [] →
    exec .yield s = passes s { g with sca := { g.sca with yieldUntil := s.cyc s.curCore + 16 } })
  ∧ ∀ (s : State) (g : Group) (c k : Nat), Holds s c k g → g.sca.yieldUntil ≠ 0 → g.sca.yieldUntil ≤ s.cyc c →
      exec (.yieldExpiry c k) s = .next (s.setGroup c k { g with sca := { g.sca with yieldUntil := 0 } }))
    ∧ (∀ (s : State) (g : Group), Ready s g [] →
    (g.sca.level = .u ∨ g.trp.frozen = false → exec .exit s = .next (s.put (g.setStatus .exiting)))
      ∧ (g.sca.level ≠ .u → g.trp.frozen = true → ∃ g', exec .exit s = .next (s.put g')
          ∧ g'.sca.status = .exiting ∧ g'.trp.frozen = false
          ∧ g'.que.vq = g.que.vq.filter (·.begun) ∧ g'.que.mq = g.que.mq.filter (·.begun) ∧ g'.que.cq = g.que.cq.filter (·.begun)
          ∧ g'.fil = g.fil ∧ g'.sto = g.sto ∧ g'.gra = g.gra ∧ g'.sca.x = g.sca.x))
    ∧ (∀ (s : State) (g : Group), Ready s g [] →
    (g.ord.wdone + 1 ≠ g.ord.wseq → exec .fencei s = waits s g .fencei)
      ∧ (g.ord.wdone + 1 = g.ord.wseq → ∃ t, exec .fencei s = .next t
          ∧ t.group? s.curCore s.curSlot = some g.run.advance
          ∧ (t.core s.curCore).icache
              = (s.core s.curCore).icache.filter fun e => e.1 / 2 ^ 46 != g.trp.asid.toNat % 4096))

/-- R144, R63: MFCR writes the register's value to x d, in the view that the number selects; the privileged view needs level S or
F, and an unassigned number is undefined-encoding. cls reads less in the unprivileged view (R72). The registers of a firmware
core's test block read at levels S and F, its signature where no pattern runs (R80). What a register without a stated width of use
reads above its fields is as R64 gives it; the cycle counter follows log 3. -/
def Obligations.ControlReads : Prop :=
  ∀ (s : State) (g : Group) (d : BitVec 5), Ready s g [] →
    (∀ e ∈ commonRegs s g, quietFor g e.1 →
      exec (.mfcr d (BitVec.ofNat 10 e.1)) s = writes s g d e.2
        ∧ (g.sca.level ≠ .u → exec (.mfcr d (BitVec.ofNat 10 (0x100 + e.1))) s = writes s g d e.2))
    ∧ (g.sca.level ≠ .u → ∀ e ∈ trapRegs s g, exec (.mfcr d (BitVec.ofNat 10 e.1)) s = writes s g d e.2)
    ∧ exec (.mfcr d 0x024) s = writes s g d (clsImage s s.curCore s.curSlot g &&& 0x3F_FFFF)
    ∧ (g.sca.level ≠ .u → exec (.mfcr d 0x124) s = writes s g d (clsImage s s.curCore s.curSlot g))
    ∧ (288 ≤ s.curCore → s.curCore < 292 → g.sca.level ≠ .u →
        (∀ e ∈ testRegs s (s.curCore - 288), exec (.mfcr d (BitVec.ofNat 10 e.1)) s = writes s g d e.2)
        ∧ ((s.test (s.curCore - 288)).stat ≠ 2 → exec (.mfcr d 0x304) s = writes s g d (s.test (s.curCore - 288)).sig))
    ∧ (∀ n : BitVec 10, assigned s.curCore n.toNat = true → 0x100 ≤ n.toNat → g.sca.level = .u →
        exec (.mfcr d n) s = traps s g 0x02 0)
    ∧ (∀ n : BitVec 10, assigned s.curCore n.toNat = false → exec (.mfcr d n) s = traps s g 0x01 (wordOf (.mfcr d n)))

/-- R64, R65, R144: once no queued instruction is in the way, MTCR writes every field of its register at once, or raises register-
access and changes none. From level U only sc, fs and pw can be changed; ptb drops its asid's translations, and cls with the
current EPOCH takes SHARE. R64, R144: the mode checks of MTCR: an unassigned number is undefined-encoding, the privileged view at
level U privileged-instruction. R80, R414: MTCR of a test block at level F. sctsel, sctexp and sctgen are locked while the block
drives its target; the read-only registers accept the value that they read; one write of sctctl sets its fields first and then
performs what its state permits: a START or a RESETCORE that is not permitted raises register-access and changes nothing, an ABORT
elsewhere than in states 1 and 2 has no effect, and in state 2 the pattern stops within 32 test cycles. R74, R259: the privileged
write of another epoch needs wdone = wseq - 1 and an epoch that is not away; it sets wseq to 1, wdone to 0 and the slot's epoch,
and clears the killed bit of that epoch. How soon an aborted pattern stops is a free value (log 15). -/
def Obligations.ControlWrites : Prop :=
  (∀ (s : State) (g : Group) (a : BitVec 5), Ready s g [a] → g.que.vq = [] ∧ g.que.mq = [] ∧ g.que.cq = [] ∧ g.ord.entries = [] →
    let v := g.x a.toNat
    (g.sca.level ≠ .u → ∀ e ∈ writtenRegs g v, writableValue s g e.1 v → exec (.mtcr a (BitVec.ofNat 10 e.1)) s = passes s e.2)
    ∧ (∀ e ∈ writtenRegs g v, e.1 = 0x104 ∨ e.1 = 0x105 ∨ e.1 = 0x120 → writableValue s g (e.1 - 0x100) v →
        exec (.mtcr a (BitVec.ofNat 10 (e.1 - 0x100))) s = passes s e.2)
    ∧ (g.sca.level ≠ .u → writableValue s g 0x124 v → (v.extractLsb' 37 11).toNat = (s.slot s.curCore s.curSlot).epoch % 2048 →
        exec (.mtcr a 0x124) s = passes s { g with idn := { g.idn with share := (v.extractLsb' 32 5).toNat } })
    ∧ (g.sca.level ≠ .u → writableValue s g 0x210 v → ∃ t, exec (.mtcr a 0x210) s = .next t
        ∧ t.group? s.curCore s.curSlot = some ({ g.run with trp := { g.trp with ptb := v } }).advance
        ∧ (t.core s.curCore).tlb = (s.core s.curCore).tlb.filter fun e => e.asid != g.trp.asid.toNat % 4096)
    ∧ (∀ n : BitVec 10, n.toNat < 0x300 → assigned s.curCore n.toNat = true → (g.sca.level = .u → n.toNat < 0x100) →
        n.toNat ≠ 0x124 → ¬ writableValue s g n.toNat v → exec (.mtcr a n) s = traps s g 0x13 0)
    ∧ (∀ n : BitVec 10, n.toNat < 0x300 → assigned s.curCore n.toNat = true → (g.sca.level = .u → n.toNat < 0x100) →
        writable (decide (0x100 ≤ n.toNat)) (baseNumber n.toNat) = 0 → v = readControl s s.curCore s.curSlot g n.toNat →
        exec (.mtcr a n) s = passes s g)
    ∧ (∀ n : BitVec 10, 0x300 ≤ n.toNat → assigned s.curCore n.toNat = true → g.sca.level = .s → exec (.mtcr a n) s = traps s g 0x13 0))
    ∧ (∀ (s : State) (g : Group) (a : BitVec 5) (n : BitVec 10), Ready s g [] →
    (assigned s.curCore n.toNat = false → exec (.mtcr a n) s = traps s g 0x01 (wordOf (.mtcr a n)))
      ∧ (assigned s.curCore n.toNat = true → g.sca.level = .u → 0x100 ≤ n.toNat → exec (.mtcr a n) s = traps s g 0x02 0))
    ∧ (∀ (s : State) (g : Group) (a : BitVec 5), Ready s g [a] → 288 ≤ s.curCore → s.curCore < 292 → g.sca.level = .f →
    let v := g.x a.toNat
    let t := s.test (s.curCore - 288)
    let drives := t.stat = 1 ∨ t.stat = 2 ∨ t.stat = 6
    let refused (n : BitVec 10) : Prop := exec (.mtcr a n) s = traps s g 0x13 0
    (v.toNat < 288 → ¬drives ∨ v.toNat = t.sel → testBecomes s g (.mtcr a 0x300) { t with sel := v.toNat })
    ∧ (288 ≤ v.toNat ∨ (drives ∧ v.toNat ≠ t.sel) → refused 0x300)
    ∧ (¬drives → testBecomes s g (.mtcr a 0x305) { t with exp := v } ∧ testBecomes s g (.mtcr a 0x306) { t with gen := v })
    ∧ (drives → refused 0x305 ∧ refused 0x306)
    ∧ (∀ n : BitVec 10, n = 0x302 ∨ n = 0x303 ∨ n = 0x304 →
        (v = readControl s s.curCore s.curSlot g n.toNat → exec (.mtcr a n) s = passes s g)
        ∧ (v ≠ readControl s s.curCore s.curSlot g n.toNat → refused n))
    ∧ (v &&& ~~~0xF0F#64 ≠ 0 ∨ (v.getLsbD 0 = true ∧ v.getLsbD 3 = true) → refused 0x301)
    ∧ (v &&& ~~~0xF0F#64 = 0 → ¬(v.getLsbD 0 = true ∧ v.getLsbD 3 = true) →
        let t1 := { t with abtpri := (v.extractLsb' 8 4).toNat, abten := v.getLsbD 2 }
        let startable := (t.stat = 0 ∨ t.stat = 3 ∨ t.stat = 4 ∨ t.stat = 5) ∧ s.occupied t.sel = false
          ∧ testedElsewhere s (s.curCore - 288) t.sel = false
        let write := testBecomes s g (.mtcr a 0x301)
        (v.getLsbD 0 = true → (startable → write { t1 with stat := 1, cnt := 0, sig := 0 }) ∧ (¬startable → refused 0x301))
        ∧ (v.getLsbD 3 = true → (t.stat = 5 → write { t1 with stat := 6, started := s.now }) ∧ (t.stat ≠ 5 → refused 0x301))
        ∧ (v.getLsbD 0 = false → v.getLsbD 3 = false →
            (v.getLsbD 1 = true → t.stat = 1 → write { t1 with stat := 5 })
            ∧ (v.getLsbD 1 = true → t.stat = 2 → t.stopAt = none → s.now - t.started < 250000 →
                ∃ e, s.now ≤ e ∧ e ≤ s.now + 32 ∧ write { t1 with stopAt := some e })
            ∧ (v.getLsbD 1 = false ∨ (t.stat ≠ 1 ∧ (t.stat = 2 → t.stopAt ≠ none ∨ 250000 ≤ s.now - t.started)) → write t1))))
    ∧ (∀ (s : State) (g : Group) (a : BitVec 5), Ready s g [a] → g.sca.level ≠ .u →
    let v := g.x a.toNat
    let e := (v.extractLsb' 37 11).toNat
    let sl := s.slot s.curCore s.curSlot
    e ≠ sl.epoch % 2048 → writableValue s g 0x124 v →
      (g.ord.wdone + 1 = g.ord.wseq → sl.away.getLsbD e = false →
        ∃ t, exec (.epochWrite a) s = .next t ∧ (t.slot s.curCore s.curSlot).epoch = e
          ∧ (t.slot s.curCore s.curSlot).killed = sl.killed &&& ~~~(1#2048 <<< e)
          ∧ (t.slot s.curCore s.curSlot).away = sl.away
          ∧ t.group? s.curCore s.curSlot = some ({ g.run with
              idn := { g.idn with share := (v.extractLsb' 32 5).toNat }
              ord := { g.ord with wseq := 1, wdone := 0, entries := [] } }).advance)
      ∧ (g.ord.wdone + 1 ≠ g.ord.wseq ∨ sl.away.getLsbD e = true → exec (.epochWrite a) s = traps s g 0x13 0))

/-- R146, R147, R148: the vector type is replaced and its old value written to x d; a value that R42 does not permit is undefined-
encoding and changes nothing. -/
def Obligations.VectorTypeResults : Prop :=
  ∀ (s : State) (g : Group) (d a : BitVec 5),
    (Ready s g [a] →
      (vtValid (g.x a.toNat) = true → exec (.setvt d a) s = writes s (g.setVt (g.x a.toNat)) d g.vec.vt)
        ∧ (vtValid (g.x a.toNat) = false → exec (.setvt d a) s = traps s g 0x01 (wordOf (.setvt d a)))
        ∧ ∀ i : BitVec 15,
          let base := (g.x a.toNat).toInt + i.toInt
          (0 ≤ base ∧ base ≤ 767 → ∃ vt : BitVec 64, exec (.setbase d a i) s = writes s (g.setVt vt) d g.vec.vt
              ∧ vtBase vt = base.toNat ∧ vt &&& ~~~0xFFC000 = g.vec.vt &&& ~~~0xFFC000)
            ∧ (base < 0 ∨ 767 < base → exec (.setbase d a i) s = traps s g 0x01 (wordOf (.setbase d a i))))
    ∧ (Ready s g [] → ∀ (z : BitVec 1) (r : BitVec 3) (sw e : BitVec 4) (c : BitVec 3),
        (Instr.setvti d z r sw e c).WellFormed → ∃ vt : BitVec 64, exec (.setvti d z r sw e c) s = writes s (g.setVt vt) d g.vec.vt
          ∧ vtDcls vt = c.toNat ∧ vtScls vt = c.toNat ∧ vtEwd vt = e.toNat + 1 ∧ vtEws vt = sw.toNat + 1 ∧ vtRm vt = r.toNat
          ∧ vtFz vt = (if z = 0 then 0 else 2) ∧ vtSat vt = false ∧ vtBase vt = vtBase g.vec.vt)

/-- R145, R100 to R103: SETVL that keeps vlmax and meets no gate begins a strip at once. One that asks for another vlmax waits
while the vector or the matrix queue holds an entry, or another negotiation on its core goes first. A smaller vlmax is then the
one that the request gives; a larger one is the largest that is asked for, at least twice the present one, whose units are there,
and where not even the next can be had vlmax stays. R145, R263, R337: a gated SETVL reads the gate's progress word, after its
negotiation of vlmax: where its COUNT has reached the watermark or COMPLETE is set, gcons grows by n and the strip begins;
poisoned, it is gate-poisoned; else the stream waits at its gate. That gate-poisoned at a gated SETVL has taddr 0 is a reading
(log 25). -/
def Obligations.StripResults : Prop :=
  (∀ (s : State) (g : Group) (d a b : BitVec 5) (k gt : BitVec 1), Ready s g [a, b] →
    let target := vlmaxTarget g.protected_ (g.x b.toNat)
    let ungated := gt = 0 ∨ g.ord.gate.getLsbD 0 = false
    let asked := waits s g (.vlmax d.toNat (g.x a.toNat) (g.x b.toNat) (gt == 1) (k == 1))
    let missing (v : Nat) : Nat := sliceUnits g.idn.alloc v g.protected_ - g.unitsHeld
    let larger (v : Nat) : Prop := (v = 256 ∨ v = 512 ∨ v = 1024) ∧ v ≤ target ∧ 2 * g.vec.vlmax ≤ v
    let strip (v : Nat) : Prop := ∃ t g', exec (.setvl d a b k gt) s = .next t ∧ t.group? s.curCore s.curSlot = some g' ∧ t.mem = s.mem
      ∧ g'.vec.vlmax = v ∧ g'.sca.pc = g.sca.pc + 4 ∧ g'.sca.x = (g.setX d.toNat (BitVec.ofNat 64 (stripLength s v (g.x a.toNat)))).sca.x
      ∧ g'.vec.vl = stripLength s v (g.x a.toNat)
    (ungated → b = 0 ∨ 288 ≤ s.curCore ∨ target = g.vec.vlmax →
        exec (.setvl d a b k gt) s = beginsStrip s g d (stripLength s g.vec.vlmax (g.x a.toNat)) (k == 1))
    ∧ (b ≠ 0 → s.curCore < 288 → target ≠ g.vec.vlmax →
        g.que.vq ≠ [] ∨ g.que.mq ≠ [] ∨ negotiationFirst s s.curCore s.curSlot = true → exec (.setvl d a b k gt) s = asked)
    ∧ (ungated → b ≠ 0 → s.curCore < 288 → g.que.vq = [] → g.que.mq = [] → negotiationFirst s s.curCore s.curSlot = false →
        (target < g.vec.vlmax → strip target)
        ∧ (g.vec.vlmax < target → (∀ v, larger v → unitsAvailable s s.curCore < missing v) → strip g.vec.vlmax)
        ∧ (∀ v, g.vec.vlmax < target → larger v → missing v ≤ unitsAvailable s s.curCore →
            (∀ u, larger u → v < u → unitsAvailable s s.curCore < missing u) → (∀ x ∈ (s.core s.curCore).l1, x.dirty = 0) → strip v)))
    ∧ (∀ (s s1 s2 : State) (g g2 : Group) (d a b : BitVec 5) (k : BitVec 1) (w : Word), Ready s g [a, b] → g.ord.gate.getLsbD 0 = true →
    meetsGate s s2 g g2 b →
    let n := stripLength s g2.vec.vlmax (g.x a.toNat)
    let need := ((g.ord.gcons.toNat + n) * (g.ord.gate.toNat / 2 ^ 48) + 255) / 256
    let s0 := s2.setGroup s.curCore s.curSlot g2.run
    readProgress s0 (ctxOf s0 s.curCore s.curSlot g2.run) (g.ord.gate &&& 0xFFFF_FFFF_FFF8) = (s1, .ok w) →
      (w.getLsbD 63 = true → exec (.setvl d a b k 1) s = .next (s1.setGroup s.curCore s.curSlot (g2.run.raiseScalar 0x0E 0)))
      ∧ (w.getLsbD 63 = false → w.getLsbD 62 = true ∨ need ≤ w.toNat % 2 ^ 62 →
          ∃ t g', exec (.setvl d a b k 1) s = .next t ∧ t.group? s.curCore s.curSlot = some g' ∧ g'.vec.vl = n
            ∧ g'.ord.gcons = g.ord.gcons + BitVec.ofNat 64 n ∧ g'.sca.pc = g.sca.pc + 4)
      ∧ (w.getLsbD 63 = false → w.getLsbD 62 = false → w.toNat % 2 ^ 62 < need →
          exec (.setvl d a b k 1) s
            = .next (s1.setGroup s.curCore s.curSlot (g2.run.wait (.gate d.toNat (BitVec.ofNat 64 n) (k == 1))))))

/-- R98: VLENQ gives the frame of min(x a, 768) slices at the current vlmax, rounded up to a multiple of 48. Its word has zeros in
b and fn, and any other word of its major is undefined-encoding. -/
def Obligations.SpillFrameSize : Prop :=
  ∀ (s : State) (g : Group) (d a : BitVec 5), Ready s g [a] → g.vec.vlmax ≤ 1024 →
    ∃ v : Word, exec (.vlenq d a) s = writes s g d v
      ∧ let bytes := (Min.min (g.x a.toNat).toNat 768 + 1) / 2 * g.vec.vlmax
        48 ∣ v.toNat ∧ bytes ≤ v.toNat ∧ v.toNat < bytes + 48
          ∧ encode (.vlenq d a) = some (0b0100011 * 2 ^ 25 + d.toNat * 2 ^ 20 + a.toNat * 2 ^ 15)
          ∧ ∀ low, low < 2 ^ 15 → low ≠ 0 →
              (decodeWord (0b0100011 * 2 ^ 25 + d.toNat * 2 ^ 20 + a.toNat * 2 ^ 15 + low)).toOption = none

/-- R190, R191: a SETTILE whose grant keeps the geometry writes it at once; one that changes the geometry waits for the matrix
queue, then claims storage anew, zeroes every tile and releases the latch. Ill-formed operands, and a firmware core, are
undefined-encoding. -/
def Obligations.GrantResults : Prop :=
  ∀ (s : State) (g : Group) (d a b : BitVec 5), Ready s g [a, b] →
    let x := g.x a.toNat
    let y := g.x b.toNat
    (288 ≤ s.curCore → exec (.settile d a b) s = traps s g 0x01 (wordOf (.settile d a b)))
    ∧ (s.curCore < 288 → tileArgsOk x y = false ∨ computeGrant s s.curCore g.run x y = none →
        exec (.settile d a b) s = traps s g 0x01 (wordOf (.settile d a b)))
    ∧ (s.curCore < 288 → tileArgsOk x y = true → ∀ r, computeGrant s s.curCore g.run x y = some r →
        (geometryChanges g.gra r = false → exec (.settile d a b) s = writes s { g with gra := r } d (grantResult r))
        ∧ (geometryChanges g.gra r = true → g.que.mq ≠ [] → exec (.settile d a b) s = waits s g (.settile d.toNat x y))
        ∧ (geometryChanges g.gra r = true → g.que.mq = [] → ∃ g', exec (.settile d a b) s = writes s g' d (grantResult r)
            ∧ g'.gra = r ∧ g'.fil.tiles = [] ∧ g'.fil.latch = none ∧ g'.sto.honoured = none ∧ g'.vec = g.vec ∧ g'.sca = g.sca))

/-- R65: an MTCR that waited for queued work writes its register in MTCR_FS, MTCR_PW, MTCR_PTB and MTCR_ASID, once that work is
done. R100: VLMAX_NEGOTIATION carries out a SETVL that waited for the queues; a smaller vlmax is the one that the request gives.
R191 step 1: SETTILE_STORAGE_CLAIM carries out a SETTILE that waited, once the matrix queue is empty. R18, R19, R143: an
instruction that waits for a producer, for room, or for its group's stores executes again once that is there: the status is
running and nothing else has changed. R213, R217: a page walk made ahead of an access always completes for an address in the
global space; where no leaf serves the address, nothing changes. An instruction that waited executes again, and the operands of
the steps are the model's choices (logs 2 and 30). -/
def Obligations.StreamWaitsEnd : Prop :=
  (∀ (s : State) (g : Group) (c k : Nat) (v : Word), Holds s c k g →
    g.que.vq = [] ∧ g.que.mq = [] ∧ g.que.cq = [] ∧ g.ord.entries = [] → c = s.curCore → k = s.curSlot →
    (g.sca.status = .waiting (.mtcr 0x105 v) → writableValue s g 0x105 v →
        exec (.mtcrFs c k) s = passes s { g with vec := { g.vec with fs := v } })
    ∧ (g.sca.status = .waiting (.mtcr 0x120 v) → writableValue s g 0x120 v →
        exec (.mtcrPw c k) s = passes s { g with ord := { g.ord with pw := v } })
    ∧ (g.sca.status = .waiting (.mtcr 0x210 v) → writableValue s g 0x210 v →
        ∃ t, exec (.mtcrPtb c k) s = .next t ∧ t.group? c k = some ({ g.run with trp := { g.trp with ptb := v } }).advance)
    ∧ (g.sca.status = .waiting (.mtcr 0x211 v) → writableValue s g 0x211 v →
        exec (.mtcrAsid c k) s = passes s { g with trp := { g.trp with asid := v } }))
    ∧ (∀ (s : State) (g : Group) (c k d : Nat) (n req : Word) (gated keep : Bool), Holds s c k g →
    g.sca.status = .waiting (.vlmax d n req gated keep) → g.que.vq = [] → g.que.mq = [] →
    gated = false ∨ g.ord.gate.getLsbD 0 = false → vlmaxTarget g.protected_ req < g.vec.vlmax → negotiationFirst s c k = false →
      ∃ t g', exec (.vlmaxNegotiation c k) s = .next t ∧ t.group? c k = some g' ∧ g'.vec.vlmax = vlmaxTarget g.protected_ req
        ∧ g'.sca.pc = g.sca.pc + 4 ∧ g'.sca.status = .running)
    ∧ (∀ (s : State) (g : Group) (c k d : Nat) (x y : Word) (r : Grant), Holds s c k g →
    g.sca.status = .waiting (.settile d x y) → g.que.mq = [] → tileArgsOk x y = true → computeGrant s c g x y = some r →
      ∃ t g', exec (.settileStorageClaim c k) s = .next t ∧ t.group? c k = some g' ∧ g'.gra = r
        ∧ g'.sca.pc = g.sca.pc + 4 ∧ g'.sca.status = .running
        ∧ (geometryChanges g.gra r = true → g'.fil.tiles = [] ∧ g'.fil.latch = none))
    ∧ (∀ (s : State) (g : Group) (c k : Nat), Holds s c k g →
    (∀ d, g.sca.status = .waiting (.drain d) → drainOver s c k g d = true → exec (.drainEnd c k) s = .next (s.setGroup c k g.run))
      ∧ (g.sca.status = .waiting .fencei → g.ord.wdone + 1 = g.ord.wseq → exec (.drainEnd c k) s = .next (s.setGroup c k g.run))
      ∧ (∀ r, g.sca.status = .waiting (.push r) → roomFor s g r = true → exec (.pushResume c k) s = .next (s.setGroup c k g.run)))
    ∧ (∀ (s : State) (g : Group) (c k : Nat) (va : BitVec 64) (acc : Access), Holds s c k g → va.toNat < 2 ^ 48 →
    ∃ t, exec (.pageWalk c k va acc) s = .next t
      ∧ (walkTop s (ctxOf s c k g) va.toNat = none → t = s)
      ∧ (∀ e, walkTop s (ctxOf s c k g) va.toNat = some e → pageAllows acc g.sca.level e.leaf = true →
          t = touchEntry s (ctxOf s c k g) (accWrites acc) e))

/-- R16, R19, R268: the last word of a convoy pushes it whole, with the words and the state in force, behind what the vector queue
holds; the stream goes on at the next word, and the register files, the other queues, the grants and the trap registers are as
before. The words are those for which pushInfo answers: VADD, VSUB, VRSUB, VMUL, VMULH, VDIV, VREM, VMIN, VMAX, VFMA, VFMS, VFNMA,
VAND, VOR, VXOR, VSHL, VSHR, VSAR, VADC, VSBC, VCMPEQ, VCMPNE, VCMPLT, VCMPLE, VCMPGT, VCMPGE, VCMPUN, VMERGE, VABS, VNEG, VNOT,
VSQRT, VRSQE, VRCPE, VEXP2, VLOG2, VSIGM, VCLZ, VPOPC, VCVT, VMV, VID, VSLUP, VSLDN, VSL1UP, VSL1DN, VPERM, VCOMP, VIOTA, VDOT4,
VDOT8, VREDSUM, VREDMAX, VREDMIN, VREDAND, VREDOR, VREDXOR, VTOPM, VEXT, VINS, MAND, MOR, MXOR, MANDN, MORN, MNOT, MMOV, MSHL1,
MSHR1, MSET, MCLR, MFROMX, VMPOP, VMFIRST, VMLAST, VPICK.MAX, VPICK.MIN, VPUSHQ, VLD, VLDS, VLDX, VLDSEG, VST, VSTS, VSTX, VSTSEG,
the forms of VAMO and VREDM, VSPILL and VFILL. That vst is 0 for a convoy that enters an empty queue, and that the convoy captures
at its last word, are readings (logs 12 and 13). -/
def Obligations.ConvoyPush : Prop :=
  ∀ (s : State) (g : Group) (i : Instr), (pushInfo i).isSome = true → CanPush s g i →
    ∃ e g', exec i s = .next (s.put g') ∧ g'.que = { g.que with vq := g.que.vq ++ [e] }
      ∧ e.members = convoyWith g i ∧ e.pc = (if g.sca.openWords = [] then g.sca.pc else g.sca.openPc)
      ∧ e.vl = g.vec.vl ∧ e.vt = g.vec.vt ∧ e.sc = g.vec.sc ∧ e.vlmax = g.vec.vlmax ∧ e.pw = g.ord.pw ∧ e.gate = g.ord.gate
      ∧ e.det = g.deterministic ∧ e.begun = false ∧ e.serial = g.sca.serial
      ∧ g'.sca.pc = g.sca.pc + 4 ∧ g'.sca.openWords = [] ∧ g'.sca.level = g.sca.level ∧ g'.sca.status = .running
      ∧ g'.fil = g.fil ∧ g'.gra = g.gra ∧ g'.trp = g.trp ∧ g'.idn = g.idn ∧ g'.sto = g.sto
      ∧ g'.vec = { g.vec with vst := if g.que.vq = [] then 0 else g.vec.vst }

/-- R16, R173: a convoy of one word that is no store carries the values of the x registers that it reads, and tags the register
that it will write; no x register and no sequence number has changed. R17, R238, R248: a vector store alone in its convoy takes
the next store-sequence number, and one more for N = 1 with a nonzero pw.ADDR; its witness is in wout at once; VAMO and VREDM are
counted in ac. -/
def Obligations.ConvoyContents : Prop :=
  (∀ (s : State) (g : Group) (i : Instr) (p : PushInfo), pushInfo i = some p → CanPush s g i → g.sca.openWords = [] → p.store = false →
    ∃ e g', exec i s = .next (s.put g') ∧ g'.que.vq = g.que.vq ++ [e] ∧ e.caps = [p.regs.map g.x] ∧ e.seq = 0
      ∧ g'.sca.x = g.sca.x ∧ g'.ord.wseq = g.ord.wseq ∧ g'.ord.entries = g.ord.entries ∧ g'.ord.counted = g.ord.counted
      ∧ (∀ r, r ≠ p.xdest → g'.tagsOf r = g.tagsOf r)
      ∧ (p.xdest ≠ 0 → g'.tagsOf p.xdest = g.tagsOf p.xdest ++ [g.sca.serial]))
    ∧ (∀ (s : State) (g : Group) (i : Instr) (p : PushInfo), pushInfo i = some p → CanPush s g i → g.sca.openWords = [] → p.store = true →
    let two := p.notify = true ∧ g.ord.pw.extractLsb' 3 45 ≠ 0
    let epoch := (s.slot s.curCore s.curSlot).epoch
    ∃ e g', exec i s = .next (s.put g') ∧ g'.que.vq = g.que.vq ++ [e] ∧ e.caps = [p.regs.map g.x] ∧ e.seq = g.ord.wseq
      ∧ (e.notify = true ↔ two)
      ∧ (two → g'.ord.wseq = g.ord.wseq + 2) ∧ (¬two → g'.ord.wseq = g.ord.wseq + 1) ∧ g'.ord.wdone = g.ord.wdone
      ∧ g'.count 2 = g.count 2 + (if p.ac then 1 else 0)
      ∧ (∀ r, r ≠ p.wout → g'.x r = g.x r)
      ∧ (p.wout ≠ 0 → g'.x p.wout = witnessOf s.curCore s.curSlot epoch g.ord.wseq))

/-- R24: a word with C = 1 joins the open convoy and pushes nothing; a word that breaks the rules of composition, and a scalar
word inside a convoy, raise convoy-composition at the convoy's first word, and nothing of it is pushed. R18, R19, R30, R74: what a
convoy's last word meets instead of a push: while the queues are frozen a double trap; a tagged register to drain to; an exhausted
store sequence; a full queue. R19, R30, R384: what a matrix word meets instead: a full queue, frozen queues, a firmware core. That
a push while the queues are frozen is a double trap at once follows log 27. -/
def Obligations.RefusedPushes : Prop :=
  (∀ (s : State) (g : Group), s.powered = true → s.group? s.curCore s.curSlot = some g →
    let start := if g.sca.openWords = [] then g.sca.pc else g.sca.openPc
    let broken := (Host.Outcome.next (s.put ((g.run.setPc start).raiseScalar 0x03 0)) : Out)
    (∀ i p, pushInfo i = some p → p.chain = true → convoyOk ((convoyWith g i).filterMap pushInfo) = true →
        exec i s = .next (s.put ({ g.run with sca := { g.run.sca with openWords := convoyWith g i, openPc := start } }).advance))
    ∧ (∀ i, (pushInfo i).isSome = true → convoyOk ((convoyWith g i).filterMap pushInfo) = false → exec i s = broken)
    ∧ (g.sca.openWords ≠ [] → ∀ (d a b : BitVec 5) (t : BitVec 2),
        exec (.add d a b) s = broken ∧ exec (.ckick a) s = broken ∧ (s.curCore < 288 → exec (.tzero t) s = broken)))
    ∧ (∀ (s : State) (g : Group) (i : Instr) (p : PushInfo), s.powered = true → s.group? s.curCore s.curSlot = some g →
    pushInfo i = some p → p.chain = false → g.sca.openWords = [] → convoyOk [p] = true →
    (g.trp.frozen = true → exec i s = .next (doubleTrap s g.run 0 0))
    ∧ (g.trp.frozen = false → (∃ r ∈ p.regs, g.tagged r = true) → exec i s = waits s g (.drain (.regs p.regs)))
    ∧ (g.trp.frozen = false → (∀ r ∈ p.regs, g.tagged r = false) → p.store = true → 2 ^ 38 - 1 < g.ord.wseq + entriesOf g [p] →
        exec i s = traps s g 0x12 0)
    ∧ (g.trp.frozen = false → (∀ r ∈ p.regs, g.tagged r = false) → p.store = false ∨ g.ord.wseq + entriesOf g [p] ≤ 2 ^ 38 - 1 →
        32 ≤ g.que.vq.length → exec i s = waits s g (.push (.queue .vector))))
    ∧ (∀ (s : State) (g : Group) (t : BitVec 2), Ready s g [] →
    (s.curCore < 288 → g.trp.frozen = false → 16 ≤ g.que.mq.length → exec (.tzero t) s = waits s g (.push (.queue .matrix)))
      ∧ (s.curCore < 288 → g.trp.frozen = true → exec (.tzero t) s = .next (doubleTrap s g.run 0 0))
      ∧ (288 ≤ s.curCore → exec (.tzero t) s = traps s g 0x01 (wordOf (.tzero t))))

/-- R16, R19, R75, R200: each matrix-queue word is pushed with its x registers, vl, VT and the grant; TSTACC and TSAVE are counted
in mc. -/
def Obligations.MatrixPush : Prop :=
  ∀ (s : State) (g : Group) (n : BitVec 6) (t : BitVec 2) (a b : BitVec 5) (r : BitVec 1) (f : BitVec 4), s.curCore < 288 →
    g.que.mq.length < 16 → g.count 1 < 65535 →
    (Unhindered s g [a] → pushesMatrix s g (.tlda n a) (g.x a.toNat) 0 false
        ∧ pushesMatrix s g (.tmma n a t r) (g.x a.toNat) 0 false ∧ pushesMatrix s g (.tmmaOvr n a t r) (g.x a.toNat) 0 false
        ∧ pushesMatrix s g (.tsave t a) (g.x a.toNat) 0 true ∧ pushesMatrix s g (.trestore t a) (g.x a.toNat) 0 false)
    ∧ (Unhindered s g [a, b] → pushesMatrix s g (.tldacc t a b) (g.x a.toNat) (g.x b.toNat) false
        ∧ pushesMatrix s g (.tstacc t a b f) (g.x a.toNat) (g.x b.toNat) true)
    ∧ (Unhindered s g [] → pushesMatrix s g (.tzero t) 0 0 false ∧ pushesMatrix s g (.ttov t n) 0 0 false
        ∧ pushesMatrix s g (.tfromv t n) 0 0 false ∧ pushesMatrix s g .trel 0 0 false)

/-- R16, R281, R286: COPY is pushed with its registers and counted in cc; it takes a store-sequence entry where its destination is
in the global form. CKICK takes one always. R278, R379: QOP and COLL words are pushed in the same way; QOP is counted nowhere,
COLL in oc; QSTAT and CATTEMPT tag the register that they will write (R270). -/
def Obligations.CopyPush : Prop :=
  (∀ (s : State) (g : Group) (d a b : BitVec 5) (t : BitVec 2) (f : BitVec 4), copyRoom g 0 →
    let global : Bool := decide ((g.x a.toNat).toNat < 2 ^ 48)
    (Unhindered s g [d, a, b] →
      pushesCopy s g (.copyLinear d a b t) (.copy .linear 0 t.toNat) (g.x d.toNat) 0 (g.x a.toNat) (g.x b.toNat) 0 global 0
        ∧ pushesCopy s g (.copyFill d a b f t) (.copy .fill f.toNat t.toNat) (g.x d.toNat) 0 (g.x a.toNat) (g.x b.toNat) 0 global 0
        ∧ pushesCopy s g (.copyRemote d a b t) (.copy .remote 0 t.toNat) (g.x d.toNat) 0 (g.x a.toNat) (g.x b.toNat) 0 global 0)
    ∧ (Unhindered s g [d, a, b] → g.tagged (d.toNat + 1) = false →
      pushesCopy s g (.copyBox d a b t) (.copy .box 0 t.toNat) (g.x d.toNat) (g.x (d.toNat + 1)) (g.x a.toNat) (g.x b.toNat) 0 global 0
        ∧ pushesCopy s g (.copyTilea d a b f t) (.copy .tilea f.toNat t.toNat) (g.x d.toNat) (g.x (d.toNat + 1)) (g.x a.toNat) (g.x b.toNat)
            0 global 0
        ∧ pushesCopy s g (.copyTileb d a b f t) (.copy .tileb f.toNat t.toNat) (g.x d.toNat) (g.x (d.toNat + 1)) (g.x a.toNat) (g.x b.toNat)
            0 global 0
        ∧ pushesCopy s g (.copyTilec d a b f t) (.copy .tilec f.toNat t.toNat) (g.x d.toNat) (g.x (d.toNat + 1)) (g.x a.toNat) (g.x b.toNat)
            0 global 0)
    ∧ (Unhindered s g [a] → pushesCopy s g (.ckick a) .kick 0 0 (g.x a.toNat) 0 0 true 0))
    ∧ (∀ (s : State) (g : Group) (d a b : BitVec 5) (p : BitVec 3) (o : BitVec 2) (f : BitVec 4), copyRoom g 3 →
    (Unhindered s g [a] → pushesCopy s g (.qbindMem a p) (.bindMem p.toNat) 0 0 (g.x a.toNat) 0 4 false 0)
    ∧ (Unhindered s g [] →
      pushesCopy s g (.qbindCopy p) (.bindCopy p.toNat) 0 0 0 0 4 false 0 ∧ pushesCopy s g (.qbindFifo p) (.bindFifo p.toNat) 0 0 0 0 4 false 0
        ∧ pushesCopy s g (.qunbind p) (.unbind p.toNat) 0 0 0 0 4 false 0 ∧ pushesCopy s g (.qdrain p) (.drain p.toNat) 0 0 0 0 4 false 0
        ∧ pushesCopy s g (.qstat d p) (.stat d.toNat p.toNat) 0 0 0 0 4 false d.toNat)
    ∧ (Unhindered s g [a, b] →
      pushesCopy s g (.allred a b o f) (.coll .allred f.toNat o.toNat 0) 0 0 (g.x a.toNat) (g.x b.toNat) 3 false 0
        ∧ pushesCopy s g (.redscat a b o f) (.coll .redscat f.toNat o.toNat 0) 0 0 (g.x a.toNat) (g.x b.toNat) 3 false 0
        ∧ pushesCopy s g (.allgath a b) (.coll .allgath 0 0 0) 0 0 (g.x a.toNat) (g.x b.toNat) 3 false 0
        ∧ pushesCopy s g (.bcast a b) (.coll .bcast 0 0 0) 0 0 (g.x a.toNat) (g.x b.toNat) 3 false 0
        ∧ pushesCopy s g (.cabort a b) (.coll .cabort 0 0 0) 0 0 (g.x a.toNat) (g.x b.toNat) 3 false 0
        ∧ pushesCopy s g (.cattempt d a b) (.coll .cattempt 0 0 d.toNat) 0 0 (g.x a.toNat) (g.x b.toNat) 3 false d.toNat))

/-- R39, R220, R242, R245: a scalar load of n bytes at x b + n * imm waits for its witness, checks it, the alignment and the
address, and writes the extended value to x d. With nothing cached and no write under way that value is what memory holds there,
and memory changes in the walker's leaf entries only. The pace at which an access performs (log 1) and the walker's own writes
(log 17) are the model's choices. -/
def Obligations.ScalarLoads : Prop :=
  ∀ (s : State) (g : Group) (d b w : BitVec 5) (i : BitVec 10), Ready s g [b, w] → ∀ e ∈ loadForms d b w i,
    let n := e.2.1
    let addr := g.x b.toNat + i.signExtend 64 * BitVec.ofNat 64 n
    let wit := g.x w.toNat
    let ctx := ctxOf s s.curCore s.curSlot g
    let sps := spans s ctx .load addr n
    (s.pace = .lagged → exec e.1 s = waits s g (.load d.toNat addr n e.2.2 wit))
    ∧ (s.pace = .prompt → ∀ c, checkWitness s wit = some c → exec e.1 s = faults s g c wit)
    ∧ (s.pace = .prompt → checkWitness s wit = none → waitOver s wit = false → g.idn.team = 0 →
        exec e.1 s = waits s g (.load d.toNat addr n e.2.2 wit))
    ∧ (s.pace = .prompt → checkWitness s wit = none → waitOver s wit = true →
        (addr.toNat % n ≠ 0 → exec e.1 s = faults s g 0x05 addr)
        ∧ (addr.toNat % n = 0 → ∀ f, accessFault sps = some f → exec e.1 s = faults s g f.1 f.2)
        ∧ (addr.toNat % n = 0 → ∀ m, readMem s ctx 0 0 (witKind wit != 0) addr n = m → m.stall = none → m.fault = none →
            exec e.1 s = .next (m.s.setGroup s.curCore s.curSlot (g.run.setX d.toNat (extended e.2.2 n m.val)).advance))
        ∧ (addr.toNat % n = 0 → ∀ r, sps = [{ addr := addr, len := n, ref := .ok r }] → r.key % n = 0 → Settled s →
            (s.core s.curCore).l1 = [] → poisoned s (r.key / 48) = false → r.chk = false ∨ mismatched s (r.key / 48) = false →
            r.local_ = true ∨ r.tier ≠ 3 → ∃ t, exec e.1 s = .next t
              ∧ t.group? s.curCore s.curSlot = some (g.run.setX d.toNat (extended e.2.2 n (memNat t.mem r.key n))).advance
              ∧ ∀ k, awayFromLeaves sps k → memGet t.mem k = memGet s.mem k))

/-- R74, R220, R242: a scalar store checks the store sequence, the alignment and the address; it then takes the next sequence
number, its witness is in x w, and the stream goes on. With no write under way and no resilient team, at the prompt pace, the n
low bytes of x src are in memory at once, but where a remote device's window stands there, and no other byte has changed but in
the walker's leaf entries. The pace at which an access performs (log 1) and the walker's own writes (log 17) are the model's
choices. -/
def Obligations.ScalarStores : Prop :=
  ∀ (s : State) (g : Group) (r b w : BitVec 5) (i : BitVec 10), Ready s g [r, b] → ∀ e ∈ storeForms r b w i,
    let n := e.2
    let addr := g.x b.toNat + i.signExtend 64 * BitVec.ofNat 64 n
    let sps := spans s (ctxOf s s.curCore s.curSlot g) .store addr n
    (2 ^ 38 - 1 < g.ord.wseq + 1 → exec e.1 s = faults s g 0x12 0)
    ∧ (g.ord.wseq + 1 ≤ 2 ^ 38 - 1 → addr.toNat % n ≠ 0 → exec e.1 s = faults s g 0x05 addr)
    ∧ (g.ord.wseq + 1 ≤ 2 ^ 38 - 1 → addr.toNat % n = 0 → ∀ f, accessFault sps = some f → exec e.1 s = faults s g f.1 f.2)
    ∧ (g.ord.wseq + 1 ≤ 2 ^ 38 - 1 → addr.toNat % n = 0 → accessFault sps = none → (∀ t, s.teamOf g = some t → t.resilient = none) →
        ∃ t, exec e.1 s = .next t ∧ t.group? s.curCore s.curSlot = some (storedGroup s g w)
          ∧ (s.pace = .prompt → Safe s → Settled s →
              (∀ k, k ∉ spanKeys (spanRefs sps) → awayFromLeaves sps k → memGet t.mem k = memGet s.mem k)
              ∧ ∀ q, sps = [{ addr := addr, len := n, ref := .ok q }] → q.key + n ≤ remoteKey 0 0 → ∀ j, j < n →
                  memGet t.mem (q.key + j) = (g.x r.toNat).extractLsb' (8 * j) 8))

/-- R243: an AMO whose operands pass the checks takes a sequence number and a count in ac, leaves its witness in x w, and replaces
the location by the operation's result; a form with d ≠ 0 then writes the sign-extended old value to x d, and its count ends. No
other byte is changed, but in the walker's leaf entries. The pace at which an access performs (log 1) and the walker's own writes
(log 17) are the model's choices. -/
def Obligations.ScalarAtomics : Prop :=
  ∀ (s : State) (g : Group) (d a b w : BitVec 5) (z : BitVec 1), ∀ e ∈ atomicForms d a b w z, e.1.WellFormed →
    Ready s g ([a, b] ++ if e.2 = .cas then [b + 1] else []) →
    let n := if z = 1 then 8 else 4
    let addr := g.x a.toNat
    let arg := (g.x b.toNat).toNat % 2 ^ (8 * n)
    let arg2 := if e.2 = .cas then (g.x (b.toNat + 1)).toNat % 2 ^ (8 * n) else 0
    let sps := spans s (ctxOf s s.curCore s.curSlot g) .atomic addr n
    let touched := (touchSpans s (ctxOf s s.curCore s.curSlot g) true sps).mem
    (2 ^ 38 - 1 < g.ord.wseq + 1 → exec e.1 s = faults s g 0x12 0)
    ∧ (g.ord.wseq + 1 ≤ 2 ^ 38 - 1 → 65535 ≤ g.count 2 → exec e.1 s = waits s g (.push (.counter 2)))
    ∧ (g.ord.wseq + 1 ≤ 2 ^ 38 - 1 → g.count 2 < 65535 →
        (addr.toNat % n ≠ 0 → exec e.1 s = faults s g 0x05 addr)
        ∧ (addr.toNat % n = 0 → ∀ f, accessFault sps = some f → exec e.1 s = faults s g f.1 f.2)
        ∧ (addr.toNat % n = 0 → ∀ r, sps = [{ addr := addr, len := n, ref := .ok r }] →
            (r.local_ = false → 2 ≤ r.tier → exec e.1 s = faults s g 0x07 addr)
            ∧ (r.local_ = true ∨ r.tier ≤ 1 → s.pace = .prompt → Safe s → Settled s → r.key % n = 0 → r.key + n ≤ remoteKey 0 0 →
                (d ≠ 0 → poisoned s (r.key / 48) = false ∧ (r.chk = false ∨ mismatched s (r.key / 48) = false)) →
                ∃ t, exec e.1 s = .next t
                  ∧ (d = 0 → t.group? s.curCore s.curSlot = some (sentAtomic s g w).advance)
                  ∧ (d ≠ 0 → t.group? s.curCore s.curSlot
                      = some ((((sentAtomic s g w).countDone g.sca.serial).settleCounts.setX d.toNat
                          (extended true n (memNat touched r.key n)))).advance)
                  ∧ memNat t.mem r.key n = amoResult e.2 (8 * n) (memNat touched r.key n) arg arg2
                  ∧ ∀ k, k < r.key ∨ r.key + n ≤ k → awayFromLeaves sps k → memGet t.mem k = memGet s.mem k)))

/-- R245, R246: WLAST gives the witness of the newest entry, or the null witness where the group has made none, and WNULL the null
witness; WTEST says whether a witness is resolved; WWAIT and WSETTLE wait until it is, and WSETTLE then drops the clean sectors of
the core's L1, and the bytes of a dirty one that its team has not written become those of the home. An ill-formed witness is
witness-format and a poisoned one witness-poisoned. R247: the merges. A poisoned input gives its poisoned form; with a null input
the other one stands; two witnesses of one origin give the later; any other pair is a knot, which takes a sequence number. WMAX
accepts an origin that is not the group's own; WJOIN makes a knot of it. Neither is done with an ill-formed witness. -/
def Obligations.WitnessWords : Prop :=
  (∀ (s : State) (g : Group) (d a : BitVec 5),
    (Ready s g [] →
      exec (.wlast d) s = writes s g d (if g.ord.wseq = 1 then 0
          else witnessOf s.curCore s.curSlot (s.slot s.curCore s.curSlot).epoch (g.ord.wseq - 1))
        ∧ exec (.wnull d) s = writes s g d 0)
    ∧ (Ready s g [a] →
      let w := g.x a.toNat
      let dropped := s.setCore s.curCore { s.core s.curCore with l1 := ((s.core s.curCore).l1.filter fun x => x.dirty != 0).map (refreshed s) }
      (∀ c, checkWitness s w = some c → exec (.wtest d a) s = traps s g c w ∧ exec (.wwait a) s = faults s g c w
          ∧ exec (.wsettle a) s = faults s g c w)
      ∧ (checkWitness s w = none →
          exec (.wtest d a) s = writes s g d (if resolve s w = .resolved then 1 else 0)
          ∧ (waitOver s w = true → exec (.wwait a) s = passes s g
              ∧ exec (.wsettle a) s = .next (dropped.setGroup s.curCore s.curSlot g.run.advance))
          ∧ (waitOver s w = false → g.idn.team = 0 →
              exec (.wwait a) s = waits s g (.witness w false) ∧ exec (.wsettle a) s = waits s g (.witness w true)))))
    ∧ (∀ (s : State) (g : Group) (d a b : BitVec 5), Ready s g [a, b] →
    let x := g.x a.toNat
    let y := g.x b.toNat
    let bad (w : Word) := checkWitness s w = some 0x08
    let good (w : Word) := checkWitness s w = none
    let here (w : Word) := w.extractLsb' 38 24 = (witnessOf s.curCore s.curSlot (s.slot s.curCore s.curSlot).epoch 0).extractLsb' 38 24
    let same := x.extractLsb' 38 24 = y.extractLsb' 38 24
    let poison (w : Word) := (w &&& 0x3FFF_FFFF_FFFF_FFFF) ||| 0x8000_0000_0000_0000
    let knot : Out := .next (s.put (((g.run.takeEntry (.knot x y)).1.setX d.toNat
      (witnessOf s.curCore s.curSlot (s.slot s.curCore s.curSlot).epoch g.ord.wseq)).advance))
    ∀ i, (i = Instr.wjoin d a b ∨ i = Instr.wmax d a b) →
      (checkWitness s x = some 0x09 → exec i s = traps s g 0x09 x)
      ∧ (checkWitness s x ≠ some 0x09 → checkWitness s y = some 0x09 → exec i s = traps s g 0x09 y)
      ∧ (bad x → good y ∨ bad y → exec i s = writes s g d (poison x))
      ∧ (good x → bad y → exec i s = writes s g d (poison y))
      ∧ (good x → good y →
          (witKind x = 0 → witKind y = 0 → exec i s = writes s g d y)
          ∧ (witKind x ≠ 0 → witKind y ≠ 0 → same → i = .wmax d a b ∨ here x →
              exec i s = writes s g d (if witSeq x < witSeq y then y else x))
          ∧ (witKind x = 0 → i = .wmax d a b ∨ here y → exec i s = writes s g d y)
          ∧ (witKind y = 0 → witKind x ≠ 0 → i = .wmax d a b ∨ here x → exec i s = writes s g d x)
          ∧ ((witKind x = 0 → witKind y ≠ 0 ∧ i = .wjoin d a b ∧ ¬here y) → (witKind y = 0 → witKind x ≠ 0 ∧ i = .wjoin d a b ∧ ¬here x) →
              (witKind x ≠ 0 → witKind y ≠ 0 → ¬same ∨ (i = .wjoin d a b ∧ ¬here x)) →
              (g.ord.wseq + 1 ≤ 2 ^ 38 - 1 → exec i s = knot) ∧ (2 ^ 38 - 1 < g.ord.wseq + 1 → exec i s = traps s g 0x12 0))))

/-- R341, R343, R344, R345: the barrier words on an object that they may use. BINIT writes a fresh object with LAST = sc, BEXPECT
adds to the bytes of the group's phase and ARRIVE to its arrivals, each followed by the completion rule; BWAIT ends once LAST has
reached the phase sc - d. A stop that reading the object finds is the word's; operands that R344 or R345 do not permit are
barrier-fault. The pace at which an arrival acts is the model's choice (log 1). -/
def Obligations.BarrierResults : Prop :=
  ∀ (s s1 : State) (g : Group) (a : BitVec 5), Safe s → Settled s → s1.curCore = s.curCore → s1.curSlot = s.curSlot →
    let addr := g.x a.toNat
    let read (init : Bool) := readBarrier s s.curCore s.curSlot g.run addr init
    let refuse : Out := .next (scalarFault s1 s.curCore s.curSlot g.run 0x0D addr)
    (∀ b : BitVec 5, Ready s g [a, b] →
      let v := g.x b.toNat
      (∀ x, read true = (s1, .error x) → exec (.binit a b) s = barrierStop s1 g (.binit addr v) x)
      ∧ (∀ x, read false = (s1, .error x) → exec (.bexpect a b) s = barrierStop s1 g (.bexpect addr v) x)
      ∧ (∀ sector old, read true = (s1, .ok (sector, old)) →
          (2 ^ 33 ≤ v.toNat ∨ v.toNat % 2 ^ 32 = 0 ∨ 2 ^ 20 < v.toNat % 2 ^ 32 → exec (.binit a b) s = refuse)
          ∧ (v.toNat < 2 ^ 33 → 1 ≤ v.toNat % 2 ^ 32 → v.toNat % 2 ^ 32 ≤ 2 ^ 20 → g.vec.sc < 2 ^ 32 →
              ∃ t, exec (.binit a b) s = .next t ∧ barrierStep s1 t s.curCore s.curSlot g sector
                { exp := v.toNat % 2 ^ 32, last := g.vec.sc, arr := [0, 0, 0, 0], bytes := [0, 0, 0, 0], flags := v.toNat / 2 ^ 32, rsv := 0 }))
      ∧ (∀ sector old, read false = (s1, .ok (sector, old)) →
          (2 ^ 30 ≤ v.toNat ∨ old.ahead g.vec.sc ≤ 0 → exec (.bexpect a b) s = refuse)
          ∧ (v.toNat < 2 ^ 30 → 4 < old.ahead g.vec.sc → exec (.bexpect a b) s = barrierStop s1 g (.bexpect addr v) (.stall none))
          ∧ (v.toNat < 2 ^ 30 → 1 ≤ old.ahead g.vec.sc → old.ahead g.vec.sc ≤ 4 →
              ∃ t, exec (.bexpect a b) s = .next t
                ∧ barrierStep s1 t s.curCore s.curSlot g sector ((old.addBytes g.vec.sc v.toNat).complete 4).1)))
    ∧ (Ready s g [a] → ∀ k : BitVec 4, maskThere s g.run k →
        let n := arriveCount g k.toNat
        (s.pace = .lagged → exec (.arrive a k) s = waits s g (.arrive addr n))
        ∧ (s.pace = .prompt → ∀ x, read false = (s1, .error x) → exec (.arrive a k) s = barrierStop s1 g (.arrive addr n) x)
        ∧ (s.pace = .prompt → ∀ sector old, read false = (s1, .ok (sector, old)) →
            let arrived := old.arr.getD (g.vec.sc % 4) 0
            let full := arrived + n = old.exp ∧ old.bytes.getD (g.vec.sc % 4) 0 = 0
            (4 < old.ahead g.vec.sc ∨ localOutstanding s1 s.curCore s.curSlot g.run = true →
                exec (.arrive a k) s = barrierStop s1 g (.arrive addr n) (.stall none))
            ∧ (old.ahead g.vec.sc ≤ 4 → localOutstanding s1 s.curCore s.curSlot g.run = false →
                (old.ahead g.vec.sc ≤ 0 ∨ old.exp < arrived + n → exec (.arrive a k) s = refuse)
                ∧ (1 ≤ old.ahead g.vec.sc → arrived + n ≤ old.exp → ∃ t, exec (.arrive a k) s = .next t
                    ∧ barrierStep s1 t s.curCore s.curSlot g sector (arriveOn old g.vec.sc n)
                    ∧ (old.ahead g.vec.sc = 1 → full → (arriveOn old g.vec.sc n).last ≠ old.last)
                    ∧ (¬full → old.ahead g.vec.sc = 1 → arriveOn old g.vec.sc n = old.addArr g.vec.sc n)))))
    ∧ (Ready s g [a] → ∀ d : BitVec 2,
        let phase := (g.vec.sc + 2 ^ 32 - d.toNat) % 2 ^ 32
        (∀ x, read false = (s1, .error x) → exec (.bwait a d) s = barrierStop s1 g (.bwait addr phase) x)
        ∧ ∀ sector old, read false = (s1, .ok (sector, old)) →
            (old.reached phase = true → g.resilient = false ∨ old.flags ≠ 1 → exec (.bwait a d) s = .next (s1.setGroup s.curCore s.curSlot g.run.advance))
            ∧ (old.reached phase = false → exec (.bwait a d) s = barrierStop s1 g (.bwait addr phase) (.stall none)))

/-- R333, R336: RDCNT reads a count; WAITC goes on where the count is at most x a, taking a held fault for class 0, and waits
elsewhere. PGATE binds a gate with gcons = 0, or unbinds it with a null address and ratio; a ratio of 0 or above 16 bits is
undefined-encoding, and an address is checked for its alignment and form. R263, R338, R339: PWAIT for a watermark of at most 62
bits ends, with the clean sectors of the L1 dropped, where the progress word's COUNT has reached it or COMPLETE is set; poisoned,
it is gate-poisoned; else it waits. PPUB takes a sequence number and a count in cc, and x d is its witness. R238, R262, R339: the
update of a notifying store adds vl to the progress word's COUNT and completes the store's second entry; that of a PPUB takes the
maximum of COUNT and ORs COMPLETE and POISON, and completes its entry and its count. No other byte changes, but in the walker's
leaf entries. The walker's own writes are the model's choice (log 17). -/
def Obligations.CountersAndProgress : Prop :=
  (∀ (s : State) (g : Group) (d a b : BitVec 5) (c : BitVec 2),
    (Ready s g [] → exec (.rdcnt d c) s = writes s g d (BitVec.ofNat 64 (g.count c.toNat)))
    ∧ (Ready s g [a] →
        (g.count c.toNat ≤ (g.x a.toNat).toNat → c ≠ 0 ∨ g.trp.held = none → exec (.waitc a c) s = passes s g)
        ∧ ((g.x a.toNat).toNat < g.count c.toNat → exec (.waitc a c) s = waits s g (.waitc c.toNat (g.x a.toNat)))
        ∧ (∀ f, c = 0 → g.count 0 ≤ (g.x a.toNat).toNat → g.trp.held = some f →
            ∃ g', exec (.waitc a c) s = .next (s.put g') ∧ g'.sca.status = .stopped ∧ g'.trp.held = some f
              ∧ g'.trp.pending = g.trp.pending ++ [{ serial := g.sca.serial, code := 0x14, src := 3, pc := g.sca.pc, addr := f.1, elem := 0 }]))
    ∧ (Ready s g [a, b] →
        let x := g.x a.toNat
        let r := g.x b.toNat
        let bound (v : BitVec 64) := passes s { g with ord := { g.ord with gate := v, gcons := 0 } }
        (a = 0 → (r = 0 → exec (.pgate a b) s = bound 0) ∧ (r ≠ 0 → exec (.pgate a b) s = traps s g 0x01 (wordOf (.pgate a b))))
        ∧ (a ≠ 0 →
            (x.toNat % 8 ≠ 0 → exec (.pgate a b) s = traps s g 0x05 x)
            ∧ (x.toNat % 8 = 0 → x.toNat / 2 ^ 48 = 0xFFFF → exec (.pgate a b) s = traps s g 0x07 x)
            ∧ (x.toNat % 8 = 0 → x.toNat / 2 ^ 48 ≠ 0 → x.toNat / 2 ^ 48 ≠ 0xFFFF → exec (.pgate a b) s = traps s g 0x06 x)
            ∧ (x.toNat % 8 = 0 → x.toNat / 2 ^ 48 = 0 →
                (r.toNat = 0 ∨ 2 ^ 16 ≤ r.toNat → exec (.pgate a b) s = traps s g 0x01 (wordOf (.pgate a b)))
                ∧ (1 ≤ r.toNat → r.toNat < 2 ^ 16 →
                    exec (.pgate a b) s = bound (BitVec.ofNat 64 (r.toNat * 2 ^ 48 + x.toNat + 1)))))))
    ∧ (∀ (s : State) (g : Group) (d a b : BitVec 5), Ready s g [a, b] →
    let x := g.x a.toNat
    let v := g.x b.toNat
    (2 ^ 62 ≤ v.toNat → exec (.pwait a b) s = traps s g 0x01 (wordOf (.pwait a b)))
    ∧ (v.toNat < 2 ^ 62 → ∀ s1 w, readProgress (s.put g.run) (ctxOf s s.curCore s.curSlot g) x = (s1, .ok w) →
        (w.getLsbD 63 = true → exec (.pwait a b) s = .next (s1.setGroup s.curCore s.curSlot (g.run.raiseScalar 0x0E x)))
        ∧ (w.getLsbD 63 = false → w.getLsbD 62 = true ∨ v.toNat ≤ w.toNat % 2 ^ 62 →
            exec (.pwait a b) s = .next ((settle s1 s.curCore).setGroup s.curCore s.curSlot g.run.advance))
        ∧ (w.getLsbD 63 = false → w.getLsbD 62 = false → w.toNat % 2 ^ 62 < v.toNat →
            exec (.pwait a b) s = .next (s1.setGroup s.curCore s.curSlot (g.run.wait (.pwait x v)))))
    ∧ (v.toNat < 2 ^ 62 → ∀ s1 code addr, readProgress (s.put g.run) (ctxOf s s.curCore s.curSlot g) x = (s1, .error (.fault code addr)) →
        exec (.pwait a b) s = .next (scalarFault s1 s.curCore s.curSlot g.run code addr))
    ∧ (2 ^ 38 - 1 < g.ord.wseq + 1 → exec (.ppub d a b) s = traps s g 0x12 0)
    ∧ (g.ord.wseq + 1 ≤ 2 ^ 38 - 1 →
        (65535 ≤ g.count 0 → exec (.ppub d a b) s = waits s g (.push (.counter 0)))
        ∧ (g.count 0 < 65535 → ∀ f, progressSpans s (ctxOf s s.curCore s.curSlot g) .atomic x = .error f →
            exec (.ppub d a b) s = traps s g f.1 f.2)
        ∧ (g.count 0 < 65535 → ∀ sps, progressSpans s (ctxOf s s.curCore s.curSlot g) .atomic x = .ok sps →
            g.resilient = false ∨ (∀ q ∈ spanRefs sps, q.2.2.1.holdable = true) →
            exec (.ppub d a b) s = .next (s.put ((((g.run.takeSerial.1.takeEntry (.ppub x v g.sca.serial)).1.countUp 0 g.sca.serial).setX d.toNat
              (witnessOf s.curCore s.curSlot (s.slot s.curCore s.curSlot).epoch g.ord.wseq)).advance)))))
    ∧ (∀ (s : State) (g : Group) (c k : Nat) (addr : Word) (r : Ref), Safe s → Settled s → Holds s c k g → PlainWord s c r →
    let sps : List Span := [{ addr := addr, len := 8, ref := .ok r }]
    let old := memNat (touchSpans s (ctxOf s c k g) true sps).mem r.key 8
    (∀ e pw vl, dueNotify s c k g = some (e, pw, vl) → addr = pw &&& 0xFFFF_FFFF_FFF8 →
        spans s (ctxOf s c k g) .store addr 8 = sps → r.tier ≤ 1 →
        ∃ t, exec (.notifyUpdate c k) s = .next t ∧ t.group? c k = some (g.markDone (e.seq + 1))
          ∧ memNat t.mem r.key 8 = old / 2 ^ 62 * 2 ^ 62 + (old + vl) % 2 ^ 62
          ∧ ∀ q, q < r.key ∨ r.key + 8 ≤ q → awayFromLeaves sps q → memGet t.mem q = memGet s.mem q)
    ∧ (∀ e v n, duePpub s c k g = some (e, addr, v, n) → progressSpans s (ctxOf s c k g) .atomic addr = .ok sps →
        ∃ t, exec (.ppubUpdate c k) s = .next t ∧ t.group? c k = some (settleEngine s c k (g.markDone e.seq))
          ∧ memNat t.mem r.key 8 = (old / 2 ^ 62 ||| v.toNat / 2 ^ 62) * 2 ^ 62 + Max.max (old % 2 ^ 62) (v.toNat % 2 ^ 62)
          ∧ ∀ q, q < r.key ∨ r.key + 8 ≤ q → awayFromLeaves sps q → memGet t.mem q = memGet s.mem q))

/-- R344, R345: BWAIT_RETURN ends a BWAIT whose phase LAST has reached, and ARRIVE_ACTION makes the action of an ARRIVE, a BEXPECT
or a BINIT that waited, once nothing it waited for is left. R18, R245, R255, R263, R333: the waits of loads, witnesses, gates and
counts end once what they wait for is there, and an entry whose own condition and floor hold completes. The operands of the steps
are the model's choices (log 30). -/
def Obligations.MemoryWaitsEnd : Prop :=
  (∀ (s s1 : State) (g : Group) (c k : Nat) (addr : Word), Safe s → Settled s → Holds s c k g → 
    let read (init : Bool) := readBarrier s c k g addr init
    (∀ phase sector old, g.sca.status = .waiting (.bwait addr phase) → read false = (s1, .ok (sector, old)) → old.reached phase = true →
        g.resilient = false ∨ old.flags ≠ 1 → exec (.bwaitReturn c k) s = .next (s1.setGroup c k g.run.advance))
    ∧ (∀ n sector old, g.sca.status = .waiting (.arrive addr n) → read false = (s1, .ok (sector, old)) →
        1 ≤ old.ahead g.vec.sc → old.ahead g.vec.sc ≤ 4 → localOutstanding s1 c k g = false →
        old.arr.getD (g.vec.sc % 4) 0 + n ≤ old.exp →
        ∃ t, exec (.arriveAction c k) s = .next t ∧ barrierStep s1 t c k g sector (arriveOn old g.vec.sc n))
    ∧ (∀ v sector old, g.sca.status = .waiting (.bexpect addr v) → read false = (s1, .ok (sector, old)) →
        v.toNat < 2 ^ 30 → 1 ≤ old.ahead g.vec.sc → old.ahead g.vec.sc ≤ 4 →
        ∃ t, exec (.arriveAction c k) s = .next t ∧ barrierStep s1 t c k g sector ((old.addBytes g.vec.sc v.toNat).complete 4).1)
    ∧ (∀ v sector old, g.sca.status = .waiting (.binit addr v) → read true = (s1, .ok (sector, old)) →
        v.toNat < 2 ^ 33 → 1 ≤ v.toNat % 2 ^ 32 → v.toNat % 2 ^ 32 ≤ 2 ^ 20 → g.vec.sc < 2 ^ 32 →
        ∃ t, exec (.arriveAction c k) s = .next t ∧ barrierStep s1 t c k g sector
          { exp := v.toNat % 2 ^ 32, last := g.vec.sc, arr := [0, 0, 0, 0], bytes := [0, 0, 0, 0], flags := v.toNat / 2 ^ 32, rsv := 0 }))
    ∧ (∀ (s : State) (g : Group) (c k : Nat), Holds s c k g →
    (∀ d addr n sg wit m, g.sca.status = .waiting (.load d addr n sg wit) → checkWitness s wit = none → waitOver s wit = true →
        addr.toNat % n = 0 → readMem s (ctxOf s c k g) 0 0 (witKind wit != 0) addr n = m → m.stall = none → m.fault = none →
        let loaded : Out := .next (m.s.setGroup c k (g.run.setX d (if sg then BitVec.ofInt 64 (signedOf (8 * n) m.val) else BitVec.ofNat 64 m.val)).advance)
        exec (.loadDataReturn c k) s = loaded ∧ (witKind wit ≠ 0 → exec (.witnessWaitEnd c k) s = loaded))
    ∧ (∀ w, g.sca.status = .waiting (.witness w false) → checkWitness s w = none → waitOver s w = true →
        exec (.witnessWaitEnd c k) s = .next (s.setGroup c k g.run.advance))
    ∧ (∀ w, g.sca.status = .waiting (.witness w true) → checkWitness s w = none → waitOver s w = true →
        exec (.witnessWaitEnd c k) s = .next ((settle s c).setGroup c k g.run.advance))
    ∧ (∀ cls n, g.sca.status = .waiting (.waitc cls n) → g.count cls ≤ n.toNat → cls ≠ 0 ∨ g.trp.held = none →
        exec (.waitcEnd c k) s = .next (s.setGroup c k g.run.advance))
    ∧ (∀ addr v s1 w, g.sca.status = .waiting (.pwait addr v) → readProgress (s.setGroup c k g.run) (ctxOf s c k g) addr = (s1, .ok w) →
        w.getLsbD 63 = false → w.getLsbD 62 = true ∨ v.toNat ≤ w.toNat % 2 ^ 62 →
        exec (.gatePass c k) s = .next ((settle s1 c).setGroup c k g.run.advance))
    ∧ (∀ d n keep s1 w, g.sca.status = .waiting (.gate d n keep) →
        readProgress (s.setGroup c k g.run) (ctxOf s c k g) (g.ord.gate &&& 0xFFFF_FFFF_FFF8) = (s1, .ok w) →
        w.getLsbD 63 = false → w.getLsbD 62 = true ∨ ((g.ord.gcons.toNat + n.toNat) * (g.ord.gate.toNat / 2 ^ 48) + 255) / 256 ≤ w.toNat % 2 ^ 62 →
        ∃ t g', exec (.gatePass c k) s = .next t ∧ t.group? c k = some g' ∧ g'.vec.vl = n.toNat ∧ g'.ord.gcons = g.ord.gcons + n
          ∧ g'.sca.pc = g.sca.pc + 4 ∧ g'.sca.status = .running)
    ∧ (g.ord.entries ≠ [] → (∀ e ∈ g.ord.entries, entryDone s c k false g e = true) → knotPoisoned s g = false →
        ∃ t g', exec (.entryComplete c k) s = .next t ∧ t.group? c k = some g' ∧ g'.ord.entries = []
          ∧ g'.ord.wdone = Max.max g.ord.wdone (g.ord.wseq - 1) ∧ g'.sca.x = g.sca.x ∧ g'.que = g.que))

/-- R251, R372, R224: ELEMENT_PERFORM writes the cells of an enabled flight to memory, and HOST_COMPLETION those of one to a tier
2 page, but where a remote device's window stands there; the flight is then over, or stays for its acknowledgement. With a report,
a barrier object counts its bytes down as well. L1_STORE_UPDATE gives a performed flight to its core's L1. The list of writes
under way and its order are the model's (log 31). -/
def Obligations.WritesPerform : Prop :=
  ∀ (s : State) (before after : List Flight) (f : Flight), s.powered = true → s.flights = before ++ f :: after →
    (mayPerform s before f = true →
      let i : Instr := if f.host then .hostCompletion before.length else .elementPerform before.length
      ∃ t, exec i s = .next t ∧ t.mem = (reported (performUpdate s f.team f.upd).1 f).mem
        ∧ (f.report = none → (∀ e ∈ s.teams, ∀ t, e.2 = some t → t.resilient = none) → (∀ k ∈ updateKeys f.upd, k < remoteKey 0 0) →
            t.mem = memWrite s.mem (updateCells (memGet s.mem) f.upd).1)
        ∧ (t.flights = before ++ after ∨ (f.l1 = true ∧ t.flights = before ++ { f with performed := true } :: after)))
    ∧ (f.performed = true → (∀ o ∈ before, o.performed = true → o.core = f.core → sharesKey (updateSectors o.upd) (updateSectors f.upd) = false) →
        exec (.l1StoreUpdate before.length) s = .next (acknowledge { s with flights := before ++ after } f))

/-- R271, R279, R280, R312: QBIND of copy arrivals or of a FIFO leaves the port empty in that state, QUNBIND unbound; QDRAIN takes
a record port to its COUNT and discards every value of any port; QSTAT returns the status word. QBIND of a record unbinds the
port, reads the 64 bytes at their home and binds what they hold, or records the fault of the record. No other port is changed, and
no byte of memory but in the walker's leaf entries. R273, R279, R312: the 64 bytes of a record give the binding that its fields
say, with COUNT from 1 to 2^40 - 1; SBLOCK, where it is not 0, is a power of two up to 65,536 with a format code 0 to 6, and a
stride goes with no 4-bit format. A COUNT of 0, or SFMT without SBLOCK, is stream-port; FMT from 11 to 15 is undefined-encoding.
R271, R274: PORT_FETCH puts the record port's next value behind those that it holds. R283, R285, R287, R346: COPY_REQUEST_BEGIN
begins the bound COPY, or records the fault of the first check that fails: the operands' form, then a rectangle without rows.
COPY_SECTOR_PERFORM writes one sector's bytes of a request and no byte of another sector. R378 to R383: what the copy arbiter
makes of a collective's entry, in a team that is not resilient. A communicator that the group may not use is a fault; CATTEMPT
returns the present attempt, and writes it to the descriptor where its field a is not x0; CABORT advances it, where the
descriptor's ATTEMPT is the present one. A collective that moves data checks the limits of its descriptor; with an old ATTEMPT it
moves nothing; else it is begun, its contribution is with those that have arrived and its flits are sent. R381 to R383: a begun
collective ends once every contribution that it needs is there and every flit that it sent has been acknowledged: the bytes at DST
are its result, STATUS is 0 and its entry has executed. One whose attempt is old writes STATUS 1 and nothing at DST; any other
stays. The pace is the model's choice (log 1); how many values a copy-arrival port shows where nothing reads it is a free value
(log 15); how peers are seen is the model's choice (log 33). -/
def Obligations.CopyQueueWork : Prop :=
  (∀ (s s1 : State) (c k : Nat) (g : Group) (e : CEntry) (n : Nat), CopyRun s s1 c k g e →
    let p := g.port n
    let ends (x : Option (Nat × Word)) (q : Port) (mem : List Host.Cell) : Prop := ∃ t g', exec (.arbiterDecision c .copy) s = .next t
      ∧ t.group? c k = some g' ∧ endsCopy g g' e x ∧ t.mem = mem ∧ g'.port n = q ∧ ∀ m, m ≠ n → g'.port m = g.port m
    (e.op = .bindCopy n → ends none { Port.empty with kind := .copy } s.mem)
    ∧ (e.op = .bindFifo n → ends none { Port.empty with kind := .fifo } s.mem)
    ∧ (e.op = .unbind n → ends none .empty s.mem)
    ∧ (e.op = .drain n →
        (p.kind = .unbound → ends none p s.mem)
        ∧ (p.kind = .record → ends none { p with pos := Max.max p.pos p.bind.count, fetched := [] } s.mem)
        ∧ (p.kind = .fifo → ends none { p with fifo := [] } s.mem)
        ∧ (p.kind = .copy → ∃ q, ends none q s.mem ∧ q.kind = .copy ∧ q.arrivals = [] ∧ q.pos = p.pos))
    ∧ (∀ d, e.op = .stat d n →
        let ctx := ctxOf s1 c k g
        let status (avail : Nat) (done : Bool) (kind : Nat) := ends (if d = 0 then none else some (d, statusWord p.pos avail done kind)) p s.mem
        let ready := (p.fetched.takeWhile (·.fault.isNone)).length
        let arrived := (arrivedNibbles e.serial p.arrivals).length / portWidth s1 g n
        (p.kind = .unbound → ends (if d = 0 then none else some (d, 0)) p s.mem)
        ∧ (p.kind = .record → status ready (decide (p.bind.count ≤ p.pos)) 1)
        ∧ (p.kind = .copy → status arrived (decide (arrived = 0) && !g.olderCopy s1 ctx e.serial n) 2)
        ∧ (p.kind = .fifo → status p.fifo.length (decide (p.fifo = [])) 3))
    ∧ (e.op = .bindMem n →
        let u := s1.setGroup c k (g.setPort n .empty)
        let sps := spans u (ctxOf u c k g) .load e.xa 64
        let failed (m : ReadOut) (code : Nat) (a : Word) : Out := .next (failRequest m.s c k e.serial false 0 code a)
        ∀ m, readMem u (ctxOf u c k g) 3 2 true e.xa 64 = m → m.stall = none →
          (∀ f, m.fault = some f → exec (.arbiterDecision c .copy) s = failed m f.1 e.xa)
          ∧ (m.fault = none →
              (∀ f, bindingOf e.word e.xa m.val = .error f → exec (.arbiterDecision c .copy) s = failed m f.1 f.2)
              ∧ (∀ b, bindingOf e.word e.xa m.val = .ok b → ends none { Port.empty with kind := .record, bind := b } m.s.mem)
              ∧ ∀ q, awayFromLeaves sps q → memGet m.s.mem q = memGet s.mem q)))
    ∧ (∀ (word record base stride sbase : Word) (count fmt sfmt sblock : Nat), count < 2 ^ 40 → fmt < 16 → sfmt < 16 → sblock < 2 ^ 24 →
    let v := base.toNat + stride.toNat * 2 ^ 64 + sbase.toNat * 2 ^ 128 + count * 2 ^ 192 + fmt * 2 ^ 232 + sfmt * 2 ^ 240 + sblock * 2 ^ 256
    (1 ≤ count → fmt ≤ 10 → (stride = 0 ∨ formatBits fmt ≠ 4) →
      (sblock = 0 ∧ sfmt = 0) ∨ ((∃ i, i ≤ 16 ∧ sblock = 2 ^ i) ∧ sfmt ≤ 6) →
      bindingOf word record v
        = .ok { base := base, stride := stride, sbase := sbase, count := count, fmt := fmt, sfmt := sfmt, sblock := sblock })
    ∧ (11 ≤ fmt → bindingOf word record v = .error (0x01, word))
    ∧ (fmt ≤ 10 → count = 0 ∨ sfmt ≠ 0 → sblock = 0 → bindingOf word record v = .error (0x10, record)))
    ∧ (∀ (s s1 : State) (g : Group) (c k n : Nat) (v : Fetched), Holds s c k g → n < 8 →
    let p := g.port n
    p.kind = .record → p.fetched.length < portDepth g → p.pos + p.fetched.length < p.bind.count →
    fetchValue s (ctxOf s c k g) p.bind (p.pos + p.fetched.length) = (s1, .ok v) → s1.group? c k = some g →
      exec (.portFetch c k n) s = .next (s1.setGroup c k (g.setPort n { p with fetched := p.fetched ++ [v] })))
    ∧ (∀ (s : State) (g : Group) (c k : Nat), Holds s c k g →
    (∀ e fn fmt tgt, g.bound = some e → e.op = .copy fn fmt tgt →
      let a := e.args fn fmt tgt
      (a.wellFormed = false → exec (.copyRequestBegin c k) s = .next (failRequest s c k e.serial false 0 0x01 a.word))
      ∧ (a.wellFormed = true → fn.isTile = true → a.rect.1.1 = 0 ∨ a.rect.2.1 = 0 →
          exec (.copyRequestBegin c k) s = .next (failRequest s c k e.serial false 0 0x0F 0))
      ∧ (∀ s1, beginRequest s c k g a e.serial 0 0 false = .begun s1 →
          exec (.copyRequestBegin c k) s = .next (s1.modGroup c k fun g =>
            (g.modCopy e.serial fun e => if e.begun then { e with allBegun := true } else e).copyOver e.serial)))
    ∧ (∀ j js p ps, Settled s → Safe s → s.pace = .prompt → g.readyJobs s c k false = j :: js → j.pieces = p :: ps → j.hold = 0 → j.target ≠ 1 →
        sourceFault s g.idn.team (p.filterMap fun b => b.src.map fun f => (f.1, b.chk, f.2)) = none →
        ∃ t, exec (.copySectorPerform c k) s = .next t
          ∧ (∀ q, (∀ b ∈ p, q / 48 ≠ b.key / 48) → memGet t.mem q = memGet s.mem q)
          ∧ ((∀ b ∈ p, b.src = none ∧ b.mask = 0xFF) → (pieceDst p).Nodup → (∀ b ∈ p, b.key < remoteKey 0 0) → ∀ b ∈ p, memGet t.mem b.key = b.val)))
    ∧ (∀ (s s1 : State) (c k : Nat) (g : Group) (e : CEntry) (fn : CollFn) (fmt op d : Nat), CopyRun s s1 c k g e → e.op = .coll fn fmt op d →
    let n := e.xb.toNat % 2 ^ 12
    let field (lo len : Nat) := commEntry s1 n / 2 ^ (8 * lo) % 2 ^ (8 * len)
    let known := n < s1.trowel.commcount.toNat ∧ field 0 1 % 2 = 1 ∧ field 14 2 % 2 ^ 12 = g.trp.asid.toNat % 2 ^ 12 ∧ field 10 2 ≠ 0
    let failed (u : State) (code : Nat) (a : Word) : Out := .next (failRequest u c k e.serial false 0 code a)
    let att := attemptOf s1 n
    (2 ^ 12 ≤ e.xb.toNat → exec (.arbiterDecision c .copy) s = failed s1 0x01 e.word)
    ∧ (e.xb.toNat < 2 ^ 12 → ¬known → exec (.arbiterDecision c .copy) s = failed s1 0x07 e.xb)
    ∧ (e.xb.toNat < 2 ^ 12 → known → (∀ t, s1.teamOf g = some t → t.resilient = none) →
        let ends (x : Option (Nat × Word)) (t : State) (g' : Group) : Prop :=
          exec (.arbiterDecision c .copy) s = .next t ∧ t.group? c k = some g' ∧ endsCopy g g' e x
        (fn = .cattempt →
          let x := if d = 0 then none else some (d, att.zeroExtend 64)
          let sps := spans s1 (ctxOf s1 c k g) .store (e.xa + 24) 4
          (e.word.toNat / 2 ^ 15 % 32 = 0 → ∃ t g', ends x t g' ∧ t.mem = s.mem)
          ∧ (e.word.toNat / 2 ^ 15 % 32 ≠ 0 →
              (∀ f, accessFault sps = some f → exec (.arbiterDecision c .copy) s = failed s1 f.1 f.2)
              ∧ (accessFault sps = none → ∃ t g', ends x t g'
                  ∧ (s.pace = .prompt → Safe s → Settled s → bytesAt s.mem t.mem sps (toBytes 4 att.toNat)))))
        ∧ (fn ≠ .cattempt → ∀ m, readMem s1 (ctxOf s1 c k g) 3 2 true e.xa 64 = m → m.stall = none →
            let cm : Comm := { comm := n, n := field 10 2, rank := field 12 2, ranks := field 16 8 }
            let r := collRun c k e fn fmt op cm m.val
            (∀ f, m.fault = some f → exec (.arbiterDecision c .copy) s = failed m.s f.1 f.2)
            ∧ (m.fault = none → r.ok m.val = false → exec (.arbiterDecision c .copy) s = failed m.s 0x01 e.word)
            ∧ (m.fault = none → r.ok m.val = true → s1.fabric.runs = [] → FMap.wf 0 s1.fabric.attempts = true →
                (fn = .cabort → ∃ t g', ends none t g' ∧ t.mem = m.s.mem
                  ∧ attemptOf t n = (if r.attempt = att then att + 1 else att)
                  ∧ t.fabric.tokens = s1.fabric.tokens ++ if r.attempt = att then [(n, att + 1)] else [])
                ∧ (fn ≠ .cabort → r.attempt ≠ att → ∃ t g', ends none t g' ∧ t.fabric = s1.fabric)
                ∧ (fn ≠ .cabort → r.attempt = att →
                    let src := BitVec.ofNat 64 (m.val % 2 ^ 64)
                    let ssp := if r.gives r.rank then spans m.s (ctxOf m.s c k g) .load src r.length else []
                    let dsp := spans m.s (ctxOf m.s c k g) .store r.dst r.result ++ spans m.s (ctxOf m.s c k g) .store (e.xa + 32) 4
                    let near (sps : List Span) := ∀ sp ∈ sps, ∃ q, sp.ref = .ok q ∧ (q.local_ = true ∨ q.tier ≤ 2)
                    ¬(∃ x ∈ s1.fabric.inbox, x.comm = n ∧ x.seq = r.seq ∧ x.attempt = r.attempt) →
                    2 ≤ r.n → 1 ≤ r.length → r.gives r.rank = true → near ssp → near dsp →
                    let u := touchSpans m.s (ctxOf m.s c k g) false ssp
                    let keys := keyedRefs (spanRefs ssp)
                    sourceFault u g.idn.team (keys.map fun q => (q.1, true, q.2.2)) = none →
                    ∃ t z, exec (.arbiterDecision c .copy) s = .next t ∧ t.mem = u.mem ∧ z.comm = n ∧ z.rank = r.rank ∧ z.attempt = r.attempt ∧ z.seq = r.seq
                      ∧ z.offset = 0 ∧ z.data = (keys.map fun q => (teamSector u g.idn.team (q.1 / 48)).byte q.1)
                      ∧ t.fabric.inbox = s1.fabric.inbox ++ [z] ∧ t.fabric.sent = s1.fabric.sent ++ contributionFlits m.s r
                      ∧ ∃ writes, t.fabric.runs = [{ r with writes := writes }])))))
    ∧ (∀ (s : State) (g : Group) (r : CollRun), s.group? r.core r.slot = some g → s.pace = .prompt → Safe s → Settled s →
    let ctx := ctxOf s r.core r.slot g
    let data := ((List.range r.n).filter r.gives).mapM (arrivedAll s.fabric.inbox r)
    let status (u : State) := spans u ctx .store (r.desc + 32) 4
    let ended (t : State) : Prop := t.fabric.runs = s.fabric.runs.filter (· != r)
      ∧ ∃ g', t.group? r.core r.slot = some g' ∧ g'.sca = g.sca ∧ g'.vec = g.vec ∧ g'.fil = g.fil
        ∧ ∀ e ∈ g'.que.cq, e.serial = r.serial → e.done = some { flags := 0, xreg := none }
    (r.attempt = attemptOf s r.comm → (∃ f ∈ s.fabric.sent, f.of r = true) ∨ data = none → finishRun s r = s)
    ∧ (r.attempt ≠ attemptOf s r.comm → ended (finishRun s r) ∧ bytesAt s.mem (finishRun s r).mem (status s) (toBytes 4 1))
    ∧ (∀ bs, r.attempt = attemptOf s r.comm → (∀ f ∈ s.fabric.sent, f.of r = false) → data = some bs →
        let dst := spans s ctx .store r.dst r.result
        let wrote := collWrite s r.core r.slot r.serial g.idn.team ctx r.dst (r.output bs)
        (r.output bs).length = r.result → ended (finishRun s r) ∧ bytesAt s.mem wrote.mem dst (r.output bs)
          ∧ bytesAt wrote.mem (finishRun s r).mem (status wrote) (toBytes 4 0))
    ∧ ∀ bs : List (List Byte), (r.fn = .allgath ∨ r.fn = .bcast → r.output bs = bs.flatten)
        ∧ (r.fn = .allred → r.output bs = (List.range r.count).flatMap (reduceElement r bs))
        ∧ (r.fn = .redscat → r.output bs = (List.range (r.count / r.n)).flatMap fun i => reduceElement r bs (r.rank * (r.count / r.n) + i)))

/-- R19, R25, R69, R200, R286: QUEUE_ENTRY_COMPLETE removes an executed head: its flags are folded into fs, its x register is
written where no later write replaced its tag, and vst is 0 again after a convoy. A convoy with a notifying store stays until its
update is made. -/
def Obligations.EntriesLeave : Prop :=
  ∀ (s : State) (g : Group) (c k : Nat), Holds s c k g →
    (∀ e rest d, g.que.vq = e :: rest → e.done = some d →
      (e.notify = true → (∃ x ∈ g.ord.entries, x.seq = e.seq + 1 ∧ x.complete = false) →
        exec (.queueEntryComplete c k .vector) s = .refused (.notEnabled "QUEUE_ENTRY_COMPLETE"))
      ∧ (e.notify = false ∨ (∀ x ∈ g.ord.entries, x.seq = e.seq + 1 → x.complete = true) → ∃ t g', exec (.queueEntryComplete c k .vector) s = .next t ∧ t.group? c k = some g' ∧ g'.que.vq = rest ∧ g'.vec.vst = 0
        ∧ leaves g g' e.serial d ∧ (rest = [] → g'.sca.latch.getLsbD 2 = true)))
    ∧ (∀ e rest d, g.que.mq = e :: rest → e.done = some d → s.flights = [] →
        ∃ t g', exec (.queueEntryComplete c k .matrix) s = .next t ∧ t.group? c k = some g' ∧ g'.que.mq = rest ∧ g'.vec.vst = g.vec.vst
          ∧ leaves g g' e.serial d ∧ (rest = [] → g'.sca.latch.getLsbD 2 = true))
    ∧ (∀ e d, g.que.cq.find? (·.done.isSome) = some e → e.done = some d →
        ∃ t g', exec (.queueEntryComplete c k .copy) s = .next t ∧ t.group? c k = some g'
          ∧ g'.que.cq = g.que.cq.filter (·.serial != e.serial) ∧ leaves g g' e.serial d)

/-- R21, R366: ARBITER_DECISION picks a ready group of the highest gpri; the head of its queue is executed, or bound for the
request engine, or found marked. R202: ARRAY_MODE_CHANGE gives the array the mode of the waiting head. -/
def Obligations.ArbiterDecisions : Prop :=
  ∀ (s : State) (c : Nat), s.powered = true →
    (∀ u s1 k g, decide21 s c u = some (s1, k) → s1.group? c k = some g →
      (∃ h ∈ readyGroups s c u, h.1 = k ∧ ∀ o ∈ readyGroups s c u, o.2.idn.gpri ≤ h.2.idn.gpri)
      ∧ (∀ e rest, u = .vector → vectorHead s1 c k g = some (e, rest) →
          exec (.arbiterDecision c u) s = .next (if g.que.bad.contains e.serial then consumeEntry s1 c k g e.serial 1 e.pc
            else tallyConvoy (executeVector s1 c k g e rest) c k e g.vec.vst))
      ∧ (∀ e rest, u ≠ .vector → u ≠ .copy → matrixHead s1 c k g = some (e, rest) →
          exec (.arbiterDecision c u) s = .next (if g.que.bad.contains e.serial then consumeEntry s1 c k g e.serial 2 e.pc
            else tallyMatrix (executeMatrix s1 c k g e rest) c k e))
      ∧ (∀ e fn fmt tgt, u = .copy → copyHead s1 c k g = some e → e.op = .copy fn fmt tgt → g.que.bad.contains e.serial = false →
          exec (.arbiterDecision c u) s = .next (s1.setGroup c k (g.modCopy e.serial fun e => { e with begun := true }))))
    ∧ (modeDue s c = true → matrixRunning s c = false →
        ∃ k g e, firstHead (modeHeads s c).2 = some (k, g, e) ∧
          let moded := s.setCore c { s.core c with mode := modeOf e.gf, modeWait := 0 }
          (moded.core c).mode = modeOf e.gf ∧ exec (.arrayModeChange c) s = .next ((bindMatrix moded c k g).getD moded))

/-- R77, R311, R351, R352: once a group's queues are quiet, TRAP_DELIVERY delivers the fault that is oldest in program order. On a
map core at level U its handler is the vector entry: the saved registers, the level S, the pc at the handler, the queues frozen;
units that a growth has claimed are given back, and a held fault goes with its own delivery alone. Without an entry, or at level
S, the task fails with END 1 or 2. A firmware core stays at level F and marks its handler active, or is reset. Where a firmware
core resets without a handler is the model's choice (log 19); that the record of a double trap holds the second fault is a reading
(log 27). -/
def Obligations.TrapDelivery : Prop :=
  ∀ (s s1 : State) (g : Group) (c k : Nat) (f : FaultInfo), Holds s c k g → g.sca.status ≠ .exiting → g.quiet = true →
    overruled s g = false → oldestFault g.trp.pending = some f →
    let entered (h : Word) (l : Level) : Group := { g with
      sto := g.unclaim.sto
      sca := { g.sca with pc := h, level := l, status := .running, openWords := [] }
      trp := { g.trp with
        trpc := f.pc, tres := if f.code = 0x10 ∧ f.src = 0 then f.pc + 4 else if g.sca.openWords = [] then g.sca.pc else g.sca.openPc
        tcause := BitVec.ofNat 64 (f.code + f.src * 2 ^ 8 + g.sca.level.code * 2 ^ 12)
        taddr := f.addr, telem := BitVec.ofNat 64 f.elem, frozen := true, pending := []
        held := if f.code = 0x14 ∧ f.src = 3 then none else g.trp.held } }
    (f ∈ g.trp.pending ∧ ∀ x ∈ g.trp.pending, f.serial ≤ x.serial)
    ∧ (c < 288 → g.sca.level = .u → ∀ h, vectorEntry s c k g f.code = (s1, some h) →
        exec (.trapDelivery c k) s = .next (s1.setGroup c k (entered h .s)))
    ∧ (c < 288 → g.sca.level = .u → vectorEntry s c k g f.code = (s1, none) →
        exec (.trapDelivery c k) s = .next (failGroup s1 c k g f.code f.src f.elem f.pc f.addr 1 0))
    ∧ (g.claiming = false → g.unclaim.sto = g.sto)
    ∧ (c < 288 → g.sca.level ≠ .u → exec (.trapDelivery c k) s = .next (failGroup s c k g f.code f.src f.elem f.pc f.addr 2 0))
    ∧ (288 ≤ c → (s.core c).handler = false → g.sca.level = .f → ∀ h, vectorEntry s c k g f.code = (s1, some h) →
        ∃ t, exec (.trapDelivery c k) s = .next t ∧ t.group? c k = some (entered h .f) ∧ (t.core c).handler = true)
    ∧ (288 ≤ c → (s.core c).handler = true → exec (.trapDelivery c k) s = .next (resetFirmware s c))

/-- R142, R289, R293: a group that exits and has nothing left leaves its slot free; the drain of a resilient team's group asks for
the checkpoint that performs what the team holds for it. A fault that the drain found, or a held one that it takes once only lists
stand behind it, fails the task with END 3 and code async, SRC 4 or 3; a firmware core is reset. R354 to R356, R361, R363, R369:
TASK_KILL carries out a kill that is due, once no negotiation of the task waits for other teams, after which the task is no more.
A cluster at a boundary is pre-empted, after the checkpoints of its resilient teams, for which the request is kept; asked for
elsewhere, the pre-emption waits for the boundary. A saved cluster whose images are sound resumes on the cores that the search
gives, marked first where a Weeder keeps their bits, and one whose image is not fails its task. A checkpoint whose cut is complete
publishes and takes the shadow, with the log empty and the failure count 0, or leads to a rollback; a rollback restores the shadow
in new incarnations, and a second failure in the interval, or an error in the shadow or the log, ends the task with END 4. That
any fault which the drain finds becomes async-memory with SRC 4, and a held one SRC 3, is a reading (log 26). Where an image lies
in the context pool, and when the parts of a checkpoint perform, are the model's choices (logs 28, 34 and 36). -/
def Obligations.GroupsAndTasks : Prop :=
  (∀ (s : State) (g : Group) (c k : Nat), Holds s c k g → g.sca.status = .exiting → overruled s g = false →
    (g.trp.pending = [] → g.que.vq = [] → g.que.mq = [] → g.que.cq = [] → g.que.jobs = [] →
      g.trp.held = none →
      (g.ord.wdone + 1 = g.ord.wseq → g.ord.counted = [] → exitKept s g = true →
        exec (.groupExitDrained c k) s = .next (endGroup s c k g)
          ∧ (FMap.wf .empty s.cores = true → FMap.wf .empty (s.core c).slots = true → (endGroup s c k g).group? c k = none))
      ∧ (g.ord.wdone + 1 ≠ g.ord.wseq ∨ g.ord.counted ≠ [] ∨ exitKept s g = false →
          (∃ t, s.teamOf g = some t ∧ t.resilient.isSome = true ∧ t.cut = false) → (∀ e ∈ g.ord.entries, commitReady s c k g e = true) →
          exec (.groupExitDrained c k) s = .next (askOwnCut s g)))
    ∧ (∀ h, g.trp.pending = [] → g.trp.held = some h →
        (g.que.vq = [] ∧ g.que.mq = [] ∧ g.que.jobs = [] ∧ (∀ e ∈ g.que.cq, e.op = .kick ∧ e.begun = false ∧ e.done = none) →
          (c < 288 → exec (.groupExitDrained c k) s = .next (failGroup s c k g 0x14 3 0 g.sca.pc h.1 3 h.2))
          ∧ (288 ≤ c → exec (.groupExitDrained c k) s = .next (resetFirmware s c)))
        ∧ (heldStops g = false → exec (.groupExitDrained c k) s = .refused (.notEnabled "GROUP_EXIT_DRAINED")))
    ∧ (∀ f, oldestFault g.trp.pending = some f → g.quiet = true →
        (c < 288 → exec (.groupExitDrained c k) s = .next (failGroup s c k g 0x14 4 f.elem f.pc f.addr 3 f.code))
        ∧ (288 ≤ c → exec (.groupExitDrained c k) s = .next (resetFirmware s c))))
    ∧ (∀ (s : State) (n : Nat) (k : Task), s.powered = true →
    (s.task n = some k →
      (∀ why, k.kill = some why → negotiating s n = true → exec (.taskKill n why) s = .refused (.notEnabled "TASK_KILL"))
      ∧ (∀ why, k.kill = some why → negotiating s n = false → exec (.taskKill n why) s = .next (killTask s n k why)
          ∧ (FMap.wf none s.tasks = true → (killTask s n k why).task n = none))
      ∧ (∀ c, k.kill = none → teamsOf s n c ≠ [] →
          (atBoundary s (teamsOf s n c) = true →
            ((∃ e ∈ teamsOf s n c, e.2.resilient.isSome = true ∧ e.2.cut = false) →
              let cuts := (teamsOf s n c).foldl (fun a e => if e.2.resilient.isSome then askCut a e.1 else a) s
              exec (.preemption n c) s = .next (if preemptWanted s n c then cuts else cuts.setTask n (some { k with asked := c :: k.asked })))
            ∧ ((∀ e ∈ teamsOf s n c, e.2.resilient.isSome = true → e.2.cut = true) → ∀ s1, saveTeams k (teamsOf s n c) s = some s1 →
              exec (.preemption n c) s = .next (s1.setTask n
                (some { k with live := FMap.set 0 k.live c 0, due := true, asked := k.asked.filter (· != c) }))))
          ∧ (atBoundary s (teamsOf s n c) = false → preemptWanted s n c = false →
              exec (.preemption n c) s = .next (s.setTask n (some { k with asked := c :: k.asked }))))
      ∧ (∀ c v vs, s.saved.filter (fun v => v.task == n && v.cluster == c) = v :: vs → mayPlace s k (s.queue k.queue).priority = true →
          (loadTeams s (v :: vs) = none → exec (.resume n c) s = .next (recordFailure s n (imageFailure s v) 3))
          ∧ (∀ ls cores s1,
              let s0 := { s with saved := s.saved.filter fun x => !(x.task == n && x.cluster == c) }
              loadTeams s (v :: vs) = some ls →
              searchRect s0 (s.queue k.queue).part v.width v.height
                (if k.descr.klass == 2 && k.descr.attr.getLsbD 3 then [v.klass, 1 - v.klass] else [v.klass])
                (fun i core => coreFits s0 core (resumeDemand n k.descr ls i)) = some cores →
              (s.trowel.weeder ≠ [] → k.claim ≠ cores → exec (.resume n c) s = .next (s.setTask n (some { k with claim := cores })))
              ∧ (s.trowel.weeder = [] ∨ k.claim = cores → resumeTeams n k cores ls (s0, []) = some (s1, []) →
                  exec (.resume n c) s = .next (s1.setTask n (some { k with live := FMap.set 0 k.live c (s.now + 1), claim := [] }))))))
    ∧ (∀ t r, s.team n = some t → t.resilient = some r → (∀ j, s.task t.task = some j → j.kill = none) →
        (t.cut = true → t.roll = none → cutDone s n = true →
          (verified s n = false → exec (.checkpoint n) s = .next (askRoll s n (verifyRecord s n)))
          ∧ (∀ s1, verified s n = true → performCheckpoint s [n] = some s1 → exec (.checkpoint n) s = .next s1
              ∧ ∀ u w, s1.team n = some u → u.resilient = some w →
                  u.roll.isSome = true ∨ (u.cut = false ∧ w.undo = [] ∧ w.failed = false) ∨ (u.inside = false ∧ w.failed = true)))
        ∧ (∀ why, t.roll = some why →
            (r.failed = true ∨ areaSpoiled s r = true ∨ readShadow s r = none →
              exec (.rollback n) s = .next (recordFailure (s.setTeam n (some { t with roll := none })) t.task { why with ending := 4 } 3))
            ∧ (r.failed = false → areaSpoiled s r = false → (readShadow s r).isSome = true → ∃ u, exec (.rollback n) s = .next u
                ∧ u.team n = some { t with roll := none, cut := false, resilient := some { r with undo := [], failed := true } }))))

/-- R12, R293, R301, R302, R322, R327, R355, R356, R361: what becomes of clusters that nothing holds up, on a device whose
firmware keeps no area for a Weeder. A selected LAUNCH, and a pass that is due, place a cluster where the search finds a core. A
checkpoint of a resting team whose dirty sectors pass their checks takes the shadow, with the log empty and the failure count 0. A
team of one resting group is pre-empted where the context pool has room for its image, and a sound image resumes where the search
finds a core. Where an image lies in the context pool, and when the parts of a checkpoint perform, are the model's choices (logs
28, 34 and 36). -/
def Obligations.QuietClusters : Prop :=
  ∀ (s : State) (n : Nat), s.powered = true → s.trowel.weeder = [] →
    (∀ q x k core, (s.queue q).waiting = some x → s.task x.task = some k → k.placing = true →
      let k0 := { k with placing := false }
      let s0 := startCommand (s.setTask x.task (some k0)) q x
      mayPlace s0 k k.pri = true → testHold s0 k.pri = false → k.next = 0 → oneCoreFound s0 x.task k0 core →
        ∃ u, exec (.launch q) s = .next u ∧ placedOn s0 x.task k0 core u)
    ∧ (∀ k core, s.task n = some k → k.due = true → launched s k = true → mayPlace s k (s.queue k.queue).priority = true →
        (∀ v ∈ s.saved, v.task ≠ n) →
        let k0 := { k with due := false }
        let s0 := s.setTask n (some k0)
        oneCoreFound s0 n k0 core → ∃ u, exec (.placementPass n) s = .next u ∧ placedOn s0 n k0 core u)
    ∧ (∀ t r, Resting s → n ≠ 0 → s.team n = some t → t.resilient = some r → t.cut = true → t.roll = none →
        (∀ j, s.task t.task = some j → j.kill = none) → verified s n = true →
        ∃ u sh, exec (.checkpoint n) s = .next u
          ∧ u.team n = some { t with cut := false, inside := false, resilient := some { r with shadow := sh, undo := [], failed := false } }
          ∧ u.flights = [] ∧ ∀ y ∈ (u.core t.core).l1, y.dirty ≠ n)
    ∧ (∀ k c m t core slot g addr, Resting s → s.task n = some k → k.kill = none → FMap.wf none s.teams = true →
        teamsOf s n c = [(m, t)] → t.resilient = none → t.roll = none → t.inside = false →
        teamGroups s m = [(core, slot, g)] → s.group? core slot = some g →
        let s1 := (stopGroup s core slot).getD s
        poolRoom s1 (teamImage s1 t k (teamGroups s1 m)).length = some addr →
        ∃ u v, exec (.preemption n c) s = .next u ∧ u.team m = none ∧ u.saved = s.saved ++ [v] ∧ v.task = n ∧ v.cluster = c ∧ v.addr = addr
          ∧ u.task n = some { k with live := FMap.set 0 k.live c 0, due := true, asked := k.asked.filter (· != c) })
    ∧ (∀ k c v gs cores, s.task n = some k → s.saved.filter (fun v => v.task == n && v.cluster == c) = [v] →
        mayPlace s k (s.queue k.queue).priority = true → k.descr.attr.getLsbD 1 = false →
        readTeam (memBytes s.mem v.addr v.size) v.size v.groups = some gs →
        let l : Loaded := { saved := v, bytes := memBytes s.mem v.addr v.size, groups := gs }
        let s0 := { s with saved := s.saved.filter fun x => !(x.task == n && x.cluster == c) }
        let core := cores.getD v.cidx 0
        searchRect s0 (s.queue k.queue).part v.width v.height
          (if k.descr.klass == 2 && k.descr.attr.getLsbD 3 then [v.klass, 1 - v.klass] else [v.klass])
          (fun i x => coreFits s0 x (resumeDemand n k.descr [l] i)) = some cores →
        (padPlan s0 core (resumeDemand n k.descr [l] v.cidx)).isSome = true → Committed s core →
        ∃ u t, exec (.resume n c) s = .next u ∧ u.saved = s0.saved ∧ u.team s.nextTeam = some t ∧ t.task = n ∧ t.cluster = v.cluster
          ∧ t.core = core ∧ t.resilient = none ∧ u.task n = some { k with live := FMap.set 0 k.live c (s.now + 1), claim := [] })

/-- R365, R366, R368: an uncorrectable error marks the word that it hits, or a queue's entry; one in a TLB or an instruction cache
drops the entry, which is no error; a mismatch of a protected task's lanes or of a column pair leaves the convoy at its element or
the TMMA without effect. A corrected error is counted and changes nothing else. A core that is to lose capacity loses a column
group once no team stands on it, and a core whose logic failed is removed; each is told of in a device event. The places that an
error may hit are named as the model names them (log 30). -/
def Obligations.ErrorEvents : Prop :=
  ∀ (s : State), s.powered = true →
    (∀ n, storedSector n = true → ∃ t, exec (.uncorrectableError (.sector n)) s = .next t ∧ poisoned t n = true ∧ t.mem = s.mem
        ∧ ∀ m, m ≠ n → poisoned t m = poisoned s m)
    ∧ (∀ c k g, s.group? c k = some g →
        let marked (f : Files → Files) : Out := .next (s.setGroup c k { g with fil := f g.fil })
        (∀ e r, e < g.vec.vlmax → 16 * r < g.idn.alloc → exec (.uncorrectableError (.slice c k e r)) s
          = marked fun f => { f with badSlices := FMap.set false f.badSlices (e * 48 + r) true })
        ∧ (∀ m w, m < 12 → 64 * w < g.vec.vlmax → exec (.uncorrectableError (.mask c k m w)) s
            = marked fun f => { f with badMasks := FMap.set false f.badMasks (m * 16 + w) true })
        ∧ (∀ q n i, (g.queueSerials q)[i]? = some n → ∃ g', exec (.uncorrectableError (.entry c k q i)) s = .next (s.setGroup c k g')
            ∧ g'.que.bad.contains n = true ∧ g'.que.vq = g.que.vq ∧ g'.que.mq = g.que.mq ∧ g'.que.cq = g.que.cq)
        ∧ (g.protected_ = true →
            (∀ e rest i, vectorHead s c k g = some (e, rest) → g.vec.vst ≤ i → i ≤ e.vl → g.que.bad.contains e.serial = false →
              exec (.uncorrectableError (.lane c k i)) s = .next (executeUpset s c k g e rest (some i)))
            ∧ ∀ e, nextTmma s c k g = some e →
              (runMatrix s c k g e).toOption.isSome = true →
                exec (.uncorrectableError (.pair c k)) s = .next (spoilEntry s c k g 0x21 e.serial 2 e.pc)))
    ∧ (∀ c i,
        (i < (s.core c).tlb.length → exec (.uncorrectableError (.tlb c i)) s
          = .next (s.setCore c { s.core c with tlb := (s.core c).tlb.eraseIdx i }))
        ∧ (i < (s.core c).icache.length → exec (.uncorrectableError (.icache c i)) s
          = .next (s.setCore c { s.core c with icache := (s.core c).icache.eraseIdx i })))
    ∧ (∀ place, exec (.correctedError place) s = .next { s with trowel := { s.trowel with corrected := s.trowel.corrected + 1 } })
    ∧ (∀ c, s.trowel.removals.contains (c, false) = true → teamOn s c = false → mapState s c = 0 →
        ∃ t reason tag, exec (.columnMapout c) s = .next t ∧ t.trowel.events = s.trowel.events ++ [(reason, tag)]
          ∧ (∀ r ∈ t.trowel.removals, r.1 ≠ c)
          ∧ (mostMapOut c ≤ mapOut s c → reason = 17 ∧ tag = c) ∧ (mapOut s c < mostMapOut c → reason = 18 ∧ tag = c + (mapOut s c + 1) * 4096))
    ∧ (∀ c, c < 288 → mapState s c = 0 →
        (teamOn s c = false → ∃ t, exec (.coreLogicError c) s = .next t ∧ t.trowel.events = s.trowel.events ++ [(17, c)])
        ∧ (teamOn s c = true → s.trowel.removals.contains (c, true) = false →
            exec (.coreLogicError c) s = .next { s with trowel := { s.trowel with removals := s.trowel.removals ++ [(c, true)] } }))
    ∧ (∀ i, i < 4 → (s.core (288 + i)).down = true →
        let booted := measureBoot s
        let up := booted.setCore (288 + i) { booted.core (288 + i) with down := false }
        let g := firmwareGroup i
        exec (.firmwareCoreReturn i) s = .next (up.enterSlot (288 + i) 0 g) ∧ (up.enterSlot (288 + i) 0 g).group? (288 + i) 0 = some g
          ∧ g.sca.level = .f ∧ g.vec.vlmax = 8 ∧ g.idn.alloc = 768)

/-- R80, R414: the states of a test block. START begins in states 0 and 3 to 5 on an idle core that no other block drives, and
RESETCORE in state 5; elsewhere neither is permitted. The drained target's L1 is invalid while the pattern runs; its end compares
the signature. An abort, the host's or the block's own, ends the drain in state 5 and stops a running pattern within 32 test
cycles; it has no effect elsewhere or once the pattern is over. 20,000 cycles after RESETCORE the target's storage is zero, and
the state is 0. The signature that a pattern leaves, and how soon an aborted one stops, are free values (log 15). -/
def Obligations.TestBlockSteps : Prop :=
  ∀ (s : State) (i : Nat), s.powered = true → i < 4 →
    let t := s.test i
    let becomes (x : State) (b : TestBlock) : Out := .next (x.setTest i b)
    let emptied := s.setL1 t.sel []
    let startable := (t.stat = 0 ∨ t.stat = 3 ∨ t.stat = 4 ∨ t.stat = 5) ∧ s.occupied t.sel = false ∧ testedElsewhere s i t.sel = false
    let runs := t.stat = 2 ∧ t.stopAt = none ∧ s.now - t.started < 250000
    let stops (e : Instr) : Prop := ∃ u, s.now ≤ u ∧ u ≤ s.now + 32 ∧ exec e s = becomes s { t with stopAt := some u }
    (startable → exec (.sctctlStart i) s = becomes s { t with stat := 1, cnt := 0, sig := 0 })
    ∧ (¬startable → exec (.sctctlStart i) s = .refused (.notEnabled "SCTCTL_START"))
    ∧ (t.stat = 1 → exec (.sctctlAbort i) s = becomes s { t with stat := 5 })
    ∧ (runs → stops (.sctctlAbort i))
    ∧ (t.stat ≠ 1 → ¬runs → exec (.sctctlAbort i) s = becomes s t)
    ∧ (t.stat = 5 → exec (.sctctlResetcore i) s = becomes s { t with stat := 6, started := s.now })
    ∧ (t.stat ≠ 5 → exec (.sctctlResetcore i) s = .refused (.notEnabled "SCTCTL_RESETCORE"))
    ∧ (t.stat = 1 → (∀ f ∈ s.flights, f.core ≠ t.sel) → exec (.testDrainDone i) s = becomes emptied { t with stat := 2, started := s.now })
    ∧ (t.stat = 2 → t.stopAt = none → 250000 ≤ s.now - t.started → ∃ sig,
        exec (.testPatternEnd i) s = becomes emptied { t with stat := if sig = t.exp then 3 else 4, cnt := 250000, sig := sig })
    ∧ (t.abten = true → pendingLaunch s t.abtpri (coreCol t.sel) = true →
        (t.stat = 1 → t.stopAt = none → exec (.testAutoAbort i) s = becomes s { t with stat := 5 }) ∧ (runs → stops (.testAutoAbort i)))
    ∧ (∀ u, (s.core (288 + i)).test.stopAt = some u → u ≤ s.now →
        t.stat = 5 ∧ t.cnt = Min.min (u - (s.core (288 + i)).test.started) 249999)
    ∧ (t.stat = 6 → 20000 ≤ s.now - t.started → exec (.testResetDone i) s = becomes (resetCore s t.sel) { t with stat := 0 })

/-- R142, R216, R293, R294, R296, R305: what each started command does, and its result. A SIGNAL updates its progress word and is
DONE, or its word cannot be written and it is FAILED; a WAIT ends with its word, or FAILED where that is poisoned or cannot be
read. A LAUNCH that has started becomes DONE with the last group of its last cluster. Some REASON codes of failed commands are
readings (log 37). -/
def Obligations.CommandResults : Prop :=
  ∀ (s : State) (q : Nat) (c : Command),
    (serves s q 8 c → exec (.mark q) s = results s q c .done 0 (BitVec.ofNat 64 ((c.dw 1).toNat % 2 ^ 32)))
    ∧ (serves s q 3 c →
        (∀ f, trowelWord s (trowelCtx (s.queue q)) .store (c.dw 1) = .error f →
          exec (.signal q) s = results s q c .failed (if f.1 = 0x06 then 2 else 4) 0)
        ∧ (∀ sps, trowelWord s (trowelCtx (s.queue q)) .store (c.dw 1) = .ok sps →
            ∃ u key n r a rest, exec (.signal q) s = results u q c .done 0 0 ∧ spanRefs sps = (key, n, r, a) :: rest
              ∧ let touched := (touchSpans s (trowelCtx (s.queue q)) true sps).mem
                (resultCommand u q c.jidx .done 0 0).mem = u.mem ∧ u.queues = s.queues
                ∧ (Safe s → memNat u.mem key 8 = signalled ((c.dw 3).toNat % 2 ^ 8) (memNat touched key 8) (c.dw 2).toNat)
                ∧ ∀ k, k < key ∨ key + 8 ≤ k → memGet u.mem k = memGet touched k))
    ∧ (serves s q 4 c → ∀ s1 f a, readProgress s (trowelCtx (s.queue q)) (c.dw 1) = (s1, .error (.fault f a)) →
        exec (.wait q) s = results s1 q c .failed (if f = 0x06 then 2 else 4) 0)
    ∧ (serves s q 4 c → ∀ s1 w, readProgress s (trowelCtx (s.queue q)) (c.dw 1) = (s1, .ok w) →
        (w.getLsbD 63 = false → w.getLsbD 62 = false → w.toNat % 2 ^ 62 < (c.dw 2).toNat → exec (.wait q) s = .refused (.notEnabled "WAIT"))
        ∧ (w.getLsbD 63 = true → exec (.wait q) s = results s1 q c .failed 4 0)
        ∧ (w.getLsbD 63 = false → w.getLsbD 62 = true ∨ (c.dw 2).toNat ≤ w.toNat % 2 ^ 62 → exec (.wait q) s = results s1 q c .done 0 0))
    ∧ (serves s q 5 c →
        (c.flags = 2 → (∃ e ∈ c.entries s, depFailed s e = true) → exec (.depend q) s = results s q c .failed 5 0)
        ∧ (c.flags ≠ 2 ∨ (∀ e ∈ c.entries s, depFailed s e = false) → (∀ e ∈ c.entries s, depHolds s e = true) →
            exec (.depend q) s = results s q c .done 0 0)
        ∧ (c.flags ≠ 2 ∨ (∀ e ∈ c.entries s, depFailed s e = false) → (∃ e ∈ c.entries s, depHolds s e = false) →
            exec (.depend q) s = .refused (.notEnabled "DEPEND")))
    ∧ (serves s q 6 c →
        let x := (c.dw 1).toNat % 2 ^ 12
        let n := (c.dw 2).toNat % 2 ^ 32
        exec (.refill q) s = results (s.setQueue x { s.queue x with
          budget := if n = 2 ^ 32 - 1 then (s.queue x).budget else n, charge := 0, descheduled := false, periodStart := s.refTicks }) q c .done 0 0)
    ∧ (serves s q 7 c →
        let r := cancelWhere s ((c.dw 1).toNat % 2 ^ 12) 6 fun x => decide (x.seq ≤ (c.dw 2).toNat % 2 ^ 48)
        exec (.cancel q) s = results r.1 q c .done 0 (BitVec.ofNat 64 r.2))
    ∧ (serves s q 2 c → ∀ a, c.copyArgs = some a →
        exec (.copyCommand q) s = .next (runCopy s q c a)
        ∧ let rows := a.rowSpans s (trowelCtx (s.queue q))
          ((a.refused (srcSpans rows) (dstSpans rows)).isSome = true → exec (.copyCommand q) s = results s q c .failed 4 0))
    ∧ (∀ core k g u j, s.group? core k = some g → g.idn.team ≠ 0 → s.team g.idn.team = some u → s.task u.task = some j → j.kill = none →
        teamsOf s u.task u.cluster = [(g.idn.team, u)] → (∀ e ∈ teamGroups s g.idn.team, e.1 = core ∧ e.2.1 = k) →
        (∀ v ∈ s.saved, v.task ≠ u.task ∨ v.cluster ≠ u.cluster) → j.finished + 1 = j.descr.clusters →
        FMap.wf .empty s.cores = true → FMap.wf .empty (s.core core).slots = true → FMap.wf none s.teams = true → FMap.wf none s.tasks = true →
          ∃ x, endGroup s core k g = resultCommand x j.queue j.jidx .done 0 0 ∧ x.task u.task = none ∧ x.team g.idn.team = none
            ∧ x.group? core k = none)

/-- R292, R295, R298, R300, R301, R302, R319: a command is taken from the ring at QHEAD and journaled as ACCEPTED, selected,
placed or started, and made final, its journal entry rewritten at each point. A LAUNCH that is selected is placed at the priority
of its selection before another selection begins, its cores marked first where a Weeder keeps their bits; one that does not fit
stays ACCEPTED. Some details of commands and queues are readings (log 37). -/
def Obligations.CommandLifetime : Prop :=
  ∀ (s : State), s.powered = true →
    (∀ q m, let c := s.queue q
      c.pendingBit = true → c.commands.length < 16 → journalFull s = false →
      readMem s (trowelCtx c) 4 2 true (c.ringbase + BitVec.ofNat 64 (64 * c.qhead)) 64 = m →
      (m.fault = none → m.stall = none → ∃ t x, exec (.commandAccept q) s = .next t ∧ t = takeCommand m.s q c m.val
          ∧ (t.queue q).commands = c.commands ++ [x] ∧ (t.queue q).qhead = (c.qhead + 1) % 2 ^ c.ringlog ∧ (t.queue q).nextSeq = c.nextSeq + 1
          ∧ x.seq = c.nextSeq ∧ x.kind = m.val % 2 ^ 8 ∧ x.flags = m.val / 2 ^ 8 % 2 ^ 8 ∧ x.state = .accepted
          ∧ ∀ i, i < 8 → x.dw i = BitVec.ofNat 64 (m.val / 2 ^ (64 * i)))
      ∧ (m.fault ≠ none → exec (.commandAccept q) s = .next (refuseRing m.s q c)))
    ∧ (∀ part p q c, selectionOpen s = false → scanPriorities s part 16 = some (p, q, c) →
        let s1 := { passesOf s q with trowel := { s.trowel with last := FMap.set 4095 s.trowel.last (part * 16 + p) q } }
        (c.kind ≠ 1 → exec (.queueSelection part) s = .next (startCommand s1 q c))
        ∧ (c.kind = 1 → exec (.queueSelection part) s = .next (chooseLaunch s1 q c)))
    ∧ (∀ q c k, (s.queue q).waiting = some c → s.task c.task = some k → k.placing = true →
        let ended := s.setTask c.task (some { k with placing := false })
        let shut := s.setTask c.task (some { k with placing := false, claim := [] })
        (∀ s1 k1, firstWave (startCommand ended q c) c.task k k.pri = some s1 → s1.task c.task = some k1 →
          (k1.next ≠ 0 → exec (.launch q) s = .next s1)
          ∧ (k1.next = 0 → k1.claim ≠ k.claim → exec (.launch q) s = .next (s.setTask c.task (some { k with claim := k1.claim })))
          ∧ (k1.next = 0 → k1.claim = k.claim → exec (.launch q) s = .next { shut with teams := s1.teams }))
        ∧ (firstWave (startCommand ended q c) c.task k k.pri = none → exec (.launch q) s = .next shut))
    ∧ (∀ n k, s.task n = some k → k.due = true → launched s k = true → mayPlace s k (s.queue k.queue).priority = true →
        (∀ v ∈ s.saved, v.task ≠ n) →
        let s0 := s.setTask n (some { k with due := false })
        (∀ s1, placeWave n (k.descr.clusters - k.next) s0 = some s1 → exec (.placementPass n) s = .next s1)
        ∧ (k.descr.clusters ≤ k.next → exec (.placementPass n) s = .next s0))
    ∧ (∀ q c cs st reason tag, (s.queue q).commands = c :: cs → c.result = some (st, reason, tag) →
        ∃ t, exec (.commandFinal q) s = .next t
          ∧ (FMap.wf .empty s.queues = true → (t.queue q).qseq = Max.max (s.queue q).qseq c.seq
            ∧ (st ≠ .done → c.seq ∈ (t.queue q).failedSeqs)
            ∧ (st ≠ .failed → (t.queue q).commands = (s.queue q).commands.filter fun x => x.jidx != c.jidx))
          ∧ (Safe s → c.kind ≠ 1 → st ≠ .failed → c.jidx < 2 ^ s.trowel.jlog →
              memBytes t.mem (journalBase s + 64 * c.jidx) 64 = journalBytes st.code reason q c.kind c.seq c.ring c.jgen tag s.refTicks))
    ∧ (∀ q, (s.queue q).msgHeld = true → (s.queue q).msgAt ≤ s.refTicks →
        ∃ t, exec (.qseqMsgIntervalEnd q) s = .next t ∧ (t.queue q).msgHeld = false
          ∧ t.msgs = s.msgs ++ [{ kind := 1, queue := q, value := BitVec.ofNat 64 (s.queue q).qseq }])
    ∧ (∀ reason tag, journalFull s = false → s.trowel.events.contains (reason, tag) = true →
        ∃ t, exec (.deviceEventJournal reason tag) s = .next t ∧ t.trowel.events = s.trowel.events.erase (reason, tag)
          ∧ t.msgs = s.msgs ++ [{ kind := 3, queue := 0, value := BitVec.ofNat 64 s.trowel.jhead }])
    ∧ (s.trowel.lastCharge + 1000 ≤ s.refTicks →
        ∃ t, exec .chargeRead s = .next t ∧ t.trowel.lastCharge = s.refTicks / 1000 * 1000 ∧ t.mem = s.mem)
    ∧ (∀ q, let c := s.queue q
        c.period ≠ 0 → c.periodStart + c.period ≤ s.refTicks →
        exec (.periodEnd q) s = .next (s.setQueue q { c with
          charge := 0, descheduled := false, periodStart := c.periodStart + (s.refTicks - c.periodStart) / c.period * c.period }))

/-- R390, R391, R392: samples of the module's power move the caps of both dies; a thermal cap holds a die at 12; a droop narrows a
die for 1,250,000 cycles; a trip takes the power away, after which only a reset does anything. That a count of samples below the
limit stops at 10, and what a reset keeps, are readings (log 38). -/
def Obligations.PowerSteps : Prop :=
  ∀ (s : State),
    (s.powered = true →
      (∀ watts, s.trowel.lastSample + 1000 ≤ s.refTicks → ∃ t, exec (.powerSample watts) s = .next t
        ∧ t.trowel.lastSample = s.refTicks / 1000 * 1000
        ∧ t.belowCount = (if watts * 100 < s.powerLimit * 95 then Min.min 10 (s.belowCount + 1) else 0)
        ∧ (s.powerLimit < watts → ∀ d, d < 2 → (t.die d).level = Min.min 12 ((s.die d).level + 1))
        ∧ (watts ≤ s.powerLimit → t.belowCount ≠ 10 → t.dies = s.dies)
        ∧ (watts ≤ s.powerLimit → t.belowCount = 10 → FMap.wf .empty s.dies = true → ∀ d, d < 2 →
            (t.die d).level = if (s.die d).hold then (s.die d).level else (s.die d).level - 1))
      ∧ (∀ d, d < 2 →
          (∃ t, exec (.thermalCap d) s = .next t ∧ (t.die d).level = 12 ∧ (t.die d).hold = true)
          ∧ ((s.die d).hold = true → exec (.thermalRelease d) s = .next (s.setDie d { s.die d with hold := false }))
          ∧ exec (.supplyDroop d) s = .next (s.setDie d { s.die d with droopEnd := some (s.now + 1250000) })
          ∧ (∀ e, (s.die d).droopEnd = some e → e ≤ s.now → exec (.alarmExpiry d) s = .next (s.setDie d { s.die d with droopEnd := none })))
      ∧ exec .thermalTrip s = .next { s with powered := false }
      ∧ ((s.die 0).untrained = true ∨ (s.die 1).untrained = true → ∃ t, exec .memoryTrained s = .next t
          ∧ (t.die 0).untrained = false ∧ (t.die 1).untrained = false))
    ∧ (∃ t, exec .deviceReset s = .next t ∧ t.powered = true ∧ t.cores = State.reset.cores ∧ t.teams = [] ∧ t.tasks = [] ∧ t.queues = [] ∧ t.flights = []
        ∧ t.dies = [] ∧ t.ucie = BitVec.allOnes 4)

/-- R81, R82, R307, R316, R371, R372, R376: the host's accesses. A doorbell sets the tail of a loaded queue; any other value, and
a write elsewhere in a doorbell page, is discarded and told of with its queue. MMR answers. DMR and DMW move the bytes that a mask
names in one line of installed memory, at its home, where HOSTCTL permits it. QLOAD takes a sound descriptor, and one that clears
ENABLE stops acceptance. A partition's entry takes columns that no other partition has and no team runs in. That a QLOAD with
ENABLE 0 disables the queue and takes RINGLOG alone is a reading (log 37); so are a transfer of one line at most, and what a
discarded write of some registers records (log 38). -/
def Obligations.HostAccesses : Prop :=
  ∀ (s : State), s.powered = true →
    (∀ q (v : BitVec 64), let c := s.queue q
      let good := q < Min.min 4096 s.trowel.qdtcount.toNat ∧ c.loaded = true ∧ v.toNat < 2 ^ 32 ∧ v.toNat < 2 ^ c.ringlog
      (good → exec (.dbw q v) s
          = .next (s.setQueue q { c with tail := v.toNat, pendingBit := c.enable && (c.qhead != v.toNat) }))
      ∧ (¬good → exec (.dbw q v) s = discarded s 0 q 0))
    ∧ (∀ off, ∃ v, exec (.mmr off) s = .next { s with replies := s.replies ++ [.value off v] }
        ∧ (off = 0x1000 → v = s.trowel.mmioerr) ∧ (off = 0x2000 → v = s.trowel.qdtbase) ∧ (off = 0x3040 → v = s.trowel.hostctl)
        ∧ (off % 8 ≠ 0 → v = 0)
        ∧ ∀ q r, q < 4096 → r < 4096 → off = 0x100_0000 + 4096 * q + r →
            (r = 0x000 → v = BitVec.ofNat 64 (s.queue q).tail) ∧ (r = 0x008 → v = BitVec.ofNat 64 (s.queue q).qhead)
            ∧ (r = 0x010 → v = BitVec.ofNat 64 (s.queue q).qseq) ∧ (r = 0x018 → v = BitVec.ofNat 64 s.trowel.jhead) ∧ (0x020 ≤ r → v = 0))
    ∧ (∀ off (v : BitVec 64),
        (off % 8 ≠ 0 → off < 0x100_0000 ∨ 0x200_0000 ≤ off → exec (.mmw off v) s = discarded s 1 0 off)
        ∧ (off = 0x1000 → v = 0 → exec (.mmw off v) s = .next { s with trowel := { s.trowel with mmioerr := 0 } })
        ∧ (off = 0x2000 → v.toNat < 2 ^ 39 → v.toNat % 4096 = 0 → anyEnabled s = false →
            exec (.mmw off v) s = .next { s with trowel := { s.trowel with qdtbase := v } })
        ∧ (∀ q r, q < 4096 → r < 4096 → off = 0x100_0000 + 4096 * q + r →
            (r = 0 → exec (.mmw off v) s = exec (.dbw q v) s) ∧ (r ≠ 0 → exec (.mmw off v) s = discarded s 0 q r)))
    ∧ (∀ pa mask, let keys := maskKeys pa mask
        keys ≠ [] → (∀ k ∈ keys, ∀ q ∈ keys, k / 192 = q / 192) →
        (hostReaches s keys → ∃ marked,
          exec (.dmr pa mask) s = .next { s with replies := s.replies ++ [.data pa (keys.map (memGet s.mem)) marked] }
            ∧ ∀ x, x ∈ marked ↔ (∃ k ∈ keys, k / 48 = x) ∧ (mismatched s x = true ∨ poisoned s x = true))
        ∧ (¬hostReaches s keys → dataRefused s pa (.dmr pa mask)))
    ∧ (∀ pa bytes, let cells := maskCells pa bytes
        cells ≠ [] → (∀ k ∈ cells, ∀ q ∈ cells, k.1 / 192 = q.1 / 192) →
        (hostReaches s (cells.map (·.1)) → ∃ t, exec (.dmw pa bytes) s = .next t
          ∧ (Safe s → ∀ b ∈ cells, memGet t.mem b.1 = b.2) ∧ ∀ k, (∀ b ∈ cells, b.1 ≠ k) → memGet t.mem k = memGet s.mem k)
        ∧ (¬hostReaches s (cells.map (·.1)) → dataRefused s pa (.dmw pa bytes)))
    ∧ (∀ q, let v := readDescr s q
        let c := s.queue q
        let on := (v / 2 ^ 176) % 2 = 1
        (queueExists s q = false ∨ queueReserved v = false ∨ (on ∧ (c.enable = true ∨ queueLimits s v = false ∨ s.trowel.owner.owned = false)) →
          exec (.qload q) s = discarded s 1 q 0x2010)
        ∧ (queueExists s q = true → queueReserved v = true →
            (on → c.enable = false → queueLimits s v = true → s.trowel.owner.owned = true → ∃ t, exec (.qload q) s = .next t
              ∧ let d := t.queue q
                d.enable = true ∧ d.tail = 0 ∧ d.qhead = 0 ∧ d.nextSeq = 1 ∧ d.pendingBit = false ∧ d.periodStart = s.refTicks
                ∧ d.ringbase.toNat = v % 2 ^ 64 ∧ d.ptb.toNat = v / 2 ^ 64 % 2 ^ 64 ∧ d.asid = v / 2 ^ 128 % 2 ^ 16
                ∧ d.priority = v / 2 ^ 144 % 2 ^ 8 ∧ d.share = v / 2 ^ 152 % 2 ^ 8 ∧ d.part = v / 2 ^ 160 % 2 ^ 8 ∧ d.ringlog = v / 2 ^ 168 % 2 ^ 8
                ∧ d.budget = v / 2 ^ 192 % 2 ^ 32 ∧ d.period = v / 2 ^ 224 % 2 ^ 32 ∧ d.commands = c.commands)
            ∧ (¬on → c.enable = true →
                exec (.qload q) s = .next (s.setQueue q { c with enable := false, pendingBit := false, ringlog := v / 2 ^ 168 % 2 ^ 8 }))
            ∧ (¬on → c.enable = false → exec (.qload q) s = .next (s.setQueue q { c with loaded := true, ringlog := v / 2 ^ 168 % 2 ^ 8 }))))
    ∧ exec .mmioerrClear s = .next { s with trowel := { s.trowel with mmioerr := 0 } }
    ∧ (anyEnabled s = false → exec .osrefuseClear s = .next { s with trowel := { s.trowel with osrefuse := 0 } })
    ∧ (anyEnabled s = true → exec .osrefuseClear s = discarded s 1 0 0x2078)
    ∧ (∀ i (v : BitVec 64),
        let old := FMap.get 0 s.trowel.parts i
        (8 < i ∨ (i < 8 ∧ 2 ^ 25 ≤ v.toNat) ∨ (i = 8 ∧ 2 ≤ v.toNat) →
          exec (.partitionTableWrite i v) s = discarded s 1 0 (0x3000 + 8 * i))
        ∧ (i < 8 → v.toNat < 2 ^ 25 →
            ((∃ j, j < 8 ∧ j ≠ i ∧ partColumns (FMap.get 0 s.trowel.parts j) &&& partColumns v ≠ 0)
                ∨ teamInColumns s (partColumns old ^^^ partColumns v) = true →
              exec (.partitionTableWrite i v) s = discarded s 1 0 (0x3000 + 8 * i))
            ∧ ((∀ j, j < 8 → j ≠ i → partColumns (FMap.get 0 s.trowel.parts j) &&& partColumns v = 0) →
                teamInColumns s (partColumns old ^^^ partColumns v) = false →
                exec (.partitionTableWrite i v) s = .next { s with trowel := { s.trowel with parts := FMap.set 0 s.trowel.parts i v } }))
        ∧ (i = 8 → v.toNat < 2 → exec (.partitionTableWrite i v) s = .next { s with trowel := { s.trowel with hostctl := v } }))

/-- R219, R299, R385 to R390: what each kind of mailbox request does. A device without an owner refuses every kind but 6 and 9
with result 2, and an address that is no host address is result 1. Queue settings replace what the request names; a firmware image
that the device accepts is staged until a reset, and any other is result 3; a report over the nonce is written to host memory; a
measurement is extended; a release that its owner has signed disables the queues, zeroes the memory and forgets the keys; an
enrolment leaves key digests for the next reset. The request completes in MAILBOX_REQUEST_COMPLETE, which clears BUSY and sends
the message. Ownership's data are the model's choice (log 29). -/
def Obligations.MailboxSteps : Prop :=
  ∀ (s : State),
    let r0 := (s.req 0).toNat
    let near (i : Nat) : Prop := (s.req i).toNat < 2 ^ 52
    let o := s.trowel.owner
    (∀ i k, (i, k) ∈ [(Instr.queueSettings, 1), (.translationInvalidation, 2), (.partitionReset, 3), (.modulePowerLimit, 4),
        (.firmwareUpdate, 5), (.measurementExtend, 7), (.ownershipRelease, 8)] → asks s k → o.owned = false →
        exec i s = .next (endRequest s 2))
    ∧ (o.owned = true →
        (asks s 1 →
          let q := r0 / 2 ^ 8 % 2 ^ 12
          let c := s.queue q
          let given (i : Nat) : Prop := r0 / 2 ^ i % 2 = 1
          let share := (s.req 1).toNat / 2 ^ 8 % 2 ^ 5
          let sound := queueExists s q = true ∧ (given 21 → 1 ≤ share ∧ share ≤ 16)
          (¬sound → exec .queueSettings s = .next (endRequest s 1))
          ∧ (sound → FMap.wf .empty s.queues = true → ∃ t, exec .queueSettings s = .next t ∧ t.trowel = (endRequest s 0).trowel ∧ t.mem = s.mem
              ∧ (∀ x, x ≠ q → t.queue x = s.queue x) ∧ (t.queue q).commands = c.commands ∧ (t.queue q).tail = c.tail
              ∧ (given 20 → (t.queue q).priority = (s.req 1).toNat % 2 ^ 4) ∧ (¬given 20 → (t.queue q).priority = c.priority)
              ∧ (given 21 → (t.queue q).share = share) ∧ (¬given 21 → (t.queue q).share = c.share)
              ∧ (given 22 → (t.queue q).budget = (s.req 1).toNat / 2 ^ 32) ∧ (¬given 22 → (t.queue q).budget = c.budget)))
        ∧ (asks s 2 → (s.req 1).toNat % 49152 ≠ 0 ∨ (s.req 2).toNat % 49152 ≠ 0 → exec .translationInvalidation s = .next (endRequest s 1))
        ∧ (asks s 2 → (s.req 1).toNat % 49152 = 0 → (s.req 2).toNat % 49152 = 0 →
            exec .translationInvalidation s = .next (endRequest (invalidateTlbs s) 0))
        ∧ (asks s 3 → ∃ t, exec .partitionReset s = .next (sendMsg (endRequest t 0) 4 0 (BitVec.ofNat 64 (r0 / 2 ^ 8 % 2 ^ 3)))
            ∧ t = resetPartition s (r0 / 2 ^ 8 % 2 ^ 3))
        ∧ (asks s 4 → (1800 ≤ (s.req 1).toNat → (s.req 1).toNat ≤ 3000 →
              exec .modulePowerLimit s = .next (endRequest { s with powerLimit := (s.req 1).toNat } 0))
            ∧ ((s.req 1).toNat < 1800 ∨ 3000 < (s.req 1).toNat → exec .modulePowerLimit s = .next (endRequest s 1)))
        ∧ (asks s 5 →
            let image := memBytes s.mem (hostKey (s.req 1).toNat) (s.req 2).toNat
            let digest := sha384 (Config.imageBody image)
            let signed (p : List (List Byte × List Byte)) (keys : List (List Byte)) : Prop := pairVerifies digest p = true ∧ keyDigests p = keys
            let accepted := Config.imageDigest image = digest ∧ signed (Config.imageMaker image) Config.makerDigests
              ∧ (∃ p, Config.imageOwner image = some p ∧ signed p o.keys) ∧ Config.fusedCounter ≤ Config.imageVersion image
            (¬(near 1 ∧ near 2) → exec .firmwareUpdate s = .next (endRequest s 1))
            ∧ (near 1 → near 2 → (accepted → exec .firmwareUpdate s
                  = .next (endRequest { s with trowel := { s.trowel with owner := { o with staged := some image } } } 0))
                ∧ (¬accepted → exec .firmwareUpdate s = .next (endRequest s 3))))
        ∧ (asks s 7 →
            let j := r0 / 2 ^ 8 % 2 ^ 3
            (j < 3 ∨ ¬near 1 → exec .measurementExtend s = .next (endRequest s 1))
            ∧ (3 ≤ j → near 1 → ∃ v, exec .measurementExtend s = .next (endRequest { s with trowel := { s.trowel with ms := FMap.set 0 s.trowel.ms j v } } 0)
                ∧ v = BitVec.ofNat 384 (leBytes (sha384 (toBytes 48 (FMap.get 0 s.trowel.ms j).toNat ++ memBytes s.mem (hostKey (s.req 1).toNat) 48)))))
        ∧ (asks s 8 →
            let record := memBytes s.mem (hostKey (s.req 1).toNat) Config.recordLength
            let pair := Config.recordPair record
            let released := Config.recordSerial record = Config.serialNumber ∧ Config.recordCounter record = o.releases
              ∧ pairVerifies (sha384 (Config.recordBody record)) pair = true ∧ keyDigests pair = o.keys
            (¬near 1 → exec .ownershipRelease s = .next (endRequest s 1))
            ∧ (near 1 → ¬released → exec .ownershipRelease s = .next (endRequest s 3))
            ∧ (near 1 → released → ∃ t, exec .ownershipRelease s = .next t
                ∧ t.trowel = (endRequest { s with trowel := { s.trowel with owner :=
                    { o with owned := false, keys := [], releases := o.releases + 1 } } } 0).trowel
                ∧ (Safe s → ∀ k, (installed k 1 = true → memGet t.mem k = 0) ∧ (installed k 1 = false → memGet t.mem k = memGet s.mem k))
                ∧ (FMap.wf .empty s.queues = true → ∀ q, (t.queue q).enable = false))))
    ∧ (asks s 6 →
        let body := Config.reportBody s.trowel.osid Config.serialNumber o.secver o.owned o.keys ((List.range 8).map (FMap.get 0 s.trowel.ms))
          (memBytes s.mem (hostKey (s.req 1).toNat) 32)
        (¬(near 1 ∧ near 2) → exec .attestation s = .next (endRequest s 1))
        ∧ (near 1 → near 2 → exec .attestation s
            = .next (endRequest (writeBytes s (hostKey (s.req 2).toNat) (body ++ Config.identityRsa body ++ Config.identitySlh body)) 0)))
    ∧ (asks s 9 →
        let record := memBytes s.mem (hostKey (s.req 1).toNat) Config.recordLength
        let good := pairVerifies (sha384 (Config.recordBody record)) (Config.recordPair record)
        (o.owned = true → exec .enrolment s = .next (endRequest s 2))
        ∧ (o.owned = false → ¬near 1 → exec .enrolment s = .next (endRequest s 1))
        ∧ (o.owned = false → near 1 → good = false → exec .enrolment s = .next (endRequest s 3))
        ∧ (o.owned = false → near 1 → good = true → exec .enrolment s = .next (endRequest { s with trowel := { s.trowel with owner :=
            { o with enrolled := some (keyDigests (Config.recordPair record)) } } } 0)))
    ∧ (s.powered = true → s.trowel.mail.busy = true → s.trowel.mail.acted = true → s.trowel.mail.acked = false → s.trowel.mail.result = 0 →
        r0 % 2 ^ 8 = 2 → translatedLeft s = false → ∃ t, exec .invalidationAck s = .next t ∧ t.trowel.mail.acked = true)
    ∧ (∀ r, s.powered = true → requestOver s = some r → ∃ t, exec .mailboxRequestComplete s = .next t
        ∧ t.trowel.mail.busy = false ∧ t.trowel.mail.result = r
        ∧ t.msgs = s.msgs ++ [{ kind := 2, queue := 0, value := BitVec.ofNat 64 (r % 2 ^ 8 * 2 ^ 8 + s.trowel.mail.number % 2 ^ 32 * 2 ^ 32) }])

/-- R370, R375, R377, R382, R383: a failed UCIe module goes out of use; a flit with a bad link CRC is replayed and counted, a good
one acts where it is for this device: a write or a read where a window is open for it, an acknowledgement, a replay of what this
device sent. A port that has seen 64 replays takes no flit and goes down; an abort token that is not newer changes nothing. What a
flit carries and how peers are seen are the model's choices (logs 32 and 33). -/
def Obligations.FabricSteps : Prop :=
  ∀ (s : State), s.powered = true →
    let spent (p : Nat) : Prop := 64 ≤ FMap.get 0 s.fabric.replays p ∨ 64 ≤ FMap.get 0 s.fabric.replays (p + 64)
    (∀ m, m < 4 → s.ucie.getLsbD m = true → exec (.ucieModuleFail m) s = .next { s with ucie := s.ucie &&& ~~~(1#4 <<< m) })
    ∧ (∀ fl : Flit, fl.port < 64 → s.fabric.ports.getLsbD fl.port = true →
        let counted (n : Nat) : State := { s with fabric := { s.fabric with replays := FMap.set 0 s.fabric.replays fl.port n } }
        let mine := fl.crcGood = true ∧ fl.dst = s.trowel.osid.toNat
        (spent fl.port → exec (.flitReceive fl) s = .refused (.notEnabled "FLIT_RECEIVE"))
        ∧ (¬spent fl.port →
            (fl.crcGood = false → exec (.flitReceive fl) s = .next (counted (Min.min 64 (FMap.get 0 s.fabric.replays fl.port + 1))))
            ∧ (fl.crcGood = true → fl.dst ≠ s.trowel.osid.toNat → exec (.flitReceive fl) s = .next (counted 0))
            ∧ (mine → exec (.flitReceive fl) s = .next (performFlit (counted 0) fl))
            ∧ (mine → fl.kind = .write → exportAddress s (fl.addr / 192 * 192) 192 true = none →
                ∃ t, exec (.flitReceive fl) s = .next t ∧ t.mem = s.mem ∧ t.trowel.osrefuse = s.trowel.osrefuse + 1)
            ∧ (mine → fl.kind = .read → exportAddress s (fl.addr / 192 * 192) 192 false = none →
                ∃ t marked, exec (.flitReceive fl) s = .next t ∧ t.mem = s.mem ∧ t.replies = s.replies ++ [.data fl.addr [] marked]
                  ∧ ∀ x, x ∈ marked ↔ ∃ i, i < 4 ∧ fl.sectorMask.getLsbD i = true ∧ x = fl.addr / 192 * 4 + i)
            ∧ (mine → fl.kind = .ack → s.fabric.runs = [] → ∃ t, exec (.flitReceive fl) s = .next t ∧ t.mem = s.mem
                ∧ ∀ f, f ∈ t.fabric.sent ↔ f ∈ s.fabric.sent
                    ∧ ¬(f.comm = fl.comm ∧ f.attempt = fl.attempt ∧ f.seq = fl.seq ∧ f.dev = fl.src ∧ f.offset = fl.addr))
            ∧ (mine → fl.kind = .replay → ∃ t, exec (.flitReceive fl) s = .next t ∧ t.mem = s.mem
                ∧ FMap.get 0 t.fabric.replays (fl.port + 64) = Min.min 64 (FMap.get 0 s.fabric.replays (fl.port + 64) + 1))))
    ∧ (∀ p, p < 64 → s.fabric.ports.getLsbD p = true → spent p → s.fabric.runs = [] →
        ∃ t, exec (.portDown p) s = .next t ∧ t.fabric.ports = s.fabric.ports &&& ~~~(1#64 <<< p) ∧ t.mem = s.mem)
    ∧ (∀ comm (a : BitVec 32), ((a - attemptOf s comm).toInt ≤ 0 → exec (.abortToken comm a) s = .next s)
        ∧ (0 < (a - attemptOf s comm).toInt → s.fabric.runs = [] → ∃ t, exec (.abortToken comm a) s = .next t
            ∧ t.fabric.tokens = s.fabric.tokens ++ [(comm, a)] ∧ t.mem = s.mem))

/-- R88, R151, R153 to R157: a two-source integer word without saturation writes, in every active element below vl, the result of
its operation on the exact values of its operands, wrapped to the destination's width; every other element, and every other slice,
keeps what it held, as do masks, tiles, x registers, control registers and memory. It raises no flag. (Operand b from a stream
port is not covered here.) R26, R88, R116, R117, R150, R151, R153 to R157, R160 to R165: an element-wise word of a permitted class
combination, whose names lie below A, writes in every active element below vl the result of its operation on the exact values of
its operands, delivered once in the destination's format; the flags raised are those of the active elements. Where operand b is a
stream port, element e is given the port's value e, whether it is active or not, and a dropped member takes none. No mask is
changed. It is said for flags that are not enabled in fs. R158: VADC and VSBC write in every element below vl the sum or
difference of the patterns of A and B and of the element's carry bit, and the carry out to that bit; they cut the mask off at vl,
raise no flag of their own, and have no execution mask. R55, R89, R152, R350: a word that reaches the unit with a class
combination that it does not permit raises undefined-encoding, with its word in taddr; else one with a name past A raises slice-
bound, with taddr 0. Both come before element 0 and change no slice and no mask. A word that would be dropped does neither. -/
def Obligations.VectorArithmeticResults : Prop :=
  (∀ (s s1 : State) (c slot : Nat) (g : Group) (e : VEntry) (rest : List VEntry) (i : Instr) (caps : List Word)
    (f : BitVec 2) (d a b : BitVec 6) (k : BitVec 4) (r0 : BitVec (4 * vtEwd e.vt)),
    OneWord s s1 c slot g e rest i caps → integerTypes e → vtSat e.vt = false → integerResult (4 * vtEwd e.vt) 0 0 0 i = some (f, d, a, b, k, r0) → f ≠ 3 →
    let src := nameRange e.vt (vtEws e.vt)
    let dst := nameRange e.vt (vtEwd e.vt) d
    (src a).1 + (src a).2 ≤ g.idn.alloc → (f = 0 → (src b).1 + (src b).2 ≤ g.idn.alloc) → dst.1 + dst.2 ≤ g.idn.alloc → g.idn.alloc ≤ 768 →
    ∃ t g', exec (.arbiterDecision c .vector) s = .next t ∧ t.group? c slot = some g' ∧ t.mem = s.mem
      ∧ g'.que.vq = { e with begun := true, done := some { flags := 0, xreg := none } } :: rest
      ∧ (∀ j r, performs g e k j →
          integerResult (4 * vtEwd e.vt) (sourceValue g e a j) (operandValue g e caps f b j)
            (integerValue (vtDcls e.vt) (vtEwd e.vt) (g.slices j dst.1 dst.2)) i = some (f, d, a, b, k, r) →
          g'.slices j dst.1 dst.2 = r.toNat)
      ∧ (∀ j n, ¬performs g e k j ∨ n < dst.1 ∨ dst.1 + dst.2 ≤ n → n < 768 → g'.slices j n 1 = g.slices j n 1)
      ∧ g'.fil.masks = g.fil.masks ∧ g'.fil.tiles = g.fil.tiles ∧ g'.sca = g.sca ∧ g'.vec = g.vec ∧ g'.gra = g.gra ∧ g'.trp = g.trp)
    ∧ (∀ (s s1 : State) (c slot : Nat) (g : Group) (e : VEntry) (rest : List VEntry) (i : Instr) (caps : List Word) (f : BitVec 2)
    (d : BitVec 6) (a : Option (BitVec 6)) (b : BitVec 6) (k : BitVec 4) (σ : Nat → Work) (vs : Nat → List Nat) (fl : Nat → FlagSet),
    OneWord s s1 c slot g e rest i caps → elementForm i = some (f, d, a, b, k) → permits e i = true →
    let src := nameRange e.vt (vtEws e.vt)
    let dst := nameRange e.vt (vtEwd e.vt) d
    let sel (j : Nat) : Bool := match i with
      | .vmerge _ _ _ _ m _ => (g.mask (m.toNat - 1)).getLsbD j
      | _ => false
    let new (j : Nat) : Option (Nat × FlagSet) :=
      if activeAt g e k j then some (elementResult e (givenAt g e caps f d a b (vs j) (fl j) j) (sel j) j i) else none
    (∀ n, a = some n → (src n).1 + (src n).2 ≤ g.idn.alloc) → (f = 0 → (src b).1 + (src b).2 ≤ g.idn.alloc) →
    dst.1 + dst.2 ≤ g.idn.alloc → g.idn.alloc ≤ 768 →
    (f = 3 → portGives (loneMember s1 c slot g e caps).1 (loneMember s1 c slot g e caps).2 b 1 σ vs fl) →
    (∀ j r, new j = some r → g.stops r.2 = false) →
    ∃ t g', endsSlices s t c slot g' g e rest (flagsBelow e.vl new) dst (fun j => (new j).map (·.1)) ∧ g'.fil.masks = g.fil.masks
      ∧ portAfter s t g' g (f = 3 ∧ ¬droppedBy g k) (σ e.vl))
    ∧ (∀ (s s1 : State) (c slot : Nat) (g : Group) (e : VEntry) (rest : List VEntry) (i : Instr) (caps : List Word) (f : BitVec 2)
    (d a b : BitVec 6) (k : BitVec 4) (cc : BitVec 1) (sub : Bool) (σ : Nat → Work) (vs : Nat → List Nat) (fl : Nat → FlagSet),
    OneWord s s1 c slot g e rest i caps → i = (if sub then .vsbc f d a b k cc else .vadc f d a b k cc) → permits e i = true → k ≠ 0 →
    let src := nameRange e.vt (vtEws e.vt)
    let dst := nameRange e.vt (vtEwd e.vt) d
    let w := 4 * vtEwd e.vt
    let x (j : Nat) : Given := givenAt g e caps f d (some a) b (vs j) (fl j) j
    let p (v : Val) : Nat := (BitVec.ofInt w v.toInt).toNat
    let carry (j : Nat) : Nat := if (g.mask (k.toNat - 1)).getLsbD j then 1 else 0
    let sum (j : Nat) : Int :=
      if sub then (p (x j).a : Int) - p (x j).b - carry j else p (x j).a + p (x j).b + carry j
    let new (j : Nat) : Option (Nat × FlagSet) := if j < e.vl then some ((sum j % 2 ^ w).toNat, (x j).fl) else none
    (src a).1 + (src a).2 ≤ g.idn.alloc → (f = 0 → (src b).1 + (src b).2 ≤ g.idn.alloc) → dst.1 + dst.2 ≤ g.idn.alloc → g.idn.alloc ≤ 768 →
    (f = 3 → portGives (loneMember s1 c slot g e caps).1 (loneMember s1 c slot g e caps).2 b 1 σ vs fl) →
    (∀ j r, new j = some r → g.stops r.2 = false) →
    ∃ t g', endsSlices s t c slot g' g e rest (flagsBelow e.vl new) dst (fun j => (new j).map (·.1))
      ∧ (∀ m, m ≠ k.toNat - 1 → g'.mask m = g.mask m)
      ∧ (∀ j, (g'.mask (k.toNat - 1)).getLsbD j = decide (j < e.vl ∧ if sub then sum j < 0 else 2 ^ w ≤ sum j))
      ∧ portAfter s t g' g (f = 3) (σ e.vl))
    ∧ (∀ (s s1 : State) (c slot : Nat) (g : Group) (e : VEntry) (rest : List VEntry) (i : Instr) (caps : List Word) (f : BitVec 2)
    (d : BitVec 6) (a : Option (BitVec 6)) (b : BitVec 6) (k : BitVec 4), OneWord s s1 c slot g e rest i caps →
    elementForm i = some (f, d, a, b, k) → ¬droppedBy g k →
    let past (w : Nat) (n : BitVec 6) : Prop := g.idn.alloc < (nameRange e.vt w n).1 + (nameRange e.vt w n).2
    let raises (code : Nat) (addr : Word) : Prop :=
      ∃ t g', exec (.arbiterDecision c .vector) s = .next t ∧ t.group? c slot = some g' ∧ t.mem = s.mem
        ∧ g'.trp.pending = g.trp.pending ++ [{ serial := e.serial, code := code, src := 1, pc := e.pc, addr := addr, elem := 0 }]
        ∧ g'.fil.slices = g.fil.slices ∧ g'.fil.masks = g.fil.masks ∧ g'.sca.x = g.sca.x ∧ g'.vec = g.vec
    (permits e i = false → raises 0x01 (BitVec.ofNat 64 ((encode i).getD 0)))
    ∧ (permits e i = true → (∃ n, a = some n ∧ past (vtEws e.vt) n) ∨ (f = 0 ∧ past (vtEws e.vt) b) ∨ past (vtEwd e.vt) d →
        raises 0x04 0))

/-- R171: every operation on masks writes each bit of its mask below vl from the bits that its sources held before it, and clears
the bits from vl on, so that with vl = 0 the mask is all false; no other mask and no slice is changed. -/
def Obligations.MaskOperations : Prop :=
  ∀ (s s1 : State) (c slot : Nat) (g : Group) (e : VEntry) (rest : List VEntry) (i : Instr) (caps : List Word) (d : BitVec 6) (b0 : Bool),
    OneWord s s1 c slot g e rest i caps → maskResult g e caps 0 i = some (d, b0) →
      ∃ t g', endsMask s t c slot g' g e rest none ∧ (∀ m, m ≠ d.toNat → g'.mask m = g.mask m)
        ∧ (∀ j v, maskResult g e caps j i = some (d, v) → (g'.mask d.toNat).getLsbD j = (decide (j < e.vl) && v))
        ∧ (g'.allFalse d.toNat = true ↔ ∀ j, (g'.mask d.toNat).getLsbD j = false)

/-- R26, R159, R172: an integer compare writes the bits of its active elements, keeps those of the others below vl, clears those
from vl on, and does nothing at all where its execution mask is all false; VMPOP, VMFIRST and VMLAST return to x d how many bits
of the mask count, and the first and the last that does. No slice and no other mask is changed. R116, R117, R150, R159: a compare
of any class, with any form of operand b, writes the bit of every active element with whether its relation holds, keeps the bits
of the others below vl and clears those from vl on; its flags are those of its active elements. It is said for a member that is
not dropped and for flags that are not enabled in fs. -/
def Obligations.CompareMasks : Prop :=
  (∀ (s s1 : State) (c slot : Nat) (g : Group) (e : VEntry) (rest : List VEntry) (i : Instr) (caps : List Word),
    OneWord s s1 c slot g e rest i caps →
    (vtScls e.vt ≤ 1 → ∀ f m a b k b0, integerRelation 0 0 i = some (f, m, a, b, k, b0) → f ≠ 3 →
        let src := nameRange e.vt (vtEws e.vt)
        (src a).1 + (src a).2 ≤ g.idn.alloc → (f = 0 → (src b).1 + (src b).2 ≤ g.idn.alloc) → g.idn.alloc ≤ 768 →
        ∃ t g', endsMask s t c slot g' g e rest none ∧ (∀ n, n ≠ m.toNat → g'.mask n = g.mask n)
          ∧ (k ≠ 0 → g.allFalse (k.toNat - 1) = true → g'.mask m.toNat = g.mask m.toNat)
          ∧ (k = 0 ∨ g.allFalse (k.toNat - 1) = false → ∀ j,
              (performs g e k j → ∀ v, integerRelation (sourceValue g e a j) (operandValue g e caps f b j) i = some (f, m, a, b, k, v) →
                (g'.mask m.toNat).getLsbD j = v)
              ∧ (¬performs g e k j → j < e.vl → (g'.mask m.toNat).getLsbD j = (g.mask m.toNat).getLsbD j)
              ∧ (e.vl ≤ j → (g'.mask m.toNat).getLsbD j = false)))
    ∧ (∀ d a k cc, i = .vmpop d a k cc ∨ i = .vmfirst d a k cc ∨ i = .vmlast d a k cc →
        let js := countedBits g e a k
        let index (o : Option Nat) : Word := match o with
          | some j => BitVec.ofNat 64 j
          | none => BitVec.allOnes 64
        (k ≠ 0 → g.allFalse (k.toNat - 1) = true → ∃ t g', endsMask s t c slot g' g e rest none ∧ g'.fil.masks = g.fil.masks)
        ∧ (k = 0 ∨ g.allFalse (k.toNat - 1) = false → ∃ t g' v, endsMask s t c slot g' g e rest (some (d.toNat, v)) ∧ g'.fil.masks = g.fil.masks
            ∧ (i = .vmpop d a k cc → v = BitVec.ofNat 64 js.length)
            ∧ (i = .vmfirst d a k cc → v = index js.head?) ∧ (i = .vmlast d a k cc → v = index js.getLast?))))
    ∧ (∀ (s s1 : State) (c slot : Nat) (g : Group) (e : VEntry) (rest : List VEntry) (i : Instr) (caps : List Word) (f : BitVec 2)
    (m a b : BitVec 6) (k : BitVec 4) (r : Rel) (σ : Nat → Work) (vs : Nat → List Nat) (fl : Nat → FlagSet),
    OneWord s s1 c slot g e rest i caps → compareForm i = some (f, m, a, b, k, r) → permits e i = true → ¬droppedBy g k →
    let src := nameRange e.vt (vtEws e.vt)
    let x (j : Nat) : Given := givenAt g e caps f m (some a) b (vs j) (fl j) j
    let new (j : Nat) : Option (Nat × FlagSet) :=
      if activeAt g e k j then some (if (relVal r (x j).a (x j).b).1 then 1 else 0, (x j).fl ||| (relVal r (x j).a (x j).b).2) else none
    (src a).1 + (src a).2 ≤ g.idn.alloc → (f = 0 → (src b).1 + (src b).2 ≤ g.idn.alloc) → g.idn.alloc ≤ 768 →
    (f = 3 → portGives (loneMember s1 c slot g e caps).1 (loneMember s1 c slot g e caps).2 b 1 σ vs fl) →
    (∀ j r, new j = some r → g.stops r.2 = false) →
    ∃ t g', exec (.arbiterDecision c .vector) s = .next t ∧ t.group? c slot = some g' ∧ g'.fil.slices = g.fil.slices
      ∧ g'.que.vq = { e with begun := true, done := some { flags := flagsBelow e.vl new, xreg := none } } :: rest
      ∧ (∀ n, n ≠ m.toNat → g'.mask n = g.mask n)
      ∧ (∀ j, (g'.mask m.toNat).getLsbD j = match new j with
          | some v => decide (v.1 = 1)
          | none => decide (j < e.vl) && (g.mask m.toNat).getLsbD j)
      ∧ portAfter s t g' g (f = 3) (σ e.vl))

/-- R88, R91, R176 to R180, R185: slides, VPERM, VCOMP, VIOTA and VINS write the elements that their rules give, from what the
sources held before the word, even where the names share slices; every other element is kept, and no mask, port or byte of memory
is changed. Only VIOTA raises flags, those of narrowing its counts, and no fault for them. R88, R117, R119, R181: a reduction
writes to element 0 of d the seed combined with the active elements below vl, halved recursively; with vl = 0 the seed delivered
through narrow. Every other element is kept, and a dropped member writes nothing. It is said for flags that are not enabled in fs.
That the seed of vl = 0 is delivered through narrow is R181's text, where R119 returns it unchanged: the model follows R181 (log
48). R88, R117, R123, R150, R182: VDOT4 and VDOT8 add to each active element of d the exact sum of the products of its n sub-
values of a and b, delivered once; from a stream port every element below vl is given n values, active or not. It is said for
flags that are not enabled in fs. R174, R175, R180, R184: VTOPM sets the bits of the c candidates that rank highest, and clears
every other bit of its mask. VPICK returns the index and the pattern of the candidate before which none ranks, and clears its bit;
with no candidate it returns all ones. VEXT returns an element below vl, extended by its class, else 0. VPUSHQ appends the
patterns of its active elements to a FIFO port with room, in order; with a port bound otherwise it raises stream-port. None of
them changes a slice. -/
def Obligations.MoveReduceResults : Prop :=
  (∀ (s s1 : State) (c slot : Nat) (g : Group) (e : VEntry) (rest : List VEntry) (i : Instr) (caps : List Word) (d : BitVec 6)
    (reads : List (BitVec 6)) (k : BitVec 4), OneWord s s1 c slot g e rest i caps → movingForm i = some (d, reads, k) → permits e i = true →
    let dst := nameRange e.vt (vtEwd e.vt) d
    let counted (j : Nat) : Option (Nat × FlagSet) := match i with
      | .viota _ m _ => some (narrow (envOf e.vt) (vtDcls e.vt) (vtEwd e.vt)
          (.ofInt ((List.range j).filter fun t => (g.mask (m.toNat - 1)).getLsbD t).length))
      | _ => none
    (∀ n ∈ reads, (nameRange e.vt (vtEws e.vt) n).1 + vtEws e.vt ≤ g.idn.alloc) →
    (∀ d' a' n k' cc, i = .vperm d' a' n k' cc → (nameRange e.vt 8 n).1 + 8 ≤ g.idn.alloc) →
    dst.1 + dst.2 ≤ g.idn.alloc → g.idn.alloc ≤ 768 →
    ∃ t g', endsSlices s t c slot g' g e rest (flagsBelow e.vl counted) dst (fun j => movedElement g e caps j i)
      ∧ g'.fil.masks = g.fil.masks ∧ portAfter s t g' g False (loneMember s1 c slot g e caps).2)
    ∧ (∀ (s s1 : State) (c slot : Nat) (g : Group) (e : VEntry) (rest : List VEntry) (i : Instr) (caps : List Word) (f : BitVec 2)
    (d a b : BitVec 6) (k : BitVec 4) (bitwise : Bool) (op : Nat → Nat → Nat × FlagSet),
    OneWord s s1 c slot g e rest i caps → reduction e i = some (f, d, a, b, k, bitwise, op) → permits e i = true →
    let dst := nameRange e.vt (vtEwd e.vt)
    let deliver (v : Val) : Nat × FlagSet :=
      if bitwise then ((BitVec.ofInt (4 * vtEwd e.vt) v.toInt).toNat, 0) else narrow (envOf e.vt) (vtDcls e.vt) (vtEwd e.vt) v
    let element (j : Nat) : Partial :=
      if activeAt g e k j then
        let r := deliver (extend (envOf e.vt) (vtScls e.vt) (vtEws e.vt) (sourceBits g e a j))
        (some r.1, r.2)
      else (none, 0)
    let stored := if f = 0 then g.slices 0 (dst b).1 (dst b).2 else (caps.getD 0 0).toNat % 2 ^ (4 * vtEwd e.vt)
    let seed : Nat × FlagSet :=
      if e.vl = 0 ∧ bitwise = false then deliver (extend (envOf e.vt) (vtDcls e.vt) (vtEwd e.vt) stored) else (stored, 0)
    let r := combine op (some seed.1, seed.2) (halved op (halvings e.vl) element 0)
    (nameRange e.vt (vtEws e.vt) a).1 + vtEws e.vt ≤ g.idn.alloc → (f = 0 → (dst b).1 + (dst b).2 ≤ g.idn.alloc) →
    (dst d).1 + (dst d).2 ≤ g.idn.alloc → g.idn.alloc ≤ 768 → g.stops r.2 = false →
    ∃ t g', (¬droppedBy g k → endsSlices s t c slot g' g e rest r.2 (dst d) (fun j => if j = 0 then r.1 else none))
      ∧ (droppedBy g k → endsSlices s t c slot g' g e rest 0 (dst d) (fun _ => none))
      ∧ g'.fil.masks = g.fil.masks ∧ portAfter s t g' g False (loneMember s1 c slot g e caps).2)
    ∧ (∀ (s s1 : State) (c slot : Nat) (g : Group) (e : VEntry) (rest : List VEntry) (i : Instr) (caps : List Word) (f : BitVec 2)
    (d a b : BitVec 6) (k : BitVec 4) (cc : BitVec 1) (n : Nat) (σ : Nat → Work) (vs : Nat → List Nat) (fl : Nat → FlagSet),
    OneWord s s1 c slot g e rest i caps →
    (i = .vdot4 f d a b k cc ∧ n = 4) ∨ (i = .vdot8 f d a b k cc ∧ n = 8) → (f = 0 ∨ f = 3) → permits e i = true →
    let ws := vtEws e.vt
    let start (x : BitVec 6) : Nat := (nameRange e.vt ws x).1
    let dst := nameRange e.vt (vtEwd e.vt) d
    let value (bits : Nat) : Val := extend (envOf e.vt) (vtScls e.vt) ws bits
    let sub (x : BitVec 6) (j : Nat) : List Nat := (List.range n).map fun t => g.slices j (start x + t * ws) ws
    let as (j : Nat) : List Val := (sub a j).map value
    let bs (j : Nat) : List Val := (if f = 3 then vs j else sub b j).map value
    let acc (j : Nat) : Val := extend (envOf e.vt) (vtDcls e.vt) (vtEwd e.vt) (g.slices j dst.1 dst.2)
    let sum (j : Nat) : Val × FlagSet :=
      if 2 ≤ vtScls e.vt then dotVal (envOf e.vt) (acc j) (as j) (bs j)
      else (.ofInt ((acc j).toInt + (((as j).zip (bs j)).map fun p => p.1.toInt * p.2.toInt).sum), 0)
    let new (j : Nat) : Option (Nat × FlagSet) :=
      if activeAt g e k j then
        let r := narrow (envOf e.vt) (vtDcls e.vt) (vtEwd e.vt) (sum j).1
        some (r.1, (if f = 3 then fl j else 0) ||| (sum j).2 ||| r.2)
      else none
    start a + n * ws ≤ g.idn.alloc → (f = 0 → start b + n * ws ≤ g.idn.alloc) → dst.1 + dst.2 ≤ g.idn.alloc → g.idn.alloc ≤ 768 →
    (f = 3 → portGives (loneMember s1 c slot g e caps).1 (loneMember s1 c slot g e caps).2 b n σ vs fl) →
    (∀ j r, new j = some r → g.stops r.2 = false) →
    ∃ t g', endsSlices s t c slot g' g e rest (flagsBelow e.vl new) dst (fun j => (new j).map (·.1)) ∧ g'.fil.masks = g.fil.masks
      ∧ portAfter s t g' g (f = 3 ∧ ¬droppedBy g k) (σ e.vl))
    ∧ (∀ (s s1 : State) (c slot : Nat) (g : Group) (e : VEntry) (rest : List VEntry) (i : Instr) (caps : List Word),
    OneWord s s1 c slot g e rest i caps →
    let ends (t : State) (g' : Group) (fl : FlagSet) (x : Option (Nat × Word)) : Prop :=
      exec (.arbiterDecision c .vector) s = .next t ∧ t.group? c slot = some g' ∧ t.mem = s.mem ∧ g'.fil.slices = g.fil.slices
        ∧ g'.que.vq = { e with begun := true, done := some { flags := fl, xreg := x } } :: rest ∧ g'.sca = g.sca ∧ g'.vec = g.vec
    let below (a : BitVec 6) : Prop := (nameRange e.vt (vtEws e.vt) a).1 + vtEws e.vt ≤ g.idn.alloc
    let among (a : BitVec 6) (k : BitVec 4) : List (Nat × Val) :=
      (activeList g e k).map fun j => (j, extend (envOf e.vt) (vtScls e.vt) (vtEws e.vt) (sourceBits g e a j))
    let nv (a : BitVec 6) (k : BitVec 4) : FlagSet := if (among a k).any fun x => x.2.isSNaN then 0x10 else 0
    (∀ f m a b k cc, i = .vtopm f m a b k cc → below a → ¬droppedBy g k → g.stops (nv a k) = false →
        ∃ t g', ends t g' (nv a k) none ∧ g'.fil.ports = g.fil.ports ∧ (∀ n, n ≠ m.toNat → g'.mask n = g.mask n)
          ∧ ∀ j, (g'.mask m.toNat).getLsbD j = true ↔ ∃ x ∈ among a k, x.1 = j
              ∧ ((among a k).filter fun y => ranksBefore true y x).length < amountGiven caps 0 f b)
      ∧ (∀ isMax : Bool, ∀ d a k cc, i = (if isMax then .vpickMax d a k cc else .vpickMin d a k cc) → k ≠ 0 → below a → ¬droppedBy g k →
          g.stops (nv a k) = false →
          (among a k = [] → ∃ t g', ends t g' (nv a k) (some (d.toNat, BitVec.allOnes 64)) ∧ g'.fil.masks = g.fil.masks)
          ∧ ∀ x ∈ among a k, (∀ y ∈ among a k, ranksBefore isMax y x = false) →
              ∃ t g', ends t g' (nv a k) (some (d.toNat, BitVec.ofNat 32 (sourceBits g e a x.1) ++ BitVec.ofNat 32 x.1))
                ∧ (∀ n, n ≠ k.toNat - 1 → g'.mask n = g.mask n)
                ∧ ∀ j, (g'.mask (k.toNat - 1)).getLsbD j = ((g.mask (k.toNat - 1)).getLsbD j && decide (j ≠ x.1 ∧ j < g.vec.vlmax)))
      ∧ (∀ f d a b cc, i = .vext f d a b cc → below a →
          let j := amountGiven caps 0 f b
          let bits := sourceBits g e a j
          ∃ t g', ends t g' 0 (some (d.toNat, if e.vl ≤ j then 0
              else if vtScls e.vt = 0 then (BitVec.ofNat (4 * vtEws e.vt) bits).signExtend 64 else BitVec.ofNat 64 bits))
            ∧ g'.fil.masks = g.fil.masks)
      ∧ ∀ q a k cc, i = .vpushq q a k cc → below a → ¬droppedBy g k → e.vl ≠ 0 →
          let p := g.port q.toNat
          let pushed := (activeList g e k).map fun j => (sourceBits g e a j, vtEws e.vt)
          (p.kind = .fifo → p.fifo.length + pushed.length ≤ 4 * g.vec.vlmax → FMap.wf Port.empty g.fil.ports = true →
            ∃ t g', ends t g' 0 none ∧ g'.fil.masks = g.fil.masks ∧ g'.port q.toNat = { p with fifo := p.fifo ++ pushed }
              ∧ ∀ n, n ≠ q.toNat → g'.port n = g.port n)
          ∧ (p.kind ≠ .fifo → ∃ t g', exec (.arbiterDecision c .vector) s = .next t ∧ t.group? c slot = some g' ∧ t.mem = s.mem
              ∧ g'.trp.pending = g.trp.pending ++ [{ serial := e.serial, code := 0x0C, src := 1, pc := e.pc, addr := 0, elem := 0 }]
              ∧ g'.fil.slices = g.fil.slices ∧ g'.fil.masks = g.fil.masks ∧ ∀ n, (g'.port n).fifo = (g.port n).fifo))

/-- R88, R116, R217, R231, R232, R235: a load without a witness, or whose witness is resolved, reads the values of its active
elements in increasing order, each from its place, and writes them delivered to the destination's type; inactive elements are
neither read nor written. `σ n` is the device as it stands after n values. No mask and no port is changed, and of memory only what
the walker sets in leaf entries. It is said for reads that raise no fault and do not wait, and for flags that are not enabled in
fs. R88, R97, R217: VFILL reads the slices of every element below vl, and those of the elements from vl on that lie whole in the
sectors it has read; `σ n` is the device as it stands after n elements. Every other element is kept; with vl = 0 nothing is read.
It is said for reads that raise no fault and do not wait. R95, R116, R217, R220, R231 to R233, R238, R251: a store writes the
values of its active elements in increasing order, each at its place, and nothing else but the leaf entries that the walker marks;
no slice, mask or port is changed. `σ j` is the device as it stands after j elements. It is said at the prompt pace, in a team
that is not resilient, with no write under way, for places that raise no fault and flags that are not enabled in fs. R88, R217,
R239, R240: a VAMO takes the old value of each active element's location, in increasing order, into its name, and leaves at the
location the result of its operation on the old value and the name's; no other byte of memory is changed but in the leaf entries
that the walker marks. `σ j` is the device as it stands after j elements. It is said in a team that is not resilient, with no
write under way. R119, R239, R241: a VREDM merges the operands of each location in element order, then leaves at the location the
result of its operation on the old value and the merged one; no slice, mask or port is changed, and no other byte of memory but in
the leaf entries that the walker marks. `σ j` is the device as it stands after j elements, before any location is written. It is
said in a team that is not resilient, with no write under way. That one location under two pages counts once is the model's choice
(log 48). -/
def Obligations.VectorMemoryResults : Prop :=
  (∀ (s s1 : State) (c slot : Nat) (g : Group) (e : VEntry) (rest : List VEntry) (i : Instr) (caps : List Word) (d : BitVec 6)
    (fields policy wi : Nat) (k : BitVec 4) (place : Nat → Nat → Word × Nat) (σ : Nat → State),
    OneWord s s1 c slot g e rest i caps → loadForm g e caps i = some (d, fields, policy, wi, k, place) → indexBelow g e i →
    let ctx := ctxOf s1 c slot g
    let wit := caps.getD wi 0
    let ws := vtEws e.vt
    let wd := vtEwd e.vt
    let start := (nameRange e.vt wd d).1
    let size (j f : Nat) : Nat := bytesOf (place j f).2 (4 * ws)
    let got (j f : Nat) : ReadOut := readMem (σ (j * fields + f)) ctx 1 policy (decide (wit.toNat / 2 ^ 62 ≠ 0)) (place j f).1 (size j f)
    let value (j f : Nat) : Nat × FlagSet :=
      deliver (envOf e.vt) (vtScls e.vt) ws (vtDcls e.vt) wd ((got j f).val / 2 ^ (place j f).2 % 2 ^ (4 * ws))
    let raised (j : Nat) : FlagSet := (List.range fields).foldl (fun fl f => fl ||| (value j f).2) 0
    start + fields * wd ≤ g.idn.alloc → g.idn.alloc ≤ 768 →
    (wit.toNat / 2 ^ 62 = 0 ∨ (checkWitness s1 wit = none ∧ waitOver (s1.setGroup c slot g) wit = true)) →
    σ 0 = s1 → (∀ j f, j < e.vl → f < fields → σ (j * fields + f + 1) = if activeAt g e k j then (got j f).s else σ (j * fields + f)) →
    (∀ j f, activeAt g e k j = true → f < fields → (got j f).fault = none ∧ (got j f).stall = none) →
    (∀ j, activeAt g e k j = true → g.stops (raised j) = false) →
    ∃ t g', exec (.arbiterDecision c .vector) s = .next t ∧ t.group? c slot = some g' ∧ t.mem = (σ (e.vl * fields)).mem
      ∧ g'.que.vq = { e with begun := true
                             done := some { flags := flagsBelow e.vl fun j => if activeAt g e k j then some (0, raised j) else none, xreg := none } }
          :: rest
      ∧ (∀ j f, activeAt g e k j = true → f < fields → g'.slices j (start + f * wd) wd = (value j f).1 % 2 ^ (4 * wd))
      ∧ (∀ j n, activeAt g e k j = false ∨ n < start ∨ start + fields * wd ≤ n → n < 768 → g'.slices j n 1 = g.slices j n 1)
      ∧ g'.fil.masks = g.fil.masks ∧ g'.fil.tiles = g.fil.tiles ∧ g'.fil.ports = g.fil.ports ∧ g'.sca = g.sca ∧ g'.vec = g.vec
      ∧ (Safe s → ∀ x, (∀ j f, activeAt g e k j = true → f < fields →
            awayFromLeaves (spans (σ (j * fields + f)) ctx .load (place j f).1 (size j f)) x) → memGet t.mem x = memGet s.mem x))
    ∧ (∀ (s s1 : State) (c slot : Nat) (g : Group) (e : VEntry) (rest : List VEntry) (b : BitVec 5) (start : BitVec 10) (n : BitVec 6)
    (caps : List Word) (σ : Nat → State) (tail : Nat) (lastRef : Ref),
    OneWord s s1 c slot g e rest (.vfill b start n) caps →
    let ctx := ctxOf s1 c slot g
    let count := n.toNat + 1
    let size := (count + 1) / 2
    let at_ (j : Nat) : Word := caps.getD 0 0 + BitVec.ofNat 64 (j * size)
    let got (j : Nat) : ReadOut := readMem (σ j) ctx 1 0 false (at_ j) size
    start.toNat + count ≤ g.idn.alloc → g.idn.alloc ≤ 768 →
    (if e.vl = 0 then tail = 0 else
      translate (σ e.vl) ctx .load (at_ e.vl - 1) = .ok lastRef ∧ tail = min ((47 - lastRef.key % 48) / size) (g.vec.vlmax - e.vl)) →
    σ 0 = s1 → (∀ j, j < e.vl + tail → σ (j + 1) = (got j).s ∧ (got j).fault = none ∧ (got j).stall = none) →
    ∃ t g', endsSlices s t c slot g' g e rest 0 (start.toNat, count) (fun j => if j < e.vl + tail then some (got j).val else none)
      ∧ t.mem = (σ (e.vl + tail)).mem ∧ g'.fil.masks = g.fil.masks ∧ g'.fil.ports = g.fil.ports
      ∧ (Safe s → ∀ x, (∀ j, j < e.vl + tail → awayFromLeaves (spans (σ j) ctx .load (at_ j) size) x) → memGet t.mem x = memGet s.mem x))
    ∧ (∀ (s s1 : State) (c slot : Nat) (g : Group) (e : VEntry) (rest : List VEntry) (i : Instr) (caps : List Word) (k : BitVec 4) (l1 : Bool)
    (reads : Nat × Nat) (vals : Nat → List ((Word × Nat × Nat × Nat) × FlagSet)) (σ : Nat → State),
    OneWord s s1 c slot g e rest i caps → storeForm g e caps i = some (k, l1, reads, vals) → indexBelow g e i →
    s.pace = .prompt → Safe s → Settled s →
    let ctx := ctxOf s1 c slot g
    let sender : Sender := { ctx := ctx, path := 1, seq := e.seq, serial := e.serial, l1 := l1 }
    let sps (j : Nat) (v : Word × Nat × Nat × Nat) : List Span := spans (σ j) ctx .store v.1 (bytesOf v.2.1 v.2.2.1)
    let raised (j : Nat) : FlagSet := (vals j).foldl (fun fl v => fl ||| v.2) 0
    reads.1 + reads.2 ≤ g.idn.alloc → g.idn.alloc ≤ 768 →
    σ 0 = s1 → (∀ j, j < e.vl → σ (j + 1) = if activeAt g e k j then
      (vals j).foldl (fun s v => sendBits s sender (sps j v.1) v.1.2.1 v.1.2.2.1 v.1.2.2.2) (σ j) else σ j) →
    (∀ j, activeAt g e k j = true → g.stops (raised j) = false ∧ ∀ v ∈ vals j, accessFault (sps j v.1) = none) →
    ∃ t g', exec (.arbiterDecision c .vector) s = .next t ∧ t.group? c slot = some g' ∧ t.mem = (σ e.vl).mem
      ∧ g'.que.vq = { e with begun := true
                             done := some { flags := flagsBelow e.vl fun j => if activeAt g e k j then some (0, raised j) else none, xreg := none } }
          :: rest
      ∧ g'.fil = g.fil ∧ g'.sca = g.sca ∧ g'.vec = g.vec
      ∧ (∀ j, j < e.vl → activeAt g e k j = true → bitsStand (σ j) ctx (σ (j + 1)).mem ((vals j).map (·.1)))
      ∧ ∀ j, j < e.vl → activeAt g e k j = false → (σ (j + 1)).mem = (σ j).mem)
    ∧ (∀ (s s1 : State) (c slot : Nat) (g : Group) (e : VEntry) (rest : List VEntry) (i : Instr) (caps : List Word) (fn : AtomicFn)
    (v n : BitVec 6) (k : BitVec 4) (σ : Nat → State) (key : Nat → Nat) (page : Nat → Ref),
    OneWord s s1 c slot g e rest i caps → atomicForm i = some (fn, v, n, k, true) → AtomicRun s1 c slot g e caps fn v n k σ key page →
    Safe s → Settled s →
    let ctx := ctxOf s1 c slot g
    let m := vtEwd e.vt / 2
    let name := nameRange e.vt (vtEwd e.vt) v
    let sps (j : Nat) : List Span := spans (σ j) ctx .atomic (indexedAddr g e caps j n) m
    let old (j : Nat) : Nat := memNat (σ j).mem (key j) m
    let new (j : Nat) : Nat × FlagSet := atomicClass fn (vtDcls e.vt) (vtEwd e.vt) (envOf e.vt) (old j) (g.slices j name.1 name.2)
    (∀ j, activeAt g e k j = true →
      σ (j + 1) = dropSectors (writeNat (touchSpans (σ j) ctx true (sps j)) (key j) m (new j).1) c [key j / 48]) →
    ∃ t g', endsSlices s t c slot g' g e rest (flagsBelow e.vl fun j => if activeAt g e k j then some (new j) else none) name
        (fun j => if activeAt g e k j then some (old j) else none)
      ∧ t.mem = (σ e.vl).mem ∧ g'.fil.masks = g.fil.masks ∧ g'.fil.ports = g.fil.ports
      ∧ ∀ j, activeAt g e k j = true → memNat (σ (j + 1)).mem (key j) m = (new j).1
          ∧ ∀ x, x < key j ∨ key j + m ≤ x → awayFromLeaves (sps j) x → memGet (σ (j + 1)).mem x = memGet (σ j).mem x)
    ∧ (∀ (s s1 : State) (c slot : Nat) (g : Group) (e : VEntry) (rest : List VEntry) (i : Instr) (caps : List Word) (fn : AtomicFn)
    (v n : BitVec 6) (k : BitVec 4) (σ : Nat → State) (key : Nat → Nat) (page : Nat → Ref),
    OneWord s s1 c slot g e rest i caps → atomicForm i = some (fn, v, n, k, false) → AtomicRun s1 c slot g e caps fn v n k σ key page →
    Safe s → Settled s →
    let ctx := ctxOf s1 c slot g
    let m := vtEwd e.vt / 2
    let name := nameRange e.vt (vtEwd e.vt) v
    let sps (j : Nat) : List Span := spans (σ j) ctx .atomic (indexedAddr g e caps j n) m
    let act := activeList g e k
    let apply (x y : Nat) : Nat × FlagSet := atomicClass fn (vtDcls e.vt) (vtEwd e.vt) (envOf e.vt) x y
    let merged (κ : Nat) : Nat × FlagSet :=
      match (act.filter fun j => key j == κ).map fun j => g.slices j name.1 name.2 with
      | [] => (0, 0)
      | x :: xs => xs.foldl (fun a y => ((apply a.1 y).1, a.2 ||| (apply a.1 y).2)) (x, 0)
    let final (κ : Nat) : Nat × FlagSet := apply (memNat (σ e.vl).mem κ m) (merged κ).1
    (∀ j, activeAt g e k j = true → σ (j + 1) = touchSpans (σ j) ctx true (sps j)) →
    (∀ j ∈ act, ∀ j' ∈ act, key j = key j' ∨ key j + m ≤ key j' ∨ key j' + m ≤ key j) →
    ∃ t g', endsSlices s t c slot g' g e rest
        ((dedup (act.map key)).foldl (fun fl κ => fl ||| (merged κ).2 ||| (final κ).2) 0) name (fun _ => none)
      ∧ g'.fil.masks = g.fil.masks ∧ g'.fil.ports = g.fil.ports
      ∧ (∀ κ ∈ act.map key, memNat t.mem κ m = (final κ).1)
      ∧ (∀ x, (∀ κ ∈ act.map key, x < κ ∨ κ + m ≤ x) → memGet t.mem x = memGet (σ e.vl).mem x)
      ∧ ∀ x, (∀ j ∈ act, awayFromLeaves (sps j) x) → memGet (σ e.vl).mem x = memGet s.mem x)

/-- R121, R195, R197: TZERO makes every element of its tile 0. TMMA with integer inputs and without saturation adds to each
element of the valid rectangle, wrapped to 32 bits, the dot product of its row of A and its column of B; TMMA.OVR writes that dot
product alone. Every other tile element, and every slice and mask, stays. R194, R197, R199: TLDA writes the valid part of an A
box, read from the local space, into the slices of its name, and zeros in the rest of the granted rows and columns. TLDACC makes
its tile the C box it reads, with zeros elsewhere. TRESTORE makes its tile the valid elements of an image whose header suits the
grant, with zeros elsewhere, and raises tile-fault for one that does not. It is said for boxes whose reads raise no fault and do
not wait. R120, R121, R195, R196: TMMA adds to each element of the valid rectangle the products of its row of A and its column of
B, block by block, and TMMA.OVR leaves that sum alone; every other tile element is kept. A comes from the latch where the word may
reuse it and it suits the grant, else from the slices, whence a word that may reuse it puts it in the latch. It is said for a box
whose read raises no fault and does not wait, and for flags that are not enabled in fs. That an element with no valid product
keeps its bits under FZ = 2 too is log 40 (DEDUCED). R193, R197, R198, R217: TSTACC writes the valid elements of its tile, each
converted to its format, to the C box; TSAVE writes the image of its tile: the header, then the granted elements row by row.
Nothing else in memory is changed but the leaf entries that the walker marks, and no tile or slice is. It is said at the prompt
pace, in a team that is not resilient, with no write under way, for places that raise no fault and flags that are not enabled in
fs. R196, R197: TTOV writes the elements of its tile, converted to the destination's type, into the slices of the granted columns
for the rows below the grant and vl. TFROMV makes its tile the slices of the granted rows and columns, converted to the
accumulator's format, with zeros elsewhere. TREL empties the latch. None of them touches memory. It is said for the pairings of
classes that R197 permits and for flags that are not enabled in fs. -/
def Obligations.MatrixResults : Prop :=
  (∀ (s s1 : State) (u : UnitKind) (c slot : Nat) (g : Group) (e : MEntry) (rest : List MEntry), MatrixRun s s1 u c slot g e rest →
    let ends (t : State) (g' : Group) : Prop :=
      exec (.arbiterDecision c u) s = .next t ∧ t.group? c slot = some g'
        ∧ g'.que.mq = { e with begun := true, done := some { flags := 0, xreg := none } } :: rest
        ∧ g'.fil.slices = g.fil.slices ∧ g'.fil.masks = g.fil.masks ∧ g'.sca = g.sca ∧ g'.vec = g.vec
    (∀ n : BitVec 2, e.instr = .tzero n →
        ∃ t g', ends t g' ∧ t.mem = s.mem ∧ ∀ m i j, i < 65536 → j < 65536 → g'.tile m i j = if m = n.toNat then 0 else g.tile m i j)
      ∧ ∀ (v : BitVec 6) (x : BitVec 5) (n : BitVec 2) (r : BitVec 1) (fresh : Bool) (p : List Nat × Work),
          e.instr = (if fresh then .tmmaOvr v x n r else .tmma v x n r) → (r = 0 ∨ g.fil.latch = none) →
          gfAcc e.gf = 2 → vtSat e.vt = false → grantOf e.gk ≠ 0 → (∀ i j, g.tile n.toNat i j < 2 ^ 32) →
          let me : MatrixEnv := { core := c, slot := slot, e := e, ctx := ctxOf s1 c slot g }
          let start := vtBase e.vt + v.toNat * me.w
          start + grantOf e.gk * me.w ≤ min g.idn.alloc 768 →
          readBox me { s := s1, g := g, flags := 0, xreg := none, pend := [], rows := [], view := none, upset := none } true
            (inputRows me me.kv me.n me.nv) false = .ok p →
          ∃ t g', ends t g' ∧ ∀ m i j, i < 65536 → j < 65536 →
            (m = n.toNat → i < validOf e.gm → j < validOf e.gn →
              g'.tile m i j = (BitVec.ofInt 32 ((if fresh then 0 else (g.tile m i j : Int)) + productSum g e start p.1 i j)).toNat)
            ∧ (m ≠ n.toNat ∨ validOf e.gm ≤ i ∨ validOf e.gn ≤ j → g'.tile m i j = g.tile m i j))
    ∧ (∀ (s s1 : State) (u : UnitKind) (c slot : Nat) (g : Group) (e : MEntry) (rest : List MEntry) (p : List Nat × Work),
    MatrixHead s s1 u c slot g e rest → grantOf e.gm ≠ 0 → validOf e.gm ≤ grantOf e.gm → pairOk (gfIfmt e.gf) (gfAcc e.gf) = true →
    let me := (loneEntry s1 c slot g e).1
    let w := (loneEntry s1 c slot g e).2
    let acc := 8 * accBytes (gfAcc e.gf)
    (∀ v x, e.instr = .tlda v x → grantOf e.gk ≠ 0 → validOf e.gk ≤ grantOf e.gk →
        let start := vtBase e.vt + v.toNat * me.w
        start + grantOf e.gk * me.w ≤ min g.idn.alloc 768 → readBox me w true (inputRows me me.mv me.k me.kv) false = .ok p →
        ∃ t g', endsMatrix s t u c slot g' g e rest 0 ∧ t.mem = p.2.s.mem ∧ g'.fil.tiles = g.fil.tiles
          ∧ slicesBecome g' g start me.w (min (grantOf e.gm) e.vl) (grantOf e.gk) fun i k =>
              if i < validOf e.gm ∧ k < validOf e.gk then boxVal p.1 (4 * me.w) i k else 0)
      ∧ (grantOf e.gn ≠ 0 → validOf e.gn ≤ grantOf e.gn →
          (∀ n a b, e.instr = .tldacc n a b → readBox me w false (cRows me (b.toNat != 0) acc) false = .ok p →
              ∃ t g', endsMatrix s t u c slot g' g e rest 0 ∧ t.mem = p.2.s.mem ∧ g'.fil.slices = g.fil.slices
                ∧ tileBecomes g' g n.toNat fun i j => if i < validOf e.gm ∧ j < validOf e.gn then boxVal p.1 acc i j else 0)
          ∧ ∀ n a, e.instr = .trestore n a → readBox me w false [{ addr := e.x, off := 0, len := 512 }] false = .ok p →
              (headerOk (p.1.getD 0 0) (gfAcc e.gf) (grantOf e.gm) (grantOf e.gn) = none →
                ∃ t g', exec (.arbiterDecision c u) s = .next t ∧ t.group? c slot = some g' ∧ g'.fil = g.fil ∧ t.mem = s.mem
                  ∧ g'.trp.pending = g.trp.pending ++ [{ serial := e.serial, code := 0x0F, src := 2, pc := e.pc, addr := 0, elem := 0 }])
              ∧ ∀ row mv nv q, headerOk (p.1.getD 0 0) (gfAcc e.gf) (grantOf e.gm) (grantOf e.gn) = some (row, mv, nv) →
                  readBox me p.2 false (boxRows (e.x + 64) (fun i => (BitVec.ofNat 64 (i * row * (acc / 8)), 0)) mv (nv * acc)) false = .ok q →
                  ∃ t g', endsMatrix s t u c slot g' g e rest 0 ∧ t.mem = q.2.s.mem ∧ g'.fil.slices = g.fil.slices
                    ∧ tileBecomes g' g n.toNat fun i j => if i < mv ∧ j < nv then boxVal q.1 acc i j else 0))
    ∧ (∀ (s s1 : State) (u : UnitKind) (c slot : Nat) (g : Group) (e : MEntry) (rest : List MEntry) (v : BitVec 6) (x : BitVec 5) (n : BitVec 2)
    (r : BitVec 1) (fresh : Bool) (p : List Nat × Work), MatrixRun s s1 u c slot g e rest →
    e.instr = (if fresh then .tmmaOvr v x n r else .tmma v x n r) → grantOf e.gk ≠ 0 → g.fil.badLatch = [] →
    let me := (loneEntry s1 c slot g e).1
    let start := vtBase e.vt + v.toNat * me.w
    let suits (l : Latch) : Bool :=
      decide (r = 1 ∧ l.start = start ∧ l.gm = grantOf e.gm ∧ l.gk = grantOf e.gk ∧ l.ifmt = gfIfmt e.gf)
    let fromSlices (i k : Nat) : Nat := g.slices i (start + k * me.w) me.w
    let a (i k : Nat) : Nat := match g.fil.latch with
      | some l => if suits l then FMap.get 0 l.vals (i * 65536 + k) else fromSlices i k
      | none => fromSlices i k
    let value (i j : Nat) : Nat × FlagSet := blockwise e (a i) (fun k => boxVal p.1 (4 * me.w) k j) (if fresh then none else some (g.tile n.toNat i j))
    let fl := flagsOver (validOf e.gm) (validOf e.gn) fun i j => (value i j).2
    start + grantOf e.gk * me.w ≤ min g.idn.alloc 768 →
    readBox me (loneEntry s1 c slot g e).2 true (inputRows me me.kv me.n me.nv) false = .ok p → g.stops fl = false →
    ∃ t g', endsMatrix s t u c slot g' g e rest fl ∧ t.mem = p.2.s.mem ∧ g'.fil.slices = g.fil.slices
      ∧ tileBecomes g' g n.toNat (fun i j => if i < validOf e.gm ∧ j < validOf e.gn then (value i j).1 else g.tile n.toNat i j)
      ∧ (r = 1 → ∃ l, g'.fil.latch = some l ∧ suits l = true ∧ ∀ i k, i < grantOf e.gm → k < grantOf e.gk → FMap.get 0 l.vals (i * 65536 + k) = a i k)
      ∧ (r = 0 → g'.fil.latch = none))
    ∧ (∀ (s s1 : State) (u : UnitKind) (c slot : Nat) (g : Group) (e : MEntry) (rest : List MEntry), MatrixRun s s1 u c slot g e rest →
    s.pace = .prompt → Safe s → Settled s →
    let ctx := ctxOf s1 c slot g
    let m := validOf e.gm
    let n := validOf e.gn
    let stores (vals : List (Word × Nat × Nat × Nat)) (fl : FlagSet) : Prop :=
      (∀ v ∈ vals, accessFault (spans s1 ctx .store v.1 (bytesOf v.2.1 v.2.2.1)) = none) → g.stops fl = false →
      ∃ t g', endsMatrix s t u c slot g' g e rest fl ∧ g'.fil = g.fil ∧ bitsStand s1 ctx t.mem vals
    (∀ k a b f, e.instr = .tstacc k a b f → (if gfAcc e.gf = 2 then f.toNat ≤ 1 ∨ (7 ≤ f.toNat ∧ f.toNat ≤ 10) else f.toNat ≤ 6) →
        let w := (formatClass f.toNat).2
        let value (i j : Nat) : Nat × FlagSet := tileValue e (formatClass f.toNat).1 w (g.tile k.toNat i j)
        let at_ (i j : Nat) : Word × Nat :=
          if b = 0 then
            let bit := i * (grantOf e.gn * (4 * w)) % 8 + j * (4 * w)
            (e.x + BitVec.ofNat 64 (i * (grantOf e.gn * (4 * w)) / 8) + BitVec.ofNat 64 (bit / 8), bit % 8)
          else (e.x + BitVec.ofNat 64 i * e.y + BitVec.ofNat 64 (j * (4 * w) / 8), j * (4 * w) % 8)
        stores ((List.range m).flatMap fun i => (List.range n).map fun j => ((at_ i j).1, (at_ i j).2, 4 * w, (value i j).1))
          (flagsOver m n fun i j => (value i j).2))
      ∧ ∀ k a, e.instr = .tsave k a →
          let size := accBytes (gfAcc e.gf)
          let gm := grantOf e.gm
          let gn := grantOf e.gn
          let half (x : Nat) : List Byte := toBytes 2 x
          let header := half gm ++ half gn ++ half (grantOf e.gk) ++ half m ++ half n ++ half (validOf e.gk)
            ++ toBytes 1 (gfIfmt e.gf) ++ toBytes 1 (gfAcc e.gf)
            ++ toBytes 1 (gfPart e.gf + (if gfNarrowed e.gf then 4 else 0) + (if gfHonoured e.gf then 8 else 0)) ++ toBytes 1 k.toNat
            ++ toBytes 4 (gm * gn) ++ toBytes 4 (gm * gn * size) ++ toBytes 40 0
          let image := header ++ (List.range gm).flatMap fun i => (List.range gn).flatMap fun j => toBytes size (g.tile k.toNat i j)
          stores [(e.x, 0, 8 * image.length, leBytes image)] 0)
    ∧ (∀ (s s1 : State) (u : UnitKind) (c slot : Nat) (g : Group) (e : MEntry) (rest : List MEntry), MatrixHead s s1 u c slot g e rest →
    let m := grantOf e.gm
    let n := grantOf e.gn
    let pairs (cls : Nat) : Prop := if gfAcc e.gf = 2 then cls ≤ 1 else 2 ≤ cls
    (e.instr = .trel → (m = 0 ∨ pairOk (gfIfmt e.gf) (gfAcc e.gf) = true) →
        ∃ t g', endsMatrix s t u c slot g' g e rest 0 ∧ t.mem = s.mem ∧ g'.fil.slices = g.fil.slices ∧ g'.fil.tiles = g.fil.tiles
          ∧ g'.fil.latch = none)
      ∧ (MatrixRun s s1 u c slot g e rest →
          (∀ k v, e.instr = .ttov k v → pairs (vtDcls e.vt) →
            let w := vtEwd e.vt
            let start := vtBase e.vt + v.toNat * w
            let value (i j : Nat) : Nat × FlagSet := tileValue e (vtDcls e.vt) w (g.tile k.toNat i j)
            let fl := flagsOver (min m e.vl) n fun i j => (value i j).2
            start + n * w ≤ min g.idn.alloc 768 → g.stops fl = false →
            ∃ t g', endsMatrix s t u c slot g' g e rest fl ∧ t.mem = s.mem ∧ g'.fil.tiles = g.fil.tiles
              ∧ slicesBecome g' g start w (min m e.vl) n fun i j => (value i j).1)
          ∧ ∀ k v, e.instr = .tfromv k v → pairs (vtScls e.vt) →
            let w := vtEws e.vt
            let start := vtBase e.vt + v.toNat * w
            let acc : Nat × Nat := if gfAcc e.gf = 2 then (0, 8) else if gfAcc e.gf = 0 then (2, 8) else (2, 16)
            let value (i j : Nat) : Nat × FlagSet :=
              narrow (envOf e.vt) acc.1 acc.2 (extend (envOf e.vt) (vtScls e.vt) w (g.slices i (start + j * w) w))
            let fl := flagsOver m n fun i j => (value i j).2
            start + n * w ≤ min g.idn.alloc 768 → g.stops fl = false →
            ∃ t g', endsMatrix s t u c slot g' g e rest fl ∧ t.mem = s.mem ∧ g'.fil.slices = g.fil.slices
              ∧ tileBecomes g' g k.toNat fun i j => if i < m ∧ j < n then (value i j).1 else 0))
end

