-- ==== Sys2Proof/Laws/Map.lean ====
section
/-! SUPPORT. Finite maps: what a read gives after a write, and that a write keeps the canonical form. -/

namespace Sys2Proof.Machine

variable {α : Type}

@[simp] theorem FMap.get_nil (d : α) (k : Nat) : FMap.get d [] k = d := rfl

/-- A read of a key just put gives the value put. -/
@[simp] theorem FMap.get_put_self (d : α) (m : FMap α) (k : Nat) (v : α) : FMap.get d (FMap.put m k v) k = v := by
  induction m with
  | nil => simp [FMap.put, FMap.get]
  | cons e m ih =>
    obtain ⟨k', v'⟩ := e
    simp only [FMap.put]
    split
    · simp [FMap.get]
    · split
      · simp [FMap.get]
      · simp_all [FMap.get]

/-- The later of two puts at a key stands. -/
@[simp] theorem FMap.put_put (m : FMap α) (k : Nat) (v w : α) : FMap.put (FMap.put m k w) k v = FMap.put m k v := by
  induction m with
  | nil => simp [FMap.put]
  | cons e m ih =>
    obtain ⟨k', v'⟩ := e
    simp only [FMap.put]
    split
    · simp [FMap.put]
    · split
      · simp [FMap.put]
      · simp_all [FMap.put]

/-- A read of another key is not affected by a put. -/
theorem FMap.get_put_ne (d : α) (m : FMap α) {k j : Nat} (v : α) (h : j ≠ k) :
    FMap.get d (FMap.put m k v) j = FMap.get d m j := by
  induction m with
  | nil => simp [FMap.put, FMap.get, h]
  | cons e m ih =>
    obtain ⟨k', v'⟩ := e
    simp only [FMap.put]
    split
    · rename_i hk; simp only [beq_iff_eq] at hk; subst hk; simp [FMap.get, h]
    · split
      · simp [FMap.get, h]
      · simp [FMap.get, ih]

/-- A read of another key is not affected by an erasure. -/
theorem FMap.get_erase_ne (d : α) (m : FMap α) {k j : Nat} (h : j ≠ k) :
    FMap.get d (FMap.erase m k) j = FMap.get d m j := by
  induction m with
  | nil => rfl
  | cons e m ih =>
    obtain ⟨k', v'⟩ := e
    simp only [FMap.erase]
    split
    · rename_i hk; simp only [beq_iff_eq] at hk; subst hk; simp [FMap.get, h]
    · simp [FMap.get, ih]

variable [DecidableEq α]

/-- A read of another key is not affected by a write. -/
theorem FMap.get_set_ne (d : α) (m : FMap α) {k j : Nat} (v : α) (h : j ≠ k) :
    FMap.get d (FMap.set d m k v) j = FMap.get d m j := by
  unfold FMap.set; split
  · exact FMap.get_erase_ne d m h
  · exact FMap.get_put_ne d m v h

/-- A read of a key just written gives the value written, where that is not the unlisted value. -/
theorem FMap.get_set_of_ne (d : α) (m : FMap α) (k : Nat) {v : α} (h : v ≠ d) : FMap.get d (FMap.set d m k v) k = v := by
  simp [FMap.set, h]

theorem FMap.wfFrom_mono (d : α) {lo hi : Nat} (m : FMap α) (h : lo ≤ hi) (w : FMap.wfFrom d hi m = true) :
    FMap.wfFrom d lo m = true := by
  cases m with
  | nil => rfl
  | cons e m =>
    obtain ⟨k, v⟩ := e
    simp only [FMap.wfFrom, Bool.and_eq_true, decide_eq_true_eq] at w ⊢
    exact ⟨⟨by omega, w.1.2⟩, w.2⟩

/-- A key below a canonical list reads as unlisted. -/
theorem FMap.get_below (d : α) {lo k : Nat} (m : FMap α) (w : FMap.wfFrom d lo m = true) (h : k < lo) :
    FMap.get d m k = d := by
  induction m generalizing lo with
  | nil => rfl
  | cons e m ih =>
    obtain ⟨k', v'⟩ := e
    simp only [FMap.wfFrom, Bool.and_eq_true, decide_eq_true_eq] at w
    have hk : (k == k') = false := by simp; omega
    simp only [FMap.get, hk]
    exact ih w.2 (by omega)

theorem FMap.get_erase_self (d : α) {lo : Nat} (m : FMap α) (k : Nat) (w : FMap.wfFrom d lo m = true) :
    FMap.get d (FMap.erase m k) k = d := by
  induction m generalizing lo with
  | nil => rfl
  | cons e m ih =>
    obtain ⟨k', v'⟩ := e
    simp only [FMap.wfFrom, Bool.and_eq_true, decide_eq_true_eq] at w
    simp only [FMap.erase]
    split
    · rename_i hk; simp only [beq_iff_eq] at hk; exact FMap.get_below d m w.2 (by omega)
    · rename_i hk; simp only [FMap.get, hk]; exact ih w.2

/-- A read of a key just written gives the value written. -/
theorem FMap.get_set_self (d : α) (m : FMap α) (k : Nat) (v : α) (w : FMap.wf d m = true) :
    FMap.get d (FMap.set d m k v) k = v := by
  unfold FMap.set; split
  · rename_i h; subst h; exact FMap.get_erase_self v m k w
  · simp

theorem FMap.wfFrom_erase (d : α) {lo : Nat} (m : FMap α) (k : Nat) (w : FMap.wfFrom d lo m = true) :
    FMap.wfFrom d lo (FMap.erase m k) = true := by
  induction m generalizing lo with
  | nil => rfl
  | cons e m ih =>
    obtain ⟨k', v'⟩ := e
    simp only [FMap.wfFrom, Bool.and_eq_true, decide_eq_true_eq] at w
    simp only [FMap.erase]
    split
    · exact FMap.wfFrom_mono d m (by omega) w.2
    · simp only [FMap.wfFrom, Bool.and_eq_true, decide_eq_true_eq]; exact ⟨w.1, ih w.2⟩

theorem FMap.wfFrom_put (d : α) {lo : Nat} (m : FMap α) {k : Nat} {v : α} (hv : v ≠ d) (hk : lo ≤ k)
    (w : FMap.wfFrom d lo m = true) : FMap.wfFrom d lo (FMap.put m k v) = true := by
  induction m generalizing lo with
  | nil => simp [FMap.put, FMap.wfFrom, hv, hk]
  | cons e m ih =>
    obtain ⟨k', v'⟩ := e
    simp only [FMap.wfFrom, Bool.and_eq_true, decide_eq_true_eq] at w
    simp only [FMap.put]
    split
    · rename_i h; simp only [beq_iff_eq] at h; subst h
      simp only [FMap.wfFrom, Bool.and_eq_true, decide_eq_true_eq]; exact ⟨⟨hk, hv⟩, w.2⟩
    · split
      · simp only [FMap.wfFrom, Bool.and_eq_true, decide_eq_true_eq]
        exact ⟨⟨hk, hv⟩, ⟨by omega, w.1.2⟩, w.2⟩
      · rename_i h1 h2
        simp only [beq_iff_eq] at h1
        simp only [FMap.wfFrom, Bool.and_eq_true, decide_eq_true_eq]
        exact ⟨w.1, ih (by omega) w.2⟩

/-- A write keeps the canonical form. -/
theorem FMap.wf_set (d : α) (m : FMap α) (k : Nat) (v : α) (w : FMap.wf d m = true) : FMap.wf d (FMap.set d m k v) = true := by
  unfold FMap.set; split
  · exact FMap.wfFrom_erase d m k w
  · rename_i h; exact FMap.wfFrom_put d m h (Nat.zero_le k) w

end Sys2Proof.Machine
end

