-- ==== Sys2Proof/Laws/Memory.lean ====
section
/-! SUPPORT. Memory: every write keeps the canonical form, a read after a write gives the byte written, and a write leaves
every other byte alone. -/

namespace Sys2Proof.Machine

theorem Memory.wfFrom_mono {lo hi : Nat} (m : List Host.Cell) (h : lo ≤ hi) (w : Memory.wfFrom hi m = true) :
    Memory.wfFrom lo m = true := by
  cases m with
  | nil => rfl
  | cons e m =>
    obtain ⟨k, v⟩ := e
    simp only [Memory.wfFrom, Bool.and_eq_true, decide_eq_true_eq] at w ⊢
    exact ⟨⟨by omega, w.1.2⟩, w.2⟩

theorem Memory.get_below {lo k : Nat} (d : Byte) (m : List Host.Cell) (w : Memory.wfFrom lo m = true) (h : k < lo) :
    FMap.get d m k = d := by
  induction m generalizing lo with
  | nil => rfl
  | cons e m ih =>
    obtain ⟨k', v'⟩ := e
    simp only [Memory.wfFrom, Bool.and_eq_true, decide_eq_true_eq] at w
    have hk : (k == k') = false := by simp; omega
    simp only [FMap.get, hk]
    exact ih w.2 (by omega)

theorem Memory.wfFrom_erase {lo : Nat} (m : List Host.Cell) (k : Nat) (w : Memory.wfFrom lo m = true) :
    Memory.wfFrom lo (FMap.erase m k) = true := by
  induction m generalizing lo with
  | nil => rfl
  | cons e m ih =>
    obtain ⟨k', v'⟩ := e
    simp only [Memory.wfFrom, Bool.and_eq_true, decide_eq_true_eq] at w
    simp only [FMap.erase]
    split
    · exact Memory.wfFrom_mono m (by omega) w.2
    · simp only [Memory.wfFrom, Bool.and_eq_true, decide_eq_true_eq]; exact ⟨w.1, ih w.2⟩

theorem Memory.wfFrom_put {lo : Nat} (m : List Host.Cell) {k : Nat} {v : Byte} (hv : v ≠ bornByte k) (hk : lo ≤ k)
    (w : Memory.wfFrom lo m = true) : Memory.wfFrom lo (FMap.put m k v) = true := by
  induction m generalizing lo with
  | nil => simp [FMap.put, Memory.wfFrom, hv, hk]
  | cons e m ih =>
    obtain ⟨k', v'⟩ := e
    simp only [Memory.wfFrom, Bool.and_eq_true, decide_eq_true_eq] at w
    simp only [FMap.put]
    split
    · rename_i h; simp only [beq_iff_eq] at h; subst h
      simp only [Memory.wfFrom, Bool.and_eq_true, decide_eq_true_eq]; exact ⟨⟨hk, hv⟩, w.2⟩
    · split
      · simp only [Memory.wfFrom, Bool.and_eq_true, decide_eq_true_eq]
        exact ⟨⟨hk, hv⟩, ⟨by omega, w.1.2⟩, w.2⟩
      · rename_i h1 h2
        simp only [beq_iff_eq] at h1
        simp only [Memory.wfFrom, Bool.and_eq_true, decide_eq_true_eq]
        exact ⟨w.1, ih (by omega) w.2⟩

/-- A byte written keeps the canonical form. -/
theorem memSet_wf (m : List Host.Cell) (k : Nat) (v : Byte) (w : Memory.wf m = true) : Memory.wf (memSet m k v) = true := by
  unfold memSet FMap.set; split
  · exact Memory.wfFrom_erase m k w
  · rename_i h; exact Memory.wfFrom_put m h (Nat.zero_le k) w

/-- Bytes written keep the canonical form. -/
theorem memWrite_wf (m cs : List Host.Cell) (w : Memory.wf m = true) : Memory.wf (memWrite m cs) = true := by
  induction cs generalizing m with
  | nil => exact w
  | cons c cs ih => exact ih _ (memSet_wf m c.1 c.2 w)

theorem Memory.wfFrom_filter (p : Host.Cell → Bool) {lo : Nat} (m : List Host.Cell) (w : Memory.wfFrom lo m = true) :
    Memory.wfFrom lo (m.filter p) = true := by
  induction m generalizing lo with
  | nil => rfl
  | cons e m ih =>
    obtain ⟨k, v⟩ := e
    simp only [Memory.wfFrom, Bool.and_eq_true, decide_eq_true_eq] at w
    rw [List.filter_cons]
    split
    · simp only [Memory.wfFrom, Bool.and_eq_true, decide_eq_true_eq]; exact ⟨w.1, ih w.2⟩
    · exact Memory.wfFrom_mono _ (by omega) (ih w.2)

/-- Bytes dropped keep the canonical form. -/
theorem Memory.wf_filter (p : Host.Cell → Bool) (m : List Host.Cell) (w : Memory.wf m = true) :
    Memory.wf (m.filter p) = true := Memory.wfFrom_filter p m w

/-- A byte written reads as written. -/
theorem memGet_memSet_self (m : List Host.Cell) (k : Nat) (v : Byte) (w : Memory.wf m = true) : memGet (memSet m k v) k = v := by
  unfold memGet memSet FMap.set; split
  · rename_i h
    subst h
    generalize hm : FMap.erase m k = e
    have : Memory.wf m = true → FMap.get (bornByte k) (FMap.erase m k) k = bornByte k := by
      unfold Memory.wf
      generalize (0 : Nat) = lo
      intro w
      induction m generalizing lo e with
      | nil => rfl
      | cons c m ih =>
        obtain ⟨k', v'⟩ := c
        simp only [Memory.wfFrom, Bool.and_eq_true, decide_eq_true_eq] at w
        simp only [FMap.erase]
        split
        · rename_i hk; simp only [beq_iff_eq] at hk
          exact Memory.get_below _ m w.2 (by omega)
        · rename_i hk; simp only [FMap.get, hk]
          exact ih (Memory.wfFrom_mono m (Nat.zero_le _) w.2) _ rfl _ w.2
    rw [← hm]; exact this w
  · simp

/-- A byte written leaves every other byte alone. -/
theorem memGet_memSet_ne (m : List Host.Cell) {k j : Nat} (v : Byte) (h : j ≠ k) : memGet (memSet m k v) j = memGet m j := by
  unfold memGet memSet FMap.set; split
  · exact FMap.get_erase_ne _ m h
  · exact FMap.get_put_ne _ m v h

/-- Cells written leave every byte outside them alone. -/
theorem memGet_memWrite_ne (m cs : List Host.Cell) {j : Nat} (h : ∀ c ∈ cs, c.1 ≠ j) : memGet (memWrite m cs) j = memGet m j := by
  induction cs generalizing m with
  | nil => rfl
  | cons c cs ih =>
    obtain ⟨k, v⟩ := c
    simp only [memWrite]
    rw [ih _ fun c hc => h c (by simp [hc])]
    exact memGet_memSet_ne m v fun e => h (k, v) (by simp) e.symm

theorem freshSectors_mem (s : State) (keys : List Nat) (xs : List Nat) : (freshSectors s keys xs).mem = s.mem := by
  induction xs generalizing s with
  | nil => rfl
  | cons x xs ih => simp only [freshSectors]; split <;> rw [ih]

/-- A write of cells changes memory at the cells only. -/
@[simp] theorem writePartly_mem (s : State) (cs : List Host.Cell) (whole : List Nat) :
    (writePartly s cs whole).mem = memWrite s.mem cs := by
  unfold writePartly; rw [freshSectors_mem]

@[simp] theorem writeCells_mem (s : State) (cs : List Host.Cell) : (writeCells s cs).mem = memWrite s.mem cs :=
  writePartly_mem s cs _

theorem writeCells_wf (s : State) (cs : List Host.Cell) (w : Memory.wf s.mem = true) : Memory.wf (writeCells s cs).mem = true := by
  rw [writeCells_mem]; exact memWrite_wf _ _ w

theorem writeBytes_wf (s : State) (k : Nat) (bs : List Byte) (w : Memory.wf s.mem = true) :
    Memory.wf (writeBytes s k bs).mem = true := writeCells_wf s _ w

theorem writeNat_wf (s : State) (k n v : Nat) (w : Memory.wf s.mem = true) : Memory.wf (writeNat s k n v).mem = true :=
  writeCells_wf s _ w

theorem writeSector_wf (s : State) (x : Nat) (data : BitVec 384) (delta : BitVec 32) (bad : Bool) (w : Memory.wf s.mem = true) :
    Memory.wf (writeSector s x data delta bad).mem = true := memWrite_wf _ _ w

end Sys2Proof.Machine
end

