-- ==== Sys2Proof/Laws/State.lean ====
section
/-! SUPPORT. One lemma per field per update of the named operations over groups and states. -/

namespace Sys2Proof.Machine

@[simp] theorem Group.setPc_vec (g : Group) (pc : Word) : (g.setPc pc).vec = g.vec := rfl
@[simp] theorem Group.setPc_gra (g : Group) (pc : Word) : (g.setPc pc).gra = g.gra := rfl
@[simp] theorem Group.setPc_ord (g : Group) (pc : Word) : (g.setPc pc).ord = g.ord := rfl
@[simp] theorem Group.setPc_trp (g : Group) (pc : Word) : (g.setPc pc).trp = g.trp := rfl
@[simp] theorem Group.setPc_idn (g : Group) (pc : Word) : (g.setPc pc).idn = g.idn := rfl
@[simp] theorem Group.setPc_fil (g : Group) (pc : Word) : (g.setPc pc).fil = g.fil := rfl
@[simp] theorem Group.setPc_sto (g : Group) (pc : Word) : (g.setPc pc).sto = g.sto := rfl
@[simp] theorem Group.setPc_que (g : Group) (pc : Word) : (g.setPc pc).que = g.que := rfl
@[simp] theorem Group.setPc_sca_x (g : Group) (pc : Word) : (g.setPc pc).sca.x = g.sca.x := rfl
@[simp] theorem Group.setPc_sca_pc (g : Group) (pc : Word) : (g.setPc pc).sca.pc = pc := rfl
@[simp] theorem Group.setPc_sca_level (g : Group) (pc : Word) : (g.setPc pc).sca.level = g.sca.level := rfl
@[simp] theorem Group.setPc_sca_status (g : Group) (pc : Word) : (g.setPc pc).sca.status = g.sca.status := rfl
@[simp] theorem Group.setPc_sca_openWords (g : Group) (pc : Word) : (g.setPc pc).sca.openWords = g.sca.openWords := rfl
@[simp] theorem Group.setPc_sca_openPc (g : Group) (pc : Word) : (g.setPc pc).sca.openPc = g.sca.openPc := rfl
@[simp] theorem Group.setPc_sca_latch (g : Group) (pc : Word) : (g.setPc pc).sca.latch = g.sca.latch := rfl
@[simp] theorem Group.setPc_sca_tags (g : Group) (pc : Word) : (g.setPc pc).sca.tags = g.sca.tags := rfl
@[simp] theorem Group.setPc_sca_serial (g : Group) (pc : Word) : (g.setPc pc).sca.serial = g.sca.serial := rfl
@[simp] theorem Group.setPc_sca_yieldUntil (g : Group) (pc : Word) : (g.setPc pc).sca.yieldUntil = g.sca.yieldUntil := rfl

@[simp] theorem Group.advance_vec (g : Group) : (g.advance).vec = g.vec := rfl
@[simp] theorem Group.advance_gra (g : Group) : (g.advance).gra = g.gra := rfl
@[simp] theorem Group.advance_ord (g : Group) : (g.advance).ord = g.ord := rfl
@[simp] theorem Group.advance_trp (g : Group) : (g.advance).trp = g.trp := rfl
@[simp] theorem Group.advance_idn (g : Group) : (g.advance).idn = g.idn := rfl
@[simp] theorem Group.advance_fil (g : Group) : (g.advance).fil = g.fil := rfl
@[simp] theorem Group.advance_sto (g : Group) : (g.advance).sto = g.sto := rfl
@[simp] theorem Group.advance_que (g : Group) : (g.advance).que = g.que := rfl
@[simp] theorem Group.advance_sca_x (g : Group) : (g.advance).sca.x = g.sca.x := rfl
@[simp] theorem Group.advance_sca_pc (g : Group) : (g.advance).sca.pc = g.sca.pc + 4 := rfl
@[simp] theorem Group.advance_sca_level (g : Group) : (g.advance).sca.level = g.sca.level := rfl
@[simp] theorem Group.advance_sca_status (g : Group) : (g.advance).sca.status = g.sca.status := rfl
@[simp] theorem Group.advance_sca_openWords (g : Group) : (g.advance).sca.openWords = g.sca.openWords := rfl
@[simp] theorem Group.advance_sca_openPc (g : Group) : (g.advance).sca.openPc = g.sca.openPc := rfl
@[simp] theorem Group.advance_sca_latch (g : Group) : (g.advance).sca.latch = g.sca.latch := rfl
@[simp] theorem Group.advance_sca_tags (g : Group) : (g.advance).sca.tags = g.sca.tags := rfl
@[simp] theorem Group.advance_sca_serial (g : Group) : (g.advance).sca.serial = g.sca.serial := rfl
@[simp] theorem Group.advance_sca_yieldUntil (g : Group) : (g.advance).sca.yieldUntil = g.sca.yieldUntil := rfl

@[simp] theorem Group.setStatus_vec (g : Group) (st : Status) : (g.setStatus st).vec = g.vec := rfl
@[simp] theorem Group.setStatus_gra (g : Group) (st : Status) : (g.setStatus st).gra = g.gra := rfl
@[simp] theorem Group.setStatus_ord (g : Group) (st : Status) : (g.setStatus st).ord = g.ord := rfl
@[simp] theorem Group.setStatus_trp (g : Group) (st : Status) : (g.setStatus st).trp = g.trp := rfl
@[simp] theorem Group.setStatus_idn (g : Group) (st : Status) : (g.setStatus st).idn = g.idn := rfl
@[simp] theorem Group.setStatus_fil (g : Group) (st : Status) : (g.setStatus st).fil = g.fil := rfl
@[simp] theorem Group.setStatus_sto (g : Group) (st : Status) : (g.setStatus st).sto = g.sto := rfl
@[simp] theorem Group.setStatus_que (g : Group) (st : Status) : (g.setStatus st).que = g.que := rfl
@[simp] theorem Group.setStatus_sca_x (g : Group) (st : Status) : (g.setStatus st).sca.x = g.sca.x := rfl
@[simp] theorem Group.setStatus_sca_pc (g : Group) (st : Status) : (g.setStatus st).sca.pc = g.sca.pc := rfl
@[simp] theorem Group.setStatus_sca_level (g : Group) (st : Status) : (g.setStatus st).sca.level = g.sca.level := rfl
@[simp] theorem Group.setStatus_sca_status (g : Group) (st : Status) : (g.setStatus st).sca.status = st := rfl
@[simp] theorem Group.setStatus_sca_openWords (g : Group) (st : Status) : (g.setStatus st).sca.openWords = g.sca.openWords := rfl
@[simp] theorem Group.setStatus_sca_openPc (g : Group) (st : Status) : (g.setStatus st).sca.openPc = g.sca.openPc := rfl
@[simp] theorem Group.setStatus_sca_latch (g : Group) (st : Status) : (g.setStatus st).sca.latch = g.sca.latch := rfl
@[simp] theorem Group.setStatus_sca_tags (g : Group) (st : Status) : (g.setStatus st).sca.tags = g.sca.tags := rfl
@[simp] theorem Group.setStatus_sca_serial (g : Group) (st : Status) : (g.setStatus st).sca.serial = g.sca.serial := rfl
@[simp] theorem Group.setStatus_sca_yieldUntil (g : Group) (st : Status) : (g.setStatus st).sca.yieldUntil = g.sca.yieldUntil := rfl

@[simp] theorem Group.wait_vec (g : Group) (w : Wait) : (g.wait w).vec = g.vec := rfl
@[simp] theorem Group.wait_gra (g : Group) (w : Wait) : (g.wait w).gra = g.gra := rfl
@[simp] theorem Group.wait_ord (g : Group) (w : Wait) : (g.wait w).ord = g.ord := rfl
@[simp] theorem Group.wait_trp (g : Group) (w : Wait) : (g.wait w).trp = g.trp := rfl
@[simp] theorem Group.wait_idn (g : Group) (w : Wait) : (g.wait w).idn = g.idn := rfl
@[simp] theorem Group.wait_fil (g : Group) (w : Wait) : (g.wait w).fil = g.fil := rfl
@[simp] theorem Group.wait_sto (g : Group) (w : Wait) : (g.wait w).sto = g.sto := rfl
@[simp] theorem Group.wait_que (g : Group) (w : Wait) : (g.wait w).que = g.que := rfl
@[simp] theorem Group.wait_sca_x (g : Group) (w : Wait) : (g.wait w).sca.x = g.sca.x := rfl
@[simp] theorem Group.wait_sca_pc (g : Group) (w : Wait) : (g.wait w).sca.pc = g.sca.pc := rfl
@[simp] theorem Group.wait_sca_level (g : Group) (w : Wait) : (g.wait w).sca.level = g.sca.level := rfl
@[simp] theorem Group.wait_sca_status (g : Group) (w : Wait) : (g.wait w).sca.status = .waiting w := rfl
@[simp] theorem Group.wait_sca_openWords (g : Group) (w : Wait) : (g.wait w).sca.openWords = g.sca.openWords := rfl
@[simp] theorem Group.wait_sca_openPc (g : Group) (w : Wait) : (g.wait w).sca.openPc = g.sca.openPc := rfl
@[simp] theorem Group.wait_sca_latch (g : Group) (w : Wait) : (g.wait w).sca.latch = g.sca.latch := rfl
@[simp] theorem Group.wait_sca_tags (g : Group) (w : Wait) : (g.wait w).sca.tags = g.sca.tags := rfl
@[simp] theorem Group.wait_sca_serial (g : Group) (w : Wait) : (g.wait w).sca.serial = g.sca.serial := rfl
@[simp] theorem Group.wait_sca_yieldUntil (g : Group) (w : Wait) : (g.wait w).sca.yieldUntil = g.sca.yieldUntil := rfl

@[simp] theorem Group.run_vec (g : Group) : (g.run).vec = g.vec := rfl
@[simp] theorem Group.run_gra (g : Group) : (g.run).gra = g.gra := rfl
@[simp] theorem Group.run_ord (g : Group) : (g.run).ord = g.ord := rfl
@[simp] theorem Group.run_trp (g : Group) : (g.run).trp = g.trp := rfl
@[simp] theorem Group.run_idn (g : Group) : (g.run).idn = g.idn := rfl
@[simp] theorem Group.run_fil (g : Group) : (g.run).fil = g.fil := rfl
@[simp] theorem Group.run_sto (g : Group) : (g.run).sto = g.sto := rfl
@[simp] theorem Group.run_que (g : Group) : (g.run).que = g.que := rfl
@[simp] theorem Group.run_sca_x (g : Group) : (g.run).sca.x = g.sca.x := rfl
@[simp] theorem Group.run_sca_pc (g : Group) : (g.run).sca.pc = g.sca.pc := rfl
@[simp] theorem Group.run_sca_level (g : Group) : (g.run).sca.level = g.sca.level := rfl
@[simp] theorem Group.run_sca_status (g : Group) : (g.run).sca.status = .running := rfl
@[simp] theorem Group.run_sca_openWords (g : Group) : (g.run).sca.openWords = g.sca.openWords := rfl
@[simp] theorem Group.run_sca_openPc (g : Group) : (g.run).sca.openPc = g.sca.openPc := rfl
@[simp] theorem Group.run_sca_latch (g : Group) : (g.run).sca.latch = g.sca.latch := rfl
@[simp] theorem Group.run_sca_tags (g : Group) : (g.run).sca.tags = g.sca.tags := rfl
@[simp] theorem Group.run_sca_serial (g : Group) : (g.run).sca.serial = g.sca.serial := rfl
@[simp] theorem Group.run_sca_yieldUntil (g : Group) : (g.run).sca.yieldUntil = g.sca.yieldUntil := rfl

@[simp] theorem Group.latchEvent_vec (g : Group) (b : BitVec 3) : (g.latchEvent b).vec = g.vec := rfl
@[simp] theorem Group.latchEvent_gra (g : Group) (b : BitVec 3) : (g.latchEvent b).gra = g.gra := rfl
@[simp] theorem Group.latchEvent_ord (g : Group) (b : BitVec 3) : (g.latchEvent b).ord = g.ord := rfl
@[simp] theorem Group.latchEvent_trp (g : Group) (b : BitVec 3) : (g.latchEvent b).trp = g.trp := rfl
@[simp] theorem Group.latchEvent_idn (g : Group) (b : BitVec 3) : (g.latchEvent b).idn = g.idn := rfl
@[simp] theorem Group.latchEvent_fil (g : Group) (b : BitVec 3) : (g.latchEvent b).fil = g.fil := rfl
@[simp] theorem Group.latchEvent_sto (g : Group) (b : BitVec 3) : (g.latchEvent b).sto = g.sto := rfl
@[simp] theorem Group.latchEvent_que (g : Group) (b : BitVec 3) : (g.latchEvent b).que = g.que := rfl
@[simp] theorem Group.latchEvent_sca_x (g : Group) (b : BitVec 3) : (g.latchEvent b).sca.x = g.sca.x := rfl
@[simp] theorem Group.latchEvent_sca_pc (g : Group) (b : BitVec 3) : (g.latchEvent b).sca.pc = g.sca.pc := rfl
@[simp] theorem Group.latchEvent_sca_level (g : Group) (b : BitVec 3) : (g.latchEvent b).sca.level = g.sca.level := rfl
@[simp] theorem Group.latchEvent_sca_status (g : Group) (b : BitVec 3) : (g.latchEvent b).sca.status = g.sca.status := rfl
@[simp] theorem Group.latchEvent_sca_openWords (g : Group) (b : BitVec 3) : (g.latchEvent b).sca.openWords = g.sca.openWords := rfl
@[simp] theorem Group.latchEvent_sca_openPc (g : Group) (b : BitVec 3) : (g.latchEvent b).sca.openPc = g.sca.openPc := rfl
@[simp] theorem Group.latchEvent_sca_latch (g : Group) (b : BitVec 3) : (g.latchEvent b).sca.latch = g.sca.latch ||| b := rfl
@[simp] theorem Group.latchEvent_sca_tags (g : Group) (b : BitVec 3) : (g.latchEvent b).sca.tags = g.sca.tags := rfl
@[simp] theorem Group.latchEvent_sca_serial (g : Group) (b : BitVec 3) : (g.latchEvent b).sca.serial = g.sca.serial := rfl
@[simp] theorem Group.latchEvent_sca_yieldUntil (g : Group) (b : BitVec 3) : (g.latchEvent b).sca.yieldUntil = g.sca.yieldUntil := rfl

@[simp] theorem Group.fold_sca (g : Group) (f : BitVec 17) : (g.fold f).sca = g.sca := rfl
@[simp] theorem Group.fold_gra (g : Group) (f : BitVec 17) : (g.fold f).gra = g.gra := rfl
@[simp] theorem Group.fold_ord (g : Group) (f : BitVec 17) : (g.fold f).ord = g.ord := rfl
@[simp] theorem Group.fold_trp (g : Group) (f : BitVec 17) : (g.fold f).trp = g.trp := rfl
@[simp] theorem Group.fold_idn (g : Group) (f : BitVec 17) : (g.fold f).idn = g.idn := rfl
@[simp] theorem Group.fold_fil (g : Group) (f : BitVec 17) : (g.fold f).fil = g.fil := rfl
@[simp] theorem Group.fold_sto (g : Group) (f : BitVec 17) : (g.fold f).sto = g.sto := rfl
@[simp] theorem Group.fold_que (g : Group) (f : BitVec 17) : (g.fold f).que = g.que := rfl

@[simp] theorem Group.setMask_sca (g : Group) (m : Nat) (v : BitVec 1024) : (g.setMask m v).sca = g.sca := rfl
@[simp] theorem Group.setMask_vec (g : Group) (m : Nat) (v : BitVec 1024) : (g.setMask m v).vec = g.vec := rfl
@[simp] theorem Group.setMask_gra (g : Group) (m : Nat) (v : BitVec 1024) : (g.setMask m v).gra = g.gra := rfl
@[simp] theorem Group.setMask_ord (g : Group) (m : Nat) (v : BitVec 1024) : (g.setMask m v).ord = g.ord := rfl
@[simp] theorem Group.setMask_trp (g : Group) (m : Nat) (v : BitVec 1024) : (g.setMask m v).trp = g.trp := rfl
@[simp] theorem Group.setMask_idn (g : Group) (m : Nat) (v : BitVec 1024) : (g.setMask m v).idn = g.idn := rfl
@[simp] theorem Group.setMask_sto (g : Group) (m : Nat) (v : BitVec 1024) : (g.setMask m v).sto = g.sto := rfl
@[simp] theorem Group.setMask_que (g : Group) (m : Nat) (v : BitVec 1024) : (g.setMask m v).que = g.que := rfl

@[simp] theorem Group.setSlices_sca (g : Group) (e st w v : Nat) : (g.setSlices e st w v).sca = g.sca := rfl
@[simp] theorem Group.setSlices_vec (g : Group) (e st w v : Nat) : (g.setSlices e st w v).vec = g.vec := rfl
@[simp] theorem Group.setSlices_gra (g : Group) (e st w v : Nat) : (g.setSlices e st w v).gra = g.gra := rfl
@[simp] theorem Group.setSlices_ord (g : Group) (e st w v : Nat) : (g.setSlices e st w v).ord = g.ord := rfl
@[simp] theorem Group.setSlices_trp (g : Group) (e st w v : Nat) : (g.setSlices e st w v).trp = g.trp := rfl
@[simp] theorem Group.setSlices_idn (g : Group) (e st w v : Nat) : (g.setSlices e st w v).idn = g.idn := rfl
@[simp] theorem Group.setSlices_sto (g : Group) (e st w v : Nat) : (g.setSlices e st w v).sto = g.sto := rfl
@[simp] theorem Group.setSlices_que (g : Group) (e st w v : Nat) : (g.setSlices e st w v).que = g.que := rfl

@[simp] theorem Group.setPort_sca (g : Group) (q : Nat) (p : Port) : (g.setPort q p).sca = g.sca := rfl
@[simp] theorem Group.setPort_vec (g : Group) (q : Nat) (p : Port) : (g.setPort q p).vec = g.vec := rfl
@[simp] theorem Group.setPort_gra (g : Group) (q : Nat) (p : Port) : (g.setPort q p).gra = g.gra := rfl
@[simp] theorem Group.setPort_ord (g : Group) (q : Nat) (p : Port) : (g.setPort q p).ord = g.ord := rfl
@[simp] theorem Group.setPort_trp (g : Group) (q : Nat) (p : Port) : (g.setPort q p).trp = g.trp := rfl
@[simp] theorem Group.setPort_idn (g : Group) (q : Nat) (p : Port) : (g.setPort q p).idn = g.idn := rfl
@[simp] theorem Group.setPort_sto (g : Group) (q : Nat) (p : Port) : (g.setPort q p).sto = g.sto := rfl
@[simp] theorem Group.setPort_que (g : Group) (q : Nat) (p : Port) : (g.setPort q p).que = g.que := rfl

@[simp] theorem Group.setX_vec (g : Group) (r : Nat) (v : Word) : (g.setX r v).vec = g.vec := by unfold Group.setX; split <;> rfl
@[simp] theorem Group.setX_gra (g : Group) (r : Nat) (v : Word) : (g.setX r v).gra = g.gra := by unfold Group.setX; split <;> rfl
@[simp] theorem Group.setX_ord (g : Group) (r : Nat) (v : Word) : (g.setX r v).ord = g.ord := by unfold Group.setX; split <;> rfl
@[simp] theorem Group.setX_trp (g : Group) (r : Nat) (v : Word) : (g.setX r v).trp = g.trp := by unfold Group.setX; split <;> rfl
@[simp] theorem Group.setX_idn (g : Group) (r : Nat) (v : Word) : (g.setX r v).idn = g.idn := by unfold Group.setX; split <;> rfl
@[simp] theorem Group.setX_fil (g : Group) (r : Nat) (v : Word) : (g.setX r v).fil = g.fil := by unfold Group.setX; split <;> rfl
@[simp] theorem Group.setX_sto (g : Group) (r : Nat) (v : Word) : (g.setX r v).sto = g.sto := by unfold Group.setX; split <;> rfl
@[simp] theorem Group.setX_que (g : Group) (r : Nat) (v : Word) : (g.setX r v).que = g.que := by unfold Group.setX; split <;> rfl
@[simp] theorem Group.setX_sca_pc (g : Group) (r : Nat) (v : Word) : (g.setX r v).sca.pc = g.sca.pc := by unfold Group.setX; split <;> rfl
@[simp] theorem Group.setX_sca_level (g : Group) (r : Nat) (v : Word) : (g.setX r v).sca.level = g.sca.level := by unfold Group.setX; split <;> rfl
@[simp] theorem Group.setX_sca_status (g : Group) (r : Nat) (v : Word) : (g.setX r v).sca.status = g.sca.status := by unfold Group.setX; split <;> rfl
@[simp] theorem Group.setX_sca_openWords (g : Group) (r : Nat) (v : Word) : (g.setX r v).sca.openWords = g.sca.openWords := by unfold Group.setX; split <;> rfl
@[simp] theorem Group.setX_sca_openPc (g : Group) (r : Nat) (v : Word) : (g.setX r v).sca.openPc = g.sca.openPc := by unfold Group.setX; split <;> rfl
@[simp] theorem Group.setX_sca_latch (g : Group) (r : Nat) (v : Word) : (g.setX r v).sca.latch = g.sca.latch := by unfold Group.setX; split <;> rfl
@[simp] theorem Group.setX_sca_serial (g : Group) (r : Nat) (v : Word) : (g.setX r v).sca.serial = g.sca.serial := by unfold Group.setX; split <;> rfl
@[simp] theorem Group.setX_sca_yieldUntil (g : Group) (r : Nat) (v : Word) : (g.setX r v).sca.yieldUntil = g.sca.yieldUntil := by unfold Group.setX; split <;> rfl

@[simp] theorem Group.setTag_vec (g : Group) (r k : Nat) : (g.setTag r k).vec = g.vec := by unfold Group.setTag; split <;> rfl
@[simp] theorem Group.setTag_gra (g : Group) (r k : Nat) : (g.setTag r k).gra = g.gra := by unfold Group.setTag; split <;> rfl
@[simp] theorem Group.setTag_ord (g : Group) (r k : Nat) : (g.setTag r k).ord = g.ord := by unfold Group.setTag; split <;> rfl
@[simp] theorem Group.setTag_trp (g : Group) (r k : Nat) : (g.setTag r k).trp = g.trp := by unfold Group.setTag; split <;> rfl
@[simp] theorem Group.setTag_idn (g : Group) (r k : Nat) : (g.setTag r k).idn = g.idn := by unfold Group.setTag; split <;> rfl
@[simp] theorem Group.setTag_fil (g : Group) (r k : Nat) : (g.setTag r k).fil = g.fil := by unfold Group.setTag; split <;> rfl
@[simp] theorem Group.setTag_sto (g : Group) (r k : Nat) : (g.setTag r k).sto = g.sto := by unfold Group.setTag; split <;> rfl
@[simp] theorem Group.setTag_que (g : Group) (r k : Nat) : (g.setTag r k).que = g.que := by unfold Group.setTag; split <;> rfl
@[simp] theorem Group.setTag_sca_x (g : Group) (r k : Nat) : (g.setTag r k).sca.x = g.sca.x := by unfold Group.setTag; split <;> rfl
@[simp] theorem Group.setTag_sca_pc (g : Group) (r k : Nat) : (g.setTag r k).sca.pc = g.sca.pc := by unfold Group.setTag; split <;> rfl
@[simp] theorem Group.setTag_sca_level (g : Group) (r k : Nat) : (g.setTag r k).sca.level = g.sca.level := by unfold Group.setTag; split <;> rfl
@[simp] theorem Group.setTag_sca_status (g : Group) (r k : Nat) : (g.setTag r k).sca.status = g.sca.status := by unfold Group.setTag; split <;> rfl
@[simp] theorem Group.setTag_sca_openWords (g : Group) (r k : Nat) : (g.setTag r k).sca.openWords = g.sca.openWords := by unfold Group.setTag; split <;> rfl
@[simp] theorem Group.setTag_sca_openPc (g : Group) (r k : Nat) : (g.setTag r k).sca.openPc = g.sca.openPc := by unfold Group.setTag; split <;> rfl
@[simp] theorem Group.setTag_sca_latch (g : Group) (r k : Nat) : (g.setTag r k).sca.latch = g.sca.latch := by unfold Group.setTag; split <;> rfl
@[simp] theorem Group.setTag_sca_serial (g : Group) (r k : Nat) : (g.setTag r k).sca.serial = g.sca.serial := by unfold Group.setTag; split <;> rfl
@[simp] theorem Group.setTag_sca_yieldUntil (g : Group) (r k : Nat) : (g.setTag r k).sca.yieldUntil = g.sca.yieldUntil := by unfold Group.setTag; split <;> rfl

@[simp] theorem Group.dropTags_vec (g : Group) (n : Nat) : (g.dropTags n).vec = g.vec := rfl
@[simp] theorem Group.dropTags_gra (g : Group) (n : Nat) : (g.dropTags n).gra = g.gra := rfl
@[simp] theorem Group.dropTags_ord (g : Group) (n : Nat) : (g.dropTags n).ord = g.ord := rfl
@[simp] theorem Group.dropTags_trp (g : Group) (n : Nat) : (g.dropTags n).trp = g.trp := rfl
@[simp] theorem Group.dropTags_idn (g : Group) (n : Nat) : (g.dropTags n).idn = g.idn := rfl
@[simp] theorem Group.dropTags_fil (g : Group) (n : Nat) : (g.dropTags n).fil = g.fil := rfl
@[simp] theorem Group.dropTags_sto (g : Group) (n : Nat) : (g.dropTags n).sto = g.sto := rfl
@[simp] theorem Group.dropTags_que (g : Group) (n : Nat) : (g.dropTags n).que = g.que := rfl
@[simp] theorem Group.dropTags_sca_x (g : Group) (n : Nat) : (g.dropTags n).sca.x = g.sca.x := rfl
@[simp] theorem Group.dropTags_sca_pc (g : Group) (n : Nat) : (g.dropTags n).sca.pc = g.sca.pc := rfl
@[simp] theorem Group.dropTags_sca_level (g : Group) (n : Nat) : (g.dropTags n).sca.level = g.sca.level := rfl
@[simp] theorem Group.dropTags_sca_status (g : Group) (n : Nat) : (g.dropTags n).sca.status = g.sca.status := rfl
@[simp] theorem Group.dropTags_sca_openWords (g : Group) (n : Nat) : (g.dropTags n).sca.openWords = g.sca.openWords := rfl
@[simp] theorem Group.dropTags_sca_openPc (g : Group) (n : Nat) : (g.dropTags n).sca.openPc = g.sca.openPc := rfl
@[simp] theorem Group.dropTags_sca_latch (g : Group) (n : Nat) : (g.dropTags n).sca.latch = g.sca.latch := rfl
@[simp] theorem Group.dropTags_sca_serial (g : Group) (n : Nat) : (g.dropTags n).sca.serial = g.sca.serial := rfl
@[simp] theorem Group.dropTags_sca_yieldUntil (g : Group) (n : Nat) : (g.dropTags n).sca.yieldUntil = g.sca.yieldUntil := rfl

@[simp] theorem Group.endWaite_vec (g : Group) : (g.endWaite).vec = g.vec := by unfold Group.endWaite; split <;> rfl
@[simp] theorem Group.endWaite_gra (g : Group) : (g.endWaite).gra = g.gra := by unfold Group.endWaite; split <;> rfl
@[simp] theorem Group.endWaite_ord (g : Group) : (g.endWaite).ord = g.ord := by unfold Group.endWaite; split <;> rfl
@[simp] theorem Group.endWaite_trp (g : Group) : (g.endWaite).trp = g.trp := by unfold Group.endWaite; split <;> rfl
@[simp] theorem Group.endWaite_idn (g : Group) : (g.endWaite).idn = g.idn := by unfold Group.endWaite; split <;> rfl
@[simp] theorem Group.endWaite_fil (g : Group) : (g.endWaite).fil = g.fil := by unfold Group.endWaite; split <;> rfl
@[simp] theorem Group.endWaite_sto (g : Group) : (g.endWaite).sto = g.sto := by unfold Group.endWaite; split <;> rfl
@[simp] theorem Group.endWaite_que (g : Group) : (g.endWaite).que = g.que := by unfold Group.endWaite; split <;> rfl

@[simp] theorem Group.raise_vec (g : Group) (f : FaultInfo) : (g.raise f).vec = g.vec := by simp [Group.raise]
@[simp] theorem Group.raise_gra (g : Group) (f : FaultInfo) : (g.raise f).gra = g.gra := by simp [Group.raise]
@[simp] theorem Group.raise_ord (g : Group) (f : FaultInfo) : (g.raise f).ord = g.ord := by simp [Group.raise]
@[simp] theorem Group.raise_idn (g : Group) (f : FaultInfo) : (g.raise f).idn = g.idn := by simp [Group.raise]
@[simp] theorem Group.raise_fil (g : Group) (f : FaultInfo) : (g.raise f).fil = g.fil := by simp [Group.raise]
@[simp] theorem Group.raise_sto (g : Group) (f : FaultInfo) : (g.raise f).sto = g.sto := by simp [Group.raise]
@[simp] theorem Group.raise_que (g : Group) (f : FaultInfo) : (g.raise f).que = g.que := by simp [Group.raise]

@[simp] theorem Group.raiseScalar_vec (g : Group) (code : Nat) (addr : Word) : (g.raiseScalar code addr).vec = g.vec := by simp [Group.raiseScalar]
@[simp] theorem Group.raiseScalar_gra (g : Group) (code : Nat) (addr : Word) : (g.raiseScalar code addr).gra = g.gra := by simp [Group.raiseScalar]
@[simp] theorem Group.raiseScalar_ord (g : Group) (code : Nat) (addr : Word) : (g.raiseScalar code addr).ord = g.ord := by simp [Group.raiseScalar]
@[simp] theorem Group.raiseScalar_idn (g : Group) (code : Nat) (addr : Word) : (g.raiseScalar code addr).idn = g.idn := by simp [Group.raiseScalar]
@[simp] theorem Group.raiseScalar_fil (g : Group) (code : Nat) (addr : Word) : (g.raiseScalar code addr).fil = g.fil := by simp [Group.raiseScalar]
@[simp] theorem Group.raiseScalar_sto (g : Group) (code : Nat) (addr : Word) : (g.raiseScalar code addr).sto = g.sto := by simp [Group.raiseScalar]
@[simp] theorem Group.raiseScalar_que (g : Group) (code : Nat) (addr : Word) : (g.raiseScalar code addr).que = g.que := by simp [Group.raiseScalar]

@[simp] theorem Group.raiseConvoy_vec (g : Group) (code : Nat) (addr : Word) : (g.raiseConvoy code addr).vec = g.vec := by unfold Group.raiseConvoy; split <;> simp
@[simp] theorem Group.raiseConvoy_gra (g : Group) (code : Nat) (addr : Word) : (g.raiseConvoy code addr).gra = g.gra := by unfold Group.raiseConvoy; split <;> simp
@[simp] theorem Group.raiseConvoy_ord (g : Group) (code : Nat) (addr : Word) : (g.raiseConvoy code addr).ord = g.ord := by unfold Group.raiseConvoy; split <;> simp
@[simp] theorem Group.raiseConvoy_idn (g : Group) (code : Nat) (addr : Word) : (g.raiseConvoy code addr).idn = g.idn := by unfold Group.raiseConvoy; split <;> simp
@[simp] theorem Group.raiseConvoy_fil (g : Group) (code : Nat) (addr : Word) : (g.raiseConvoy code addr).fil = g.fil := by unfold Group.raiseConvoy; split <;> simp
@[simp] theorem Group.raiseConvoy_sto (g : Group) (code : Nat) (addr : Word) : (g.raiseConvoy code addr).sto = g.sto := by unfold Group.raiseConvoy; split <;> simp
@[simp] theorem Group.raiseConvoy_que (g : Group) (code : Nat) (addr : Word) : (g.raiseConvoy code addr).que = g.que := by unfold Group.raiseConvoy; split <;> simp

@[simp] theorem State.setCore_pace (s : State) (c : Nat) (v : Core) : (s.setCore c v).pace = s.pace := rfl
@[simp] theorem State.setCore_tick (s : State) (c : Nat) (v : Core) : (s.setCore c v).tick = s.tick := rfl
@[simp] theorem State.setCore_now (s : State) (c : Nat) (v : Core) : (s.setCore c v).now = s.now := rfl
@[simp] theorem State.setCore_curCore (s : State) (c : Nat) (v : Core) : (s.setCore c v).curCore = s.curCore := rfl
@[simp] theorem State.setCore_curSlot (s : State) (c : Nat) (v : Core) : (s.setCore c v).curSlot = s.curSlot := rfl
@[simp] theorem State.setCore_agenda (s : State) (c : Nat) (v : Core) : (s.setCore c v).agenda = s.agenda := rfl
@[simp] theorem State.setCore_mem (s : State) (c : Nat) (v : Core) : (s.setCore c v).mem = s.mem := rfl
@[simp] theorem State.setCore_chk (s : State) (c : Nat) (v : Core) : (s.setCore c v).chk = s.chk := rfl
@[simp] theorem State.setCore_bad (s : State) (c : Nat) (v : Core) : (s.setCore c v).bad = s.bad := rfl
@[simp] theorem State.setCore_flights (s : State) (c : Nat) (v : Core) : (s.setCore c v).flights = s.flights := rfl
@[simp] theorem State.setCore_teams (s : State) (c : Nat) (v : Core) : (s.setCore c v).teams = s.teams := rfl
@[simp] theorem State.setCore_nextTeam (s : State) (c : Nat) (v : Core) : (s.setCore c v).nextTeam = s.nextTeam := rfl
@[simp] theorem State.setCore_tasks (s : State) (c : Nat) (v : Core) : (s.setCore c v).tasks = s.tasks := rfl
@[simp] theorem State.setCore_nextTask (s : State) (c : Nat) (v : Core) : (s.setCore c v).nextTask = s.nextTask := rfl
@[simp] theorem State.setCore_saved (s : State) (c : Nat) (v : Core) : (s.setCore c v).saved = s.saved := rfl
@[simp] theorem State.setCore_aways (s : State) (c : Nat) (v : Core) : (s.setCore c v).aways = s.aways := rfl
@[simp] theorem State.setCore_queues (s : State) (c : Nat) (v : Core) : (s.setCore c v).queues = s.queues := rfl
@[simp] theorem State.setCore_trowel (s : State) (c : Nat) (v : Core) : (s.setCore c v).trowel = s.trowel := rfl
@[simp] theorem State.setCore_fabric (s : State) (c : Nat) (v : Core) : (s.setCore c v).fabric = s.fabric := rfl
@[simp] theorem State.setCore_dies (s : State) (c : Nat) (v : Core) : (s.setCore c v).dies = s.dies := rfl
@[simp] theorem State.setCore_belowCount (s : State) (c : Nat) (v : Core) : (s.setCore c v).belowCount = s.belowCount := rfl
@[simp] theorem State.setCore_powerLimit (s : State) (c : Nat) (v : Core) : (s.setCore c v).powerLimit = s.powerLimit := rfl
@[simp] theorem State.setCore_powered (s : State) (c : Nat) (v : Core) : (s.setCore c v).powered = s.powered := rfl
@[simp] theorem State.setCore_ucie (s : State) (c : Nat) (v : Core) : (s.setCore c v).ucie = s.ucie := rfl
@[simp] theorem State.setCore_msgs (s : State) (c : Nat) (v : Core) : (s.setCore c v).msgs = s.msgs := rfl
@[simp] theorem State.setCore_replies (s : State) (c : Nat) (v : Core) : (s.setCore c v).replies = s.replies := rfl

@[simp] theorem State.setSlot_pace (s : State) (c k : Nat) (v : Slot) : (s.setSlot c k v).pace = s.pace := rfl
@[simp] theorem State.setSlot_tick (s : State) (c k : Nat) (v : Slot) : (s.setSlot c k v).tick = s.tick := rfl
@[simp] theorem State.setSlot_now (s : State) (c k : Nat) (v : Slot) : (s.setSlot c k v).now = s.now := rfl
@[simp] theorem State.setSlot_curCore (s : State) (c k : Nat) (v : Slot) : (s.setSlot c k v).curCore = s.curCore := rfl
@[simp] theorem State.setSlot_curSlot (s : State) (c k : Nat) (v : Slot) : (s.setSlot c k v).curSlot = s.curSlot := rfl
@[simp] theorem State.setSlot_agenda (s : State) (c k : Nat) (v : Slot) : (s.setSlot c k v).agenda = s.agenda := rfl
@[simp] theorem State.setSlot_mem (s : State) (c k : Nat) (v : Slot) : (s.setSlot c k v).mem = s.mem := rfl
@[simp] theorem State.setSlot_chk (s : State) (c k : Nat) (v : Slot) : (s.setSlot c k v).chk = s.chk := rfl
@[simp] theorem State.setSlot_bad (s : State) (c k : Nat) (v : Slot) : (s.setSlot c k v).bad = s.bad := rfl
@[simp] theorem State.setSlot_flights (s : State) (c k : Nat) (v : Slot) : (s.setSlot c k v).flights = s.flights := rfl
@[simp] theorem State.setSlot_teams (s : State) (c k : Nat) (v : Slot) : (s.setSlot c k v).teams = s.teams := rfl
@[simp] theorem State.setSlot_nextTeam (s : State) (c k : Nat) (v : Slot) : (s.setSlot c k v).nextTeam = s.nextTeam := rfl
@[simp] theorem State.setSlot_tasks (s : State) (c k : Nat) (v : Slot) : (s.setSlot c k v).tasks = s.tasks := rfl
@[simp] theorem State.setSlot_nextTask (s : State) (c k : Nat) (v : Slot) : (s.setSlot c k v).nextTask = s.nextTask := rfl
@[simp] theorem State.setSlot_saved (s : State) (c k : Nat) (v : Slot) : (s.setSlot c k v).saved = s.saved := rfl
@[simp] theorem State.setSlot_aways (s : State) (c k : Nat) (v : Slot) : (s.setSlot c k v).aways = s.aways := rfl
@[simp] theorem State.setSlot_queues (s : State) (c k : Nat) (v : Slot) : (s.setSlot c k v).queues = s.queues := rfl
@[simp] theorem State.setSlot_trowel (s : State) (c k : Nat) (v : Slot) : (s.setSlot c k v).trowel = s.trowel := rfl
@[simp] theorem State.setSlot_fabric (s : State) (c k : Nat) (v : Slot) : (s.setSlot c k v).fabric = s.fabric := rfl
@[simp] theorem State.setSlot_dies (s : State) (c k : Nat) (v : Slot) : (s.setSlot c k v).dies = s.dies := rfl
@[simp] theorem State.setSlot_belowCount (s : State) (c k : Nat) (v : Slot) : (s.setSlot c k v).belowCount = s.belowCount := rfl
@[simp] theorem State.setSlot_powerLimit (s : State) (c k : Nat) (v : Slot) : (s.setSlot c k v).powerLimit = s.powerLimit := rfl
@[simp] theorem State.setSlot_powered (s : State) (c k : Nat) (v : Slot) : (s.setSlot c k v).powered = s.powered := rfl
@[simp] theorem State.setSlot_ucie (s : State) (c k : Nat) (v : Slot) : (s.setSlot c k v).ucie = s.ucie := rfl
@[simp] theorem State.setSlot_msgs (s : State) (c k : Nat) (v : Slot) : (s.setSlot c k v).msgs = s.msgs := rfl
@[simp] theorem State.setSlot_replies (s : State) (c k : Nat) (v : Slot) : (s.setSlot c k v).replies = s.replies := rfl

@[simp] theorem State.setGroup_pace (s : State) (c k : Nat) (g : Group) : (s.setGroup c k g).pace = s.pace := rfl
@[simp] theorem State.setGroup_tick (s : State) (c k : Nat) (g : Group) : (s.setGroup c k g).tick = s.tick := rfl
@[simp] theorem State.setGroup_now (s : State) (c k : Nat) (g : Group) : (s.setGroup c k g).now = s.now := rfl
@[simp] theorem State.setGroup_curCore (s : State) (c k : Nat) (g : Group) : (s.setGroup c k g).curCore = s.curCore := rfl
@[simp] theorem State.setGroup_curSlot (s : State) (c k : Nat) (g : Group) : (s.setGroup c k g).curSlot = s.curSlot := rfl
@[simp] theorem State.setGroup_agenda (s : State) (c k : Nat) (g : Group) : (s.setGroup c k g).agenda = s.agenda := rfl
@[simp] theorem State.setGroup_mem (s : State) (c k : Nat) (g : Group) : (s.setGroup c k g).mem = s.mem := rfl
@[simp] theorem State.setGroup_chk (s : State) (c k : Nat) (g : Group) : (s.setGroup c k g).chk = s.chk := rfl
@[simp] theorem State.setGroup_bad (s : State) (c k : Nat) (g : Group) : (s.setGroup c k g).bad = s.bad := rfl
@[simp] theorem State.setGroup_flights (s : State) (c k : Nat) (g : Group) : (s.setGroup c k g).flights = s.flights := rfl
@[simp] theorem State.setGroup_teams (s : State) (c k : Nat) (g : Group) : (s.setGroup c k g).teams = s.teams := rfl
@[simp] theorem State.setGroup_nextTeam (s : State) (c k : Nat) (g : Group) : (s.setGroup c k g).nextTeam = s.nextTeam := rfl
@[simp] theorem State.setGroup_tasks (s : State) (c k : Nat) (g : Group) : (s.setGroup c k g).tasks = s.tasks := rfl
@[simp] theorem State.setGroup_nextTask (s : State) (c k : Nat) (g : Group) : (s.setGroup c k g).nextTask = s.nextTask := rfl
@[simp] theorem State.setGroup_saved (s : State) (c k : Nat) (g : Group) : (s.setGroup c k g).saved = s.saved := rfl
@[simp] theorem State.setGroup_aways (s : State) (c k : Nat) (g : Group) : (s.setGroup c k g).aways = s.aways := rfl
@[simp] theorem State.setGroup_queues (s : State) (c k : Nat) (g : Group) : (s.setGroup c k g).queues = s.queues := rfl
@[simp] theorem State.setGroup_trowel (s : State) (c k : Nat) (g : Group) : (s.setGroup c k g).trowel = s.trowel := rfl
@[simp] theorem State.setGroup_fabric (s : State) (c k : Nat) (g : Group) : (s.setGroup c k g).fabric = s.fabric := rfl
@[simp] theorem State.setGroup_dies (s : State) (c k : Nat) (g : Group) : (s.setGroup c k g).dies = s.dies := rfl
@[simp] theorem State.setGroup_belowCount (s : State) (c k : Nat) (g : Group) : (s.setGroup c k g).belowCount = s.belowCount := rfl
@[simp] theorem State.setGroup_powerLimit (s : State) (c k : Nat) (g : Group) : (s.setGroup c k g).powerLimit = s.powerLimit := rfl
@[simp] theorem State.setGroup_powered (s : State) (c k : Nat) (g : Group) : (s.setGroup c k g).powered = s.powered := rfl
@[simp] theorem State.setGroup_ucie (s : State) (c k : Nat) (g : Group) : (s.setGroup c k g).ucie = s.ucie := rfl
@[simp] theorem State.setGroup_msgs (s : State) (c k : Nat) (g : Group) : (s.setGroup c k g).msgs = s.msgs := rfl
@[simp] theorem State.setGroup_replies (s : State) (c k : Nat) (g : Group) : (s.setGroup c k g).replies = s.replies := rfl

@[simp] theorem State.put_pace (s : State) (g : Group) : (s.put g).pace = s.pace := rfl
@[simp] theorem State.put_tick (s : State) (g : Group) : (s.put g).tick = s.tick := rfl
@[simp] theorem State.put_now (s : State) (g : Group) : (s.put g).now = s.now := rfl
@[simp] theorem State.put_curCore (s : State) (g : Group) : (s.put g).curCore = s.curCore := rfl
@[simp] theorem State.put_curSlot (s : State) (g : Group) : (s.put g).curSlot = s.curSlot := rfl
@[simp] theorem State.put_agenda (s : State) (g : Group) : (s.put g).agenda = s.agenda := rfl
@[simp] theorem State.put_mem (s : State) (g : Group) : (s.put g).mem = s.mem := rfl
@[simp] theorem State.put_chk (s : State) (g : Group) : (s.put g).chk = s.chk := rfl
@[simp] theorem State.put_bad (s : State) (g : Group) : (s.put g).bad = s.bad := rfl
@[simp] theorem State.put_flights (s : State) (g : Group) : (s.put g).flights = s.flights := rfl
@[simp] theorem State.put_teams (s : State) (g : Group) : (s.put g).teams = s.teams := rfl
@[simp] theorem State.put_nextTeam (s : State) (g : Group) : (s.put g).nextTeam = s.nextTeam := rfl
@[simp] theorem State.put_tasks (s : State) (g : Group) : (s.put g).tasks = s.tasks := rfl
@[simp] theorem State.put_nextTask (s : State) (g : Group) : (s.put g).nextTask = s.nextTask := rfl
@[simp] theorem State.put_saved (s : State) (g : Group) : (s.put g).saved = s.saved := rfl
@[simp] theorem State.put_aways (s : State) (g : Group) : (s.put g).aways = s.aways := rfl
@[simp] theorem State.put_queues (s : State) (g : Group) : (s.put g).queues = s.queues := rfl
@[simp] theorem State.put_trowel (s : State) (g : Group) : (s.put g).trowel = s.trowel := rfl
@[simp] theorem State.put_fabric (s : State) (g : Group) : (s.put g).fabric = s.fabric := rfl
@[simp] theorem State.put_dies (s : State) (g : Group) : (s.put g).dies = s.dies := rfl
@[simp] theorem State.put_belowCount (s : State) (g : Group) : (s.put g).belowCount = s.belowCount := rfl
@[simp] theorem State.put_powerLimit (s : State) (g : Group) : (s.put g).powerLimit = s.powerLimit := rfl
@[simp] theorem State.put_powered (s : State) (g : Group) : (s.put g).powered = s.powered := rfl
@[simp] theorem State.put_ucie (s : State) (g : Group) : (s.put g).ucie = s.ucie := rfl
@[simp] theorem State.put_msgs (s : State) (g : Group) : (s.put g).msgs = s.msgs := rfl
@[simp] theorem State.put_replies (s : State) (g : Group) : (s.put g).replies = s.replies := rfl

@[simp] theorem State.tally_pace (s : State) (c k cls n : Nat) : (s.tally c k cls n).pace = s.pace := rfl
@[simp] theorem State.tally_tick (s : State) (c k cls n : Nat) : (s.tally c k cls n).tick = s.tick := rfl
@[simp] theorem State.tally_now (s : State) (c k cls n : Nat) : (s.tally c k cls n).now = s.now := rfl
@[simp] theorem State.tally_curCore (s : State) (c k cls n : Nat) : (s.tally c k cls n).curCore = s.curCore := rfl
@[simp] theorem State.tally_curSlot (s : State) (c k cls n : Nat) : (s.tally c k cls n).curSlot = s.curSlot := rfl
@[simp] theorem State.tally_agenda (s : State) (c k cls n : Nat) : (s.tally c k cls n).agenda = s.agenda := rfl
@[simp] theorem State.tally_mem (s : State) (c k cls n : Nat) : (s.tally c k cls n).mem = s.mem := rfl
@[simp] theorem State.tally_chk (s : State) (c k cls n : Nat) : (s.tally c k cls n).chk = s.chk := rfl
@[simp] theorem State.tally_bad (s : State) (c k cls n : Nat) : (s.tally c k cls n).bad = s.bad := rfl
@[simp] theorem State.tally_flights (s : State) (c k cls n : Nat) : (s.tally c k cls n).flights = s.flights := rfl
@[simp] theorem State.tally_teams (s : State) (c k cls n : Nat) : (s.tally c k cls n).teams = s.teams := rfl
@[simp] theorem State.tally_nextTeam (s : State) (c k cls n : Nat) : (s.tally c k cls n).nextTeam = s.nextTeam := rfl
@[simp] theorem State.tally_tasks (s : State) (c k cls n : Nat) : (s.tally c k cls n).tasks = s.tasks := rfl
@[simp] theorem State.tally_nextTask (s : State) (c k cls n : Nat) : (s.tally c k cls n).nextTask = s.nextTask := rfl
@[simp] theorem State.tally_saved (s : State) (c k cls n : Nat) : (s.tally c k cls n).saved = s.saved := rfl
@[simp] theorem State.tally_aways (s : State) (c k cls n : Nat) : (s.tally c k cls n).aways = s.aways := rfl
@[simp] theorem State.tally_queues (s : State) (c k cls n : Nat) : (s.tally c k cls n).queues = s.queues := rfl
@[simp] theorem State.tally_trowel (s : State) (c k cls n : Nat) : (s.tally c k cls n).trowel = s.trowel := rfl
@[simp] theorem State.tally_fabric (s : State) (c k cls n : Nat) : (s.tally c k cls n).fabric = s.fabric := rfl
@[simp] theorem State.tally_dies (s : State) (c k cls n : Nat) : (s.tally c k cls n).dies = s.dies := rfl
@[simp] theorem State.tally_belowCount (s : State) (c k cls n : Nat) : (s.tally c k cls n).belowCount = s.belowCount := rfl
@[simp] theorem State.tally_powerLimit (s : State) (c k cls n : Nat) : (s.tally c k cls n).powerLimit = s.powerLimit := rfl
@[simp] theorem State.tally_powered (s : State) (c k cls n : Nat) : (s.tally c k cls n).powered = s.powered := rfl
@[simp] theorem State.tally_ucie (s : State) (c k cls n : Nat) : (s.tally c k cls n).ucie = s.ucie := rfl
@[simp] theorem State.tally_msgs (s : State) (c k cls n : Nat) : (s.tally c k cls n).msgs = s.msgs := rfl
@[simp] theorem State.tally_replies (s : State) (c k cls n : Nat) : (s.tally c k cls n).replies = s.replies := rfl

@[simp] theorem State.setTeam_pace (s : State) (t : Nat) (v : Option Team) : (s.setTeam t v).pace = s.pace := rfl
@[simp] theorem State.setTeam_tick (s : State) (t : Nat) (v : Option Team) : (s.setTeam t v).tick = s.tick := rfl
@[simp] theorem State.setTeam_now (s : State) (t : Nat) (v : Option Team) : (s.setTeam t v).now = s.now := rfl
@[simp] theorem State.setTeam_curCore (s : State) (t : Nat) (v : Option Team) : (s.setTeam t v).curCore = s.curCore := rfl
@[simp] theorem State.setTeam_curSlot (s : State) (t : Nat) (v : Option Team) : (s.setTeam t v).curSlot = s.curSlot := rfl
@[simp] theorem State.setTeam_agenda (s : State) (t : Nat) (v : Option Team) : (s.setTeam t v).agenda = s.agenda := rfl
@[simp] theorem State.setTeam_mem (s : State) (t : Nat) (v : Option Team) : (s.setTeam t v).mem = s.mem := rfl
@[simp] theorem State.setTeam_chk (s : State) (t : Nat) (v : Option Team) : (s.setTeam t v).chk = s.chk := rfl
@[simp] theorem State.setTeam_bad (s : State) (t : Nat) (v : Option Team) : (s.setTeam t v).bad = s.bad := rfl
@[simp] theorem State.setTeam_flights (s : State) (t : Nat) (v : Option Team) : (s.setTeam t v).flights = s.flights := rfl
@[simp] theorem State.setTeam_cores (s : State) (t : Nat) (v : Option Team) : (s.setTeam t v).cores = s.cores := rfl
@[simp] theorem State.setTeam_nextTeam (s : State) (t : Nat) (v : Option Team) : (s.setTeam t v).nextTeam = s.nextTeam := rfl
@[simp] theorem State.setTeam_tasks (s : State) (t : Nat) (v : Option Team) : (s.setTeam t v).tasks = s.tasks := rfl
@[simp] theorem State.setTeam_nextTask (s : State) (t : Nat) (v : Option Team) : (s.setTeam t v).nextTask = s.nextTask := rfl
@[simp] theorem State.setTeam_saved (s : State) (t : Nat) (v : Option Team) : (s.setTeam t v).saved = s.saved := rfl
@[simp] theorem State.setTeam_aways (s : State) (t : Nat) (v : Option Team) : (s.setTeam t v).aways = s.aways := rfl
@[simp] theorem State.setTeam_queues (s : State) (t : Nat) (v : Option Team) : (s.setTeam t v).queues = s.queues := rfl
@[simp] theorem State.setTeam_trowel (s : State) (t : Nat) (v : Option Team) : (s.setTeam t v).trowel = s.trowel := rfl
@[simp] theorem State.setTeam_fabric (s : State) (t : Nat) (v : Option Team) : (s.setTeam t v).fabric = s.fabric := rfl
@[simp] theorem State.setTeam_dies (s : State) (t : Nat) (v : Option Team) : (s.setTeam t v).dies = s.dies := rfl
@[simp] theorem State.setTeam_belowCount (s : State) (t : Nat) (v : Option Team) : (s.setTeam t v).belowCount = s.belowCount := rfl
@[simp] theorem State.setTeam_powerLimit (s : State) (t : Nat) (v : Option Team) : (s.setTeam t v).powerLimit = s.powerLimit := rfl
@[simp] theorem State.setTeam_powered (s : State) (t : Nat) (v : Option Team) : (s.setTeam t v).powered = s.powered := rfl
@[simp] theorem State.setTeam_ucie (s : State) (t : Nat) (v : Option Team) : (s.setTeam t v).ucie = s.ucie := rfl
@[simp] theorem State.setTeam_msgs (s : State) (t : Nat) (v : Option Team) : (s.setTeam t v).msgs = s.msgs := rfl
@[simp] theorem State.setTeam_replies (s : State) (t : Nat) (v : Option Team) : (s.setTeam t v).replies = s.replies := rfl

@[simp] theorem State.setTask_pace (s : State) (t : Nat) (v : Option Task) : (s.setTask t v).pace = s.pace := rfl
@[simp] theorem State.setTask_tick (s : State) (t : Nat) (v : Option Task) : (s.setTask t v).tick = s.tick := rfl
@[simp] theorem State.setTask_now (s : State) (t : Nat) (v : Option Task) : (s.setTask t v).now = s.now := rfl
@[simp] theorem State.setTask_curCore (s : State) (t : Nat) (v : Option Task) : (s.setTask t v).curCore = s.curCore := rfl
@[simp] theorem State.setTask_curSlot (s : State) (t : Nat) (v : Option Task) : (s.setTask t v).curSlot = s.curSlot := rfl
@[simp] theorem State.setTask_agenda (s : State) (t : Nat) (v : Option Task) : (s.setTask t v).agenda = s.agenda := rfl
@[simp] theorem State.setTask_mem (s : State) (t : Nat) (v : Option Task) : (s.setTask t v).mem = s.mem := rfl
@[simp] theorem State.setTask_chk (s : State) (t : Nat) (v : Option Task) : (s.setTask t v).chk = s.chk := rfl
@[simp] theorem State.setTask_bad (s : State) (t : Nat) (v : Option Task) : (s.setTask t v).bad = s.bad := rfl
@[simp] theorem State.setTask_flights (s : State) (t : Nat) (v : Option Task) : (s.setTask t v).flights = s.flights := rfl
@[simp] theorem State.setTask_cores (s : State) (t : Nat) (v : Option Task) : (s.setTask t v).cores = s.cores := rfl
@[simp] theorem State.setTask_teams (s : State) (t : Nat) (v : Option Task) : (s.setTask t v).teams = s.teams := rfl
@[simp] theorem State.setTask_nextTeam (s : State) (t : Nat) (v : Option Task) : (s.setTask t v).nextTeam = s.nextTeam := rfl
@[simp] theorem State.setTask_nextTask (s : State) (t : Nat) (v : Option Task) : (s.setTask t v).nextTask = s.nextTask := rfl
@[simp] theorem State.setTask_saved (s : State) (t : Nat) (v : Option Task) : (s.setTask t v).saved = s.saved := rfl
@[simp] theorem State.setTask_aways (s : State) (t : Nat) (v : Option Task) : (s.setTask t v).aways = s.aways := rfl
@[simp] theorem State.setTask_queues (s : State) (t : Nat) (v : Option Task) : (s.setTask t v).queues = s.queues := rfl
@[simp] theorem State.setTask_trowel (s : State) (t : Nat) (v : Option Task) : (s.setTask t v).trowel = s.trowel := rfl
@[simp] theorem State.setTask_fabric (s : State) (t : Nat) (v : Option Task) : (s.setTask t v).fabric = s.fabric := rfl
@[simp] theorem State.setTask_dies (s : State) (t : Nat) (v : Option Task) : (s.setTask t v).dies = s.dies := rfl
@[simp] theorem State.setTask_belowCount (s : State) (t : Nat) (v : Option Task) : (s.setTask t v).belowCount = s.belowCount := rfl
@[simp] theorem State.setTask_powerLimit (s : State) (t : Nat) (v : Option Task) : (s.setTask t v).powerLimit = s.powerLimit := rfl
@[simp] theorem State.setTask_powered (s : State) (t : Nat) (v : Option Task) : (s.setTask t v).powered = s.powered := rfl
@[simp] theorem State.setTask_ucie (s : State) (t : Nat) (v : Option Task) : (s.setTask t v).ucie = s.ucie := rfl
@[simp] theorem State.setTask_msgs (s : State) (t : Nat) (v : Option Task) : (s.setTask t v).msgs = s.msgs := rfl
@[simp] theorem State.setTask_replies (s : State) (t : Nat) (v : Option Task) : (s.setTask t v).replies = s.replies := rfl

@[simp] theorem State.setQueue_pace (s : State) (q : Nat) (v : CmdQueue) : (s.setQueue q v).pace = s.pace := rfl
@[simp] theorem State.setQueue_tick (s : State) (q : Nat) (v : CmdQueue) : (s.setQueue q v).tick = s.tick := rfl
@[simp] theorem State.setQueue_now (s : State) (q : Nat) (v : CmdQueue) : (s.setQueue q v).now = s.now := rfl
@[simp] theorem State.setQueue_curCore (s : State) (q : Nat) (v : CmdQueue) : (s.setQueue q v).curCore = s.curCore := rfl
@[simp] theorem State.setQueue_curSlot (s : State) (q : Nat) (v : CmdQueue) : (s.setQueue q v).curSlot = s.curSlot := rfl
@[simp] theorem State.setQueue_agenda (s : State) (q : Nat) (v : CmdQueue) : (s.setQueue q v).agenda = s.agenda := rfl
@[simp] theorem State.setQueue_mem (s : State) (q : Nat) (v : CmdQueue) : (s.setQueue q v).mem = s.mem := rfl
@[simp] theorem State.setQueue_chk (s : State) (q : Nat) (v : CmdQueue) : (s.setQueue q v).chk = s.chk := rfl
@[simp] theorem State.setQueue_bad (s : State) (q : Nat) (v : CmdQueue) : (s.setQueue q v).bad = s.bad := rfl
@[simp] theorem State.setQueue_flights (s : State) (q : Nat) (v : CmdQueue) : (s.setQueue q v).flights = s.flights := rfl
@[simp] theorem State.setQueue_cores (s : State) (q : Nat) (v : CmdQueue) : (s.setQueue q v).cores = s.cores := rfl
@[simp] theorem State.setQueue_teams (s : State) (q : Nat) (v : CmdQueue) : (s.setQueue q v).teams = s.teams := rfl
@[simp] theorem State.setQueue_nextTeam (s : State) (q : Nat) (v : CmdQueue) : (s.setQueue q v).nextTeam = s.nextTeam := rfl
@[simp] theorem State.setQueue_tasks (s : State) (q : Nat) (v : CmdQueue) : (s.setQueue q v).tasks = s.tasks := rfl
@[simp] theorem State.setQueue_nextTask (s : State) (q : Nat) (v : CmdQueue) : (s.setQueue q v).nextTask = s.nextTask := rfl
@[simp] theorem State.setQueue_saved (s : State) (q : Nat) (v : CmdQueue) : (s.setQueue q v).saved = s.saved := rfl
@[simp] theorem State.setQueue_aways (s : State) (q : Nat) (v : CmdQueue) : (s.setQueue q v).aways = s.aways := rfl
@[simp] theorem State.setQueue_trowel (s : State) (q : Nat) (v : CmdQueue) : (s.setQueue q v).trowel = s.trowel := rfl
@[simp] theorem State.setQueue_fabric (s : State) (q : Nat) (v : CmdQueue) : (s.setQueue q v).fabric = s.fabric := rfl
@[simp] theorem State.setQueue_dies (s : State) (q : Nat) (v : CmdQueue) : (s.setQueue q v).dies = s.dies := rfl
@[simp] theorem State.setQueue_belowCount (s : State) (q : Nat) (v : CmdQueue) : (s.setQueue q v).belowCount = s.belowCount := rfl
@[simp] theorem State.setQueue_powerLimit (s : State) (q : Nat) (v : CmdQueue) : (s.setQueue q v).powerLimit = s.powerLimit := rfl
@[simp] theorem State.setQueue_powered (s : State) (q : Nat) (v : CmdQueue) : (s.setQueue q v).powered = s.powered := rfl
@[simp] theorem State.setQueue_ucie (s : State) (q : Nat) (v : CmdQueue) : (s.setQueue q v).ucie = s.ucie := rfl
@[simp] theorem State.setQueue_msgs (s : State) (q : Nat) (v : CmdQueue) : (s.setQueue q v).msgs = s.msgs := rfl
@[simp] theorem State.setQueue_replies (s : State) (q : Nat) (v : CmdQueue) : (s.setQueue q v).replies = s.replies := rfl

@[simp] theorem State.setDie_pace (s : State) (d : Nat) (v : Die) : (s.setDie d v).pace = s.pace := rfl
@[simp] theorem State.setDie_tick (s : State) (d : Nat) (v : Die) : (s.setDie d v).tick = s.tick := rfl
@[simp] theorem State.setDie_now (s : State) (d : Nat) (v : Die) : (s.setDie d v).now = s.now := rfl
@[simp] theorem State.setDie_curCore (s : State) (d : Nat) (v : Die) : (s.setDie d v).curCore = s.curCore := rfl
@[simp] theorem State.setDie_curSlot (s : State) (d : Nat) (v : Die) : (s.setDie d v).curSlot = s.curSlot := rfl
@[simp] theorem State.setDie_agenda (s : State) (d : Nat) (v : Die) : (s.setDie d v).agenda = s.agenda := rfl
@[simp] theorem State.setDie_mem (s : State) (d : Nat) (v : Die) : (s.setDie d v).mem = s.mem := rfl
@[simp] theorem State.setDie_chk (s : State) (d : Nat) (v : Die) : (s.setDie d v).chk = s.chk := rfl
@[simp] theorem State.setDie_bad (s : State) (d : Nat) (v : Die) : (s.setDie d v).bad = s.bad := rfl
@[simp] theorem State.setDie_flights (s : State) (d : Nat) (v : Die) : (s.setDie d v).flights = s.flights := rfl
@[simp] theorem State.setDie_cores (s : State) (d : Nat) (v : Die) : (s.setDie d v).cores = s.cores := rfl
@[simp] theorem State.setDie_teams (s : State) (d : Nat) (v : Die) : (s.setDie d v).teams = s.teams := rfl
@[simp] theorem State.setDie_nextTeam (s : State) (d : Nat) (v : Die) : (s.setDie d v).nextTeam = s.nextTeam := rfl
@[simp] theorem State.setDie_tasks (s : State) (d : Nat) (v : Die) : (s.setDie d v).tasks = s.tasks := rfl
@[simp] theorem State.setDie_nextTask (s : State) (d : Nat) (v : Die) : (s.setDie d v).nextTask = s.nextTask := rfl
@[simp] theorem State.setDie_saved (s : State) (d : Nat) (v : Die) : (s.setDie d v).saved = s.saved := rfl
@[simp] theorem State.setDie_aways (s : State) (d : Nat) (v : Die) : (s.setDie d v).aways = s.aways := rfl
@[simp] theorem State.setDie_queues (s : State) (d : Nat) (v : Die) : (s.setDie d v).queues = s.queues := rfl
@[simp] theorem State.setDie_trowel (s : State) (d : Nat) (v : Die) : (s.setDie d v).trowel = s.trowel := rfl
@[simp] theorem State.setDie_fabric (s : State) (d : Nat) (v : Die) : (s.setDie d v).fabric = s.fabric := rfl
@[simp] theorem State.setDie_belowCount (s : State) (d : Nat) (v : Die) : (s.setDie d v).belowCount = s.belowCount := rfl
@[simp] theorem State.setDie_powerLimit (s : State) (d : Nat) (v : Die) : (s.setDie d v).powerLimit = s.powerLimit := rfl
@[simp] theorem State.setDie_powered (s : State) (d : Nat) (v : Die) : (s.setDie d v).powered = s.powered := rfl
@[simp] theorem State.setDie_ucie (s : State) (d : Nat) (v : Die) : (s.setDie d v).ucie = s.ucie := rfl
@[simp] theorem State.setDie_msgs (s : State) (d : Nat) (v : Die) : (s.setDie d v).msgs = s.msgs := rfl
@[simp] theorem State.setDie_replies (s : State) (d : Nat) (v : Die) : (s.setDie d v).replies = s.replies := rfl

@[simp] theorem State.modGroup_pace (s : State) (c k : Nat) (h : Group → Group) : (s.modGroup c k h).pace = s.pace := by unfold State.modGroup; split <;> rfl
@[simp] theorem State.modGroup_tick (s : State) (c k : Nat) (h : Group → Group) : (s.modGroup c k h).tick = s.tick := by unfold State.modGroup; split <;> rfl
@[simp] theorem State.modGroup_now (s : State) (c k : Nat) (h : Group → Group) : (s.modGroup c k h).now = s.now := by unfold State.modGroup; split <;> rfl
@[simp] theorem State.modGroup_curCore (s : State) (c k : Nat) (h : Group → Group) : (s.modGroup c k h).curCore = s.curCore := by unfold State.modGroup; split <;> rfl
@[simp] theorem State.modGroup_curSlot (s : State) (c k : Nat) (h : Group → Group) : (s.modGroup c k h).curSlot = s.curSlot := by unfold State.modGroup; split <;> rfl
@[simp] theorem State.modGroup_agenda (s : State) (c k : Nat) (h : Group → Group) : (s.modGroup c k h).agenda = s.agenda := by unfold State.modGroup; split <;> rfl
@[simp] theorem State.modGroup_mem (s : State) (c k : Nat) (h : Group → Group) : (s.modGroup c k h).mem = s.mem := by unfold State.modGroup; split <;> rfl
@[simp] theorem State.modGroup_chk (s : State) (c k : Nat) (h : Group → Group) : (s.modGroup c k h).chk = s.chk := by unfold State.modGroup; split <;> rfl
@[simp] theorem State.modGroup_bad (s : State) (c k : Nat) (h : Group → Group) : (s.modGroup c k h).bad = s.bad := by unfold State.modGroup; split <;> rfl
@[simp] theorem State.modGroup_flights (s : State) (c k : Nat) (h : Group → Group) : (s.modGroup c k h).flights = s.flights := by unfold State.modGroup; split <;> rfl
@[simp] theorem State.modGroup_teams (s : State) (c k : Nat) (h : Group → Group) : (s.modGroup c k h).teams = s.teams := by unfold State.modGroup; split <;> rfl
@[simp] theorem State.modGroup_nextTeam (s : State) (c k : Nat) (h : Group → Group) : (s.modGroup c k h).nextTeam = s.nextTeam := by unfold State.modGroup; split <;> rfl
@[simp] theorem State.modGroup_tasks (s : State) (c k : Nat) (h : Group → Group) : (s.modGroup c k h).tasks = s.tasks := by unfold State.modGroup; split <;> rfl
@[simp] theorem State.modGroup_nextTask (s : State) (c k : Nat) (h : Group → Group) : (s.modGroup c k h).nextTask = s.nextTask := by unfold State.modGroup; split <;> rfl
@[simp] theorem State.modGroup_saved (s : State) (c k : Nat) (h : Group → Group) : (s.modGroup c k h).saved = s.saved := by unfold State.modGroup; split <;> rfl
@[simp] theorem State.modGroup_aways (s : State) (c k : Nat) (h : Group → Group) : (s.modGroup c k h).aways = s.aways := by unfold State.modGroup; split <;> rfl
@[simp] theorem State.modGroup_queues (s : State) (c k : Nat) (h : Group → Group) : (s.modGroup c k h).queues = s.queues := by unfold State.modGroup; split <;> rfl
@[simp] theorem State.modGroup_trowel (s : State) (c k : Nat) (h : Group → Group) : (s.modGroup c k h).trowel = s.trowel := by unfold State.modGroup; split <;> rfl
@[simp] theorem State.modGroup_fabric (s : State) (c k : Nat) (h : Group → Group) : (s.modGroup c k h).fabric = s.fabric := by unfold State.modGroup; split <;> rfl
@[simp] theorem State.modGroup_dies (s : State) (c k : Nat) (h : Group → Group) : (s.modGroup c k h).dies = s.dies := by unfold State.modGroup; split <;> rfl
@[simp] theorem State.modGroup_belowCount (s : State) (c k : Nat) (h : Group → Group) : (s.modGroup c k h).belowCount = s.belowCount := by unfold State.modGroup; split <;> rfl
@[simp] theorem State.modGroup_powerLimit (s : State) (c k : Nat) (h : Group → Group) : (s.modGroup c k h).powerLimit = s.powerLimit := by unfold State.modGroup; split <;> rfl
@[simp] theorem State.modGroup_powered (s : State) (c k : Nat) (h : Group → Group) : (s.modGroup c k h).powered = s.powered := by unfold State.modGroup; split <;> rfl
@[simp] theorem State.modGroup_ucie (s : State) (c k : Nat) (h : Group → Group) : (s.modGroup c k h).ucie = s.ucie := by unfold State.modGroup; split <;> rfl
@[simp] theorem State.modGroup_msgs (s : State) (c k : Nat) (h : Group → Group) : (s.modGroup c k h).msgs = s.msgs := by unfold State.modGroup; split <;> rfl
@[simp] theorem State.modGroup_replies (s : State) (c k : Nat) (h : Group → Group) : (s.modGroup c k h).replies = s.replies := by unfold State.modGroup; split <;> rfl

end Sys2Proof.Machine
end

