-- ==== Sys2Proof/Laws/Ops.lean ====
section
/-! SUPPORT. What the shared operations of Machine/Ops.lean can do, said once: a slot after a group is put there, and how a
scalar word answers when it is ready. -/

namespace Sys2Proof.Machine

/-! ## Cores and slots -/

/-- A core written reads as written, where it is not the core at reset. -/
theorem core_setCore_self (s : State) (c : Nat) {v : Core} (h : v ≠ .empty) : (s.setCore c v).core c = v := by
  simp [State.core, State.setCore, FMap.set, h]

theorem core_setCore_ne (s : State) {c j : Nat} (v : Core) (h : j ≠ c) : (s.setCore c v).core j = s.core j :=
  FMap.get_set_ne _ _ v h

/-- The core of a slot that has just been written, where the slot is not empty. -/
theorem core_setSlot_self (s : State) (c k : Nat) {v : Slot} (h : v ≠ .empty) :
    (s.setSlot c k v).core c = { s.core c with slots := FMap.put (s.core c).slots k v } := by
  have hc : ({ s.core c with slots := FMap.set .empty (s.core c).slots k v } : Core) ≠ .empty := by
    intro e
    have e2 := congrArg (fun x => FMap.get Slot.empty (Core.slots x) k) e
    simp only [FMap.set, h, if_false, FMap.get_put_self] at e2
    exact h e2
  have := core_setCore_self s c hc
  simpa only [State.setSlot, FMap.set, h, if_false] using this

theorem core_setSlot_ne (s : State) {c j k : Nat} (v : Slot) (h : j ≠ c) : (s.setSlot c k v).core j = s.core j :=
  core_setCore_ne _ _ h

/-- A slot written reads as written. -/
theorem slot_setSlot_self (s : State) (c k : Nat) {v : Slot} (h : v ≠ .empty) : (s.setSlot c k v).slot c k = v := by
  unfold State.slot; rw [core_setSlot_self s c k h]; simp

/-- A slot written leaves every other slot alone. -/
theorem slot_setSlot_ne (s : State) {c k c' k' : Nat} {v : Slot} (hv : v ≠ .empty) (h : ¬(c' = c ∧ k' = k)) :
    (s.setSlot c k v).slot c' k' = s.slot c' k' := by
  unfold State.slot
  by_cases hc : c' = c
  · subst hc; rw [core_setSlot_self s c' k hv]; exact FMap.get_put_ne _ _ v fun e => h ⟨rfl, e⟩
  · rw [core_setSlot_ne s v hc]

theorem slot_withGroup_ne_empty (sl : Slot) (g : Group) : { sl with group := some g } ≠ Slot.empty := by simp [Slot.empty]

/-- The slot of a group put in a slot. -/
theorem slot_setGroup_self (s : State) (c k : Nat) (g : Group) : (s.setGroup c k g).slot c k = { s.slot c k with group := some g } :=
  slot_setSlot_self s c k (slot_withGroup_ne_empty _ g)

/-- A group put in a slot leaves every other slot alone. -/
theorem slot_setGroup_ne (s : State) {c k c' k' : Nat} (g : Group) (h : ¬(c' = c ∧ k' = k)) :
    (s.setGroup c k g).slot c' k' = s.slot c' k' := slot_setSlot_ne s (slot_withGroup_ne_empty _ g) h

/-- The group put in a slot is the slot's group. -/
@[simp] theorem group_setGroup_self (s : State) (c k : Nat) (g : Group) : (s.setGroup c k g).group? c k = some g := by
  unfold State.group?; rw [slot_setGroup_self]

theorem group_setGroup_ne (s : State) {c k c' k' : Nat} (g : Group) (h : ¬(c' = c ∧ k' = k)) :
    (s.setGroup c k g).group? c' k' = s.group? c' k' := by
  unfold State.group?; rw [slot_setGroup_ne s g h]

@[simp] theorem group_put_self (s : State) (g : Group) : (s.put g).group? s.curCore s.curSlot = some g :=
  group_setGroup_self s _ _ g

theorem group_put_ne (s : State) {c k : Nat} (g : Group) (h : ¬(c = s.curCore ∧ k = s.curSlot)) :
    (s.put g).group? c k = s.group? c k := group_setGroup_ne s g h

/-- What a core keeps when a group is put in one of its slots. -/
theorem core_setGroup_self (s : State) (c k : Nat) (g : Group) :
    (s.setGroup c k g).core c = { s.core c with slots := FMap.put (s.core c).slots k { s.slot c k with group := some g } } :=
  core_setSlot_self s c k (slot_withGroup_ne_empty _ g)

/-- The later of two groups put in a slot stands. -/
@[simp] theorem setGroup_setGroup (s : State) (c k : Nat) (g h : Group) : (s.setGroup c k h).setGroup c k g = s.setGroup c k g := by
  have e1 := slot_setGroup_self s c k h
  have e2 := core_setGroup_self s c k h
  have n1 := slot_withGroup_ne_empty (s.slot c k) g
  have n2 := slot_withGroup_ne_empty (s.slot c k) h
  have hc : ∀ sl : Slot, ({ s.core c with slots := FMap.put (s.core c).slots k { sl with group := some h } } : Core) ≠ .empty := by
    intro sl e
    have := congrArg (fun x => FMap.get Slot.empty (Core.slots x) k) e
    simp only [FMap.get_put_self] at this
    exact slot_withGroup_ne_empty sl h this
  have hg : ∀ sl : Slot, ({ s.core c with slots := FMap.put (s.core c).slots k { sl with group := some g } } : Core) ≠ .empty := by
    intro sl e
    have := congrArg (fun x => FMap.get Slot.empty (Core.slots x) k) e
    simp only [FMap.get_put_self] at this
    exact slot_withGroup_ne_empty sl g this
  have key : ∀ (u : State) (v : Group), u.setGroup c k v
      = u.setCore c { u.core c with slots := FMap.put (u.core c).slots k { u.slot c k with group := some v } } := by
    intro u v
    simp only [State.setGroup, State.setSlot, FMap.set, slot_withGroup_ne_empty, if_false]
  rw [key _ g, e1, e2, key s g, key s h]
  simp only [FMap.put_put, State.setCore, FMap.set, hc, hg, if_false]

/-- A change of the group just put in a slot. -/
@[simp] theorem modGroup_setGroup (s : State) (c k : Nat) (h : Group) (f : Group → Group) :
    (s.setGroup c k h).modGroup c k f = s.setGroup c k (f h) := by
  simp [State.modGroup]

@[simp] theorem put_put (s : State) (g h : Group) : (s.put h).put g = s.put g := setGroup_setGroup s _ _ g h

/-- A core that holds a group has slots. -/
theorem slots_ne_of_group {s : State} {c k : Nat} {g : Group} (h : s.group? c k = some g) : (s.core c).slots ≠ [] := by
  intro e; simp [State.group?, State.slot, e, Slot.empty] at h

theorem Core.ne_empty_of_slots {v : Core} (h : v.slots ≠ []) : v ≠ .empty := fun e => h (by rw [e]; rfl)

/-- A core with slots reads as written. -/
theorem core_setCore_slots (s : State) (c : Nat) {v : Core} (h : v.slots ≠ []) : (s.setCore c v).core c = v :=
  core_setCore_self s c (Core.ne_empty_of_slots h)

/-- A core that is written with its slots as they were holds the same groups. -/
theorem group_setCore (s : State) {c : Nat} (v : Core) (hv : v.slots = (s.core c).slots) (h : (s.core c).slots ≠ []) (j k : Nat) :
    (s.setCore c v).group? j k = s.group? j k := by
  unfold State.group? State.slot
  by_cases hj : j = c
  · subst hj; rw [core_setCore_slots _ _ (by rw [hv]; exact h), hv]
  · rw [core_setCore_ne _ _ hj]

/-! ## x registers -/

@[simp] theorem Group.x_zero (g : Group) : g.x 0 = 0 := rfl

@[simp] theorem Group.run_x (g : Group) (r : Nat) : g.run.x r = g.x r := rfl

@[simp] theorem Group.advance_x (g : Group) (r : Nat) : g.advance.x r = g.x r := rfl

@[simp] theorem Group.setPc_x (g : Group) (pc : Word) (r : Nat) : (g.setPc pc).x r = g.x r := rfl

@[simp] theorem Group.fold_x (g : Group) (f : BitVec 17) (r : Nat) : (g.fold f).x r = g.x r := rfl

@[simp] theorem Group.run_tagged (g : Group) (r : Nat) : g.run.tagged r = g.tagged r := rfl

@[simp] theorem Group.run_mask (g : Group) (m : Nat) : g.run.mask m = g.mask m := rfl

@[simp] theorem Group.run_allFalse (g : Group) (m : Nat) : g.run.allFalse m = g.allFalse m := rfl

@[simp] theorem Group.run_stops (g : Group) (f : FlagSet) : g.run.stops f = g.stops f := rfl

@[simp] theorem Group.run_operand (g : Group) (f : Fmt) (r : BitVec 5) : g.run.operand f r = g.operand f r := rfl

@[simp] theorem Group.run_operandBits (g : Group) (f : Fmt) (r : BitVec 5) : g.run.operandBits f r = g.operandBits f r := rfl

@[simp] theorem Group.run_signOf (g : Group) (f : Fmt) (r : BitVec 5) : g.run.signOf f r = g.signOf f r := rfl

/-- x0 discards what is written to it. -/
@[simp] theorem Group.setX_zero (g : Group) (v : Word) : g.setX 0 v = g := rfl

/-- An x register other than the one written is unchanged. -/
theorem Group.setX_x_ne (g : Group) {r j : Nat} (v : Word) (h : j ≠ r) : (g.setX r v).x j = g.x j := by
  unfold Group.setX; split
  · rfl
  · simp only [Group.x]; rw [FMap.get_set_ne _ _ _ h]

/-- The x register written reads as written, for a nonzero value or canonical registers. -/
theorem Group.setX_x_self (g : Group) {r : Nat} (v : Word) (hr : r ≠ 0) (h : FMap.wf 0 g.sca.x = true) : (g.setX r v).x r = v := by
  have hr' : (r == 0) = false := by simp [hr]
  simp only [Group.setX, Group.x, hr']
  exact FMap.get_set_self _ _ _ _ h

/-! ## Words that are ready -/

/-- A scalar word that reads registers `rs` goes on when it is ready. -/
theorem withRegs_ready {s : State} {g : Group} {rs : List (BitVec 5)} (h : Ready s g rs) (f : Group → Out) :
    withRegs s (rs.map (·.toNat)) f = f g.run := by
  have h5 : (rs.map (·.toNat)).any g.run.tagged = false := by
    rw [List.any_eq_false]; intro r hr; obtain ⟨b, hb, rfl⟩ := List.mem_map.1 hr
    simp [h.untagged b hb]
  simp only [withRegs, withBoundary, withGroup, h.powered, h.group, Group.run_sca_openWords, h.closed, h5]; simp

/-- A word at a convoy boundary goes on when it is ready. -/
theorem withBoundary_ready {s : State} {g : Group} {rs : List (BitVec 5)} (h : Ready s g rs) (f : Group → Out) :
    withBoundary s f = f g.run := by
  simp only [withBoundary, withGroup, h.powered, h.group, Group.run_sca_openWords, h.closed]; simp

/-- A word goes on when the slot holds a group. -/
theorem withGroup_ready {s : State} {g : Group} {rs : List (BitVec 5)} (h : Ready s g rs) (f : Group → Out) :
    withGroup s f = f g.run := by
  simp only [withGroup, h.powered, h.group]; simp

theorem withRegs_ready1 {s : State} {g : Group} {a : BitVec 5} (h : Ready s g [a]) (f : Group → Out) :
    withRegs s [a.toNat] f = f g.run := withRegs_ready h f

theorem withRegs_ready2 {s : State} {g : Group} {a b : BitVec 5} (h : Ready s g [a, b]) (f : Group → Out) :
    withRegs s [a.toNat, b.toNat] f = f g.run := withRegs_ready h f

theorem withRegs_ready3 {s : State} {g : Group} {a b c : BitVec 5} (h : Ready s g [a, b, c]) (f : Group → Out) :
    withRegs s [a.toNat, b.toNat, c.toNat] f = f g.run := withRegs_ready h f

theorem withRegs_ready0 {s : State} {g : Group} {rs : List (BitVec 5)} (h : Ready s g rs) (f : Group → Out) :
    withRegs s [] f = f g.run := by
  simp only [withRegs, withBoundary_ready h]; simp

/-- Fewer registers to wait for. -/
theorem Ready.mono {s : State} {g : Group} {rs rs' : List (BitVec 5)} (h : Ready s g rs) (hs : ∀ r ∈ rs', r ∈ rs) : Ready s g rs' :=
  ⟨h.powered, h.group, h.closed, fun r hr => h.untagged r (hs r hr)⟩

/-- x d ← f(x a, x b), when ready. -/
theorem regOp2_ready {s : State} {g : Group} {d a b : BitVec 5} (h : Ready s g [a, b]) (f : Word → Word → Word) :
    regOp2 s d a b f = writes s g d (f (g.x a.toNat) (g.x b.toNat)) := by
  simp only [regOp2, withRegs_ready2 h]; rfl

/-- x d ← f(x a), when ready. -/
theorem regOp1_ready {s : State} {g : Group} {d a : BitVec 5} (h : Ready s g [a]) (f : Word → Word) :
    regOp1 s d a f = writes s g d (f (g.x a.toNat)) := by
  simp only [regOp1, withRegs_ready1 h]; rfl

/-- x d ← f(pc, old x d), when ready. -/
theorem immOp_ready {s : State} {g : Group} {d : BitVec 5} {rs : List (BitVec 5)} (h : Ready s g rs) (f : Word → Word → Word) :
    immOp s d (rs.map (·.toNat)) f = writes s g d (f g.sca.pc (g.x d.toNat)) := by
  simp only [immOp, withRegs_ready h]; rfl

/-- A scalar instruction with flags writes and folds, unless one of them is enabled. -/
theorem finishFlags_folds {s : State} {g : Group} {d : Nat} {v : Word} {f : FlagSet} (h : g.stops f = false) :
    finishFlags s g d v f = finish s ((g.setX d v).fold f) := by simp [finishFlags, h]

theorem finishFlags_traps {s : State} {g : Group} {d : Nat} {v : Word} {f : FlagSet} (h : g.stops f = true) :
    finishFlags s g d v f = trapHere s g cArithmetic 0 := by simp [finishFlags, h]

end Sys2Proof.Machine
end

