-- ==== Sys2Proof/Tests/Slice0.lean ====
section
/-! SUPPORT. The model's own tests: ill-formed terms, words written out from the encodings, worked examples of the manual, and
for every statement a state that meets its hypotheses. -/

set_option Elab.async false

namespace Sys2Proof.Tests

open Sys2Proof Sys2Proof.Machine

/-! ## Ill-formed terms: one for each check of WellFormed.lean -/

theorem test_refuses_same_precision : (Instr.fcvtp 1 2 3 3).check = some .badFormat := by decide
theorem test_refuses_mask_index_of_a_branch : (Instr.bmz 12 0).check = some .badIndex := by decide
theorem test_refuses_reserved_class : (Instr.setvti 1 0 0 7 7 7).check = some .badType := by decide
theorem test_refuses_reserved_rounding : (Instr.setvti 1 0 5 7 7 2).check = some .badType := by decide
theorem test_refuses_f64_of_five_slices : (Instr.setvti 1 0 0 4 4 2).check = some .badType := by decide
theorem test_refuses_tile_format : (Instr.tstacc 0 1 2 11).check = some .badFormat := by decide
theorem test_refuses_collective_operation : (Instr.allred 1 2 3 0).check = some .badFunction := by decide
theorem test_refuses_collective_format : (Instr.redscat 1 2 0 4).check = some .badFormat := by decide
theorem test_refuses_register_above_31 : (Instr.vadd 1 0 0 32 0 0).check = some .badForm := by decide
theorem test_refuses_execution_mask : (Instr.vadd 0 0 0 0 13 0).check = some .badIndex := by decide
theorem test_refuses_carry_without_mask : (Instr.vadc 0 0 0 0 0 0).check = some .badIndex := by decide
theorem test_refuses_compare_mask : (Instr.vcmplt 0 12 0 0 0 0).check = some .badIndex := by decide
theorem test_refuses_slide_by_name : (Instr.vslup 0 0 0 0 0 0).check = some .badForm := by decide
theorem test_refuses_negative_slide : (Instr.vslup 2 0 0 32 0 0).check = some .badForm := by decide
theorem test_refuses_slide1_from_port : (Instr.vsl1up 3 0 0 0 0 0).check = some .badForm := by decide
theorem test_refuses_iota_without_mask : (Instr.viota 0 0 0).check = some .badIndex := by decide
theorem test_refuses_dot_with_register : (Instr.vdot4 1 0 0 0 0 0).check = some .badForm := by decide
theorem test_refuses_reduction_from_port : (Instr.vredsum 3 0 0 0 0 0).check = some .badForm := by decide
theorem test_refuses_mask_operand : (Instr.mand 0 12 0 0).check = some .badIndex := by decide
theorem test_refuses_load_policy : (Instr.vld 0 1 0 3 0 0).check = some .badPolicy := by decide
theorem test_refuses_store_policy : (Instr.vst 0 1 0 0 2 0 0).check = some .badPolicy := by decide
theorem test_refuses_pair_above_x31 : (Instr.vlds 0 31 0 0 0 0).check = some .badIndex := by decide
theorem test_refuses_one_field : (Instr.vldseg 0 1 0 0 0 0).check = some .badFunction := by decide
theorem test_refuses_fields_past_name_63 : (Instr.vldseg 60 1 0 4 0 0).check = some .badRange := by decide
theorem test_refuses_spill_past_slice_767 : (Instr.vspill 1 767 1).check = some .badRange := by decide
theorem test_refuses_cas_pair : (Instr.amoCas 1 2 31 4 1).check = some .badIndex := by decide
theorem test_refuses_copy_target : (Instr.copyLinear 1 2 3 3).check = some .badFunction := by decide
theorem test_refuses_fill_format : (Instr.copyFill 1 2 3 11 0).check = some .badFormat := by decide
theorem test_refuses_arrive_mask : (Instr.arrive 1 13).check = some .badIndex := by decide

/-! ## Words written out bit by bit from the encodings -/

theorem test_decodes_add : decodeWord 0b0000001_00011_00100_00101_0000000000 = .ok (.add 3 4 5) := by decide +kernel
theorem test_decodes_subw : decodeWord 0b0000001_11111_00001_00010_0000100000 = .ok (.subw 31 1 2) := by decide +kernel
theorem test_decodes_sari : decodeWord 0b0000110_00101_00110_10_0000000_111111 = .ok (.sari 5 6 63) := by decide +kernel
theorem test_decodes_luih : decodeWord 0b0001011_00001_10000000000000000001 = .ok (.luih 1 0x80001) := by decide +kernel
theorem test_decodes_fmad : decodeWord 0b0001100_00001_00010_00011_01_00000111 = .ok (.fmad 1 2 3 1) := by decide +kernel
theorem test_decodes_bgen : decodeWord 0b0010101_00001_00010_111111111111111 = .ok (.bgen 1 2 0x7FFF) := by decide +kernel
theorem test_decodes_jal : decodeWord 0b0010110_1111111111111111111111110 = .ok (.jal 0x1FFFFFE) := by decide +kernel
theorem test_decodes_bmnz : decodeWord 0b0011001_01011_00000_000000000000001 = .ok (.bmnz 11 1) := by decide +kernel
theorem test_decodes_mfcr : decodeWord 0b0011011_00111_00000_00000_1000000000 = .ok (.mfcr 7 0x200) := by decide +kernel
theorem test_decodes_vmv_port2 : decodeWord 0x8D820040 = .ok (.vmv 3 1 2 0 0) := by decide +kernel
theorem test_decodes_illegal_word : (decodeWord 0).toOption = none := by decide +kernel
theorem test_decodes_all_ones : (decodeWord 0xFFFFFFFF).toOption = none := by decide +kernel
theorem test_decodes_reserved_major : (decodeWord (0x0D * 2 ^ 25)).toOption = none := by decide +kernel
theorem test_decodes_nonzero_fixed_field : (decodeWord (0x46A58000 + 1)).toOption = none := by decide +kernel
theorem test_decodes_vlenq : decodeWord 0x46A58000 = .ok (.vlenq 10 11) := by decide +kernel
theorem test_decodes_wmax : decodeWord 0xF0A29802 = .ok (.wmax 10 5 6) := by decide +kernel
theorem test_decodes_qdrain : decodeWord 0xF6000023 = .ok (.qdrain 2) := by decide +kernel
theorem test_decodes_cabort : decodeWord 0x4C063404 = .ok (.cabort 12 13) := by decide +kernel
theorem test_decodes_setvti_flushing : decodeWord 0x400043BA = .ok (.setvti 0 1 0 7 7 2) := by decide +kernel

/-! ## Worked examples of the manual -/

/-- R127: DIV -7, 2 gives -3 and REM -7, 2 gives -1. -/
theorem test_div_truncates : divS (BitVec.ofInt 64 (-7)) 2 = BitVec.ofInt 64 (-3) ∧ remS (BitVec.ofInt 64 (-7)) 2 = BitVec.ofInt 64 (-1) := by
  decide
/-- R127: -2^63 by -1 gives -2^63 and 0. -/
theorem test_div_overflow : divS (BitVec.intMin 64) (BitVec.allOnes 64) = BitVec.intMin 64 ∧ remS (BitVec.intMin 64) (BitVec.allOnes 64) = 0 := by
  decide
/-- R133: 2.5 and -2.5 in f32 under RNE, RTZ, RUP, RDN, RNA. -/
theorem test_fcvti_rounding :
    (([0, 1, 2, 3, 4] : List Nat).map fun rm => (floatToInt rm 0 64 (readFloat (envOf 0) .f32 0x40200000)).1)
      = [2, 2, 3, 2, 3] := by decide +kernel
theorem test_fcvti_rounding_negative :
    (([0, 1, 2, 3, 4] : List Nat).map fun rm => BitVec.ofNat 64 (floatToInt rm 0 64 (readFloat (envOf 0) .f32 0xC0200000)).1)
      = [-2, -2, -2, -3, -3] := by decide +kernel
/-- R98: 13 slices at vlmax 128 take 912 bytes. -/
theorem test_frame_rounds_up : 48 * ((7 * 128 + 47) / 48) = 912 := by decide
/-- R156: the bf16 VFMA of 1 + 2^-7, 1 - 2^-8 and -1 is 0x3B7E without a flag. -/
theorem test_fma_rounds_once :
    let e := envOf 0
    let f : Fmt := .bf16
    let r := fmaVal e false false (readFloat e f 0x3F81) (readFloat e f 0x3F7F) (readFloat e f 0xBF80)
    (roundTo e f r.1).1 = 0x3B7E ∧ r.2 ||| (roundTo e f r.1).2 = 0 := by decide +kernel
/-- R156: a product and then a sum give +0 instead. -/
theorem test_mul_rounds_first :
    let e := envOf 0
    let f : Fmt := .bf16
    let p := roundTo e f (mulVal (readFloat e f 0x3F81) (readFloat e f 0x3F7F)).1
    p.1 = 0x3F80 ∧ (roundTo e f (addVal e (readFloat e f p.1) (readFloat e f 0xBF80)).1).1 = 0 := by decide +kernel
/-- R121: the block sum of eight bf16 products rounds to 0x4B800004 in f32. -/
theorem test_block_sum_rounds_once :
    let e := envOf 0
    let b := readFloat e .bf16
    let ps := (0x4580 :: List.replicate 7 0x3F80).map fun x => mulVal (b x) (b x)
    (roundTo e .f32 (exactSum e (ps.map (·.1))).1).1 = 0x4B800004 := by decide +kernel
/-- R226: the check value of nine digits, as every CRC-32C gives it. -/
theorem test_crc32c : crc32c ([0x31, 0x32, 0x33, 0x34, 0x35, 0x36, 0x37, 0x38, 0x39] : List Byte) = 0xE3069283 := by decide +kernel
/-- R390: a die at level 1 is capped at three quarters of 1,024 elements. -/
theorem test_cap_level_one : capElements 1 32 = 768 := by decide

/-! ## States that meet the hypotheses of the statements -/

/-- A group at level U under the page tables at 0x4000, with some registers. -/
def lab (x : FMap Word) : Group :=
  { sca := { x := x, pc := 0x1000, level := .u, status := .running, openWords := [], openPc := 0, latch := 0, tags := [], serial := 1,
             yieldUntil := 0 }
    vec := { vl := 4, vlmax := 128, vst := 0, sc := 7, vt := 0x3B8, fs := 0 }
    gra := { gm := 0, gn := 0, gk := 0, gf := 0 }
    ord := { wseq := 5, wdone := 4, entries := [], counted := [], floor := [], pw := 0, gate := 0, gcons := 0 }
    trp := { trpc := 0, tres := 0x3000, tcause := 0, taddr := 0, telem := 0, tvec := 0x2000, tsv0 := 0, tsv1 := 0, ptb := 0x4000, asid := 3,
             frozen := false, pending := [], held := none }
    idn := { team := 0, cluster := 0, cidx := 0, gidx := 0, share := 1, gpri := 0, tattr := 0, alloc := 128 }
    fil := { slices := [], masks := [], tiles := [], latch := none, ports := [], badSlices := [], badMasks := [], badTiles := [], badLatch := [] }
    sto := { baseUnits := 1, swing := [], accUnits := 0, honoured := none }
    que := { vq := [], mq := [], cq := [], jobs := [], bad := [] } }

/-- The group in slot 0 of core 0, its page table mapping 192 MiB and more at their own addresses with every right. -/
def labState (g : Group) : State :=
  { State.reset with
    mem := memWrite [] (cellsAt 0x4000 (toBytes 8 0x8001) ++ cellsAt 0x8000 (toBytes 8 0x3F))
    cores := [(0, { Core.empty with slots := [(0, { Slot.empty with group := some g })] })] }

/-- The entry of a core in the core map, written out: in service with nothing mapped out. -/
def mapCells (core : Nat) : List Host.Cell := cellsAt (Config.cmapBase + 8 * core) (toBytes 8 (coreidImage core))

/-- The same with the entry of core 0 in the core map as it is where nothing is mapped out. -/
def mappedState (g : Group) : State := { labState g with mem := mapCells 0 ++ (labState g).mem }

/-- The registers most witnesses use: -7 and 2, an address, and the largest value. -/
def labX : FMap Word := [(1, BitVec.ofInt 64 (-7)), (2, 2), (3, 0x20000), (4, BitVec.allOnes 64), (5, BitVec.intMin 64)]

def isNext : Out → Bool
  | .next _ => true
  | _ => false

theorem next_of {o : Out} (h : isNext o = true) : ∃ t, o = .next t := by
  cases o with
  | next t => exact ⟨t, rfl⟩
  | fault f => simp [isNext] at h
  | refused r => simp [isNext] at h

/-- A slot's group is in hand. -/
theorem ready_lab (g : Group) (rs : List (BitVec 5)) (h : g.sca.openWords = []) (u : ∀ r ∈ rs, g.tagged r.toNat = false) :
    Ready (labState g) g rs := ⟨rfl, rfl, h, u⟩

theorem some_of {α : Type} {o : Option α} (h : o.isSome = true) : ∃ a, o = some a := Option.isSome_iff_exists.mp h

theorem ok_of {σ ε α : Type} {p : σ × Except ε α} {a : α} (h : p.2.toOption = some a) : ∃ s, p = (s, .ok a) := by
  obtain ⟨s, r⟩ := p
  cases r with
  | ok b => simp [Except.toOption] at h; exact ⟨s, by rw [h]⟩
  | error e => simp [Except.toOption] at h

/-- One span that a translation serves. -/
def isSpan (sps : List Span) (a : Word) (n : Nat) (p : Ref → Bool) : Bool :=
  match sps with
  | [sp] => sp.addr == a && sp.len == n && (match sp.ref with
    | .ok r => p r
    | .error _ => false)
  | _ => false

theorem one_span {sps : List Span} {a : Word} {n : Nat} (p : Ref → Bool) (h : isSpan sps a n p = true) :
    ∃ r, sps = [{ addr := a, len := n, ref := .ok r }] ∧ p r = true := by
  unfold isSpan at h
  split at h
  next sp =>
    obtain ⟨a', n', f⟩ := sp
    cases f with
    | error c => simp at h
    | ok r =>
      simp at h
      obtain ⟨⟨h1, h2⟩, h3⟩ := h
      exact ⟨r, by rw [h1, h2], h3⟩
  next => simp at h

/-! ### Encodings and the machine as a whole -/

theorem wit_DecodeEncode : (Instr.lui 31 0xFFFFF).WellFormed ∧ encode (.lui 31 0xFFFFF) = some 0x13FFFFFF := by decide
theorem wit_EncodeDecode : 0xFC963402 < 2 ^ 32 ∧ decodeWord 0xFC963402 = .ok (.ppub 9 12 13) := by decide +kernel

/-- A machine whose next step fetches a word. -/
noncomputable def placed (w : Nat) : State := State.reset.withFetchWord 32 w

/-- The same with the stream at another address. -/
noncomputable def placedAt (w : Nat) (pc : Word) : State :=
  match (placed w).group? 0 0 with
  | some g => (placed w).setGroup 0 0 (g.setPc pc)
  | none => placed w

/-- What fetching at the stream of slot 0 finds: a word, or a fault's code. -/
noncomputable def fetched (s : State) : Option (Except Nat (BitVec 32)) :=
  (s.group? 0 0).map fun g => match (fetchWord (serve s 0 0) 0 0 g).2 with
    | .ok w => .ok w
    | .error f => .error f.1

noncomputable def atStream (s : State) : Bool := s.powered && decide (s.agenda = []) && decide (nextMove s = .stream 0 0)

theorem wit_StepRunsDecoded_word : atStream (placed 0x04528678) = true ∧ fetched (placed 0x04528678) = some (.ok 0x04528678)
    ∧ decodeWord 0x04528678 = .ok (.addi 5 5 0x678) := by decide +kernel
theorem wit_StepRunsDecoded_undecodable : atStream (placed 0) = true ∧ fetched (placed 0) = some (.ok 0)
    ∧ (decodeWord 0).toOption = none := by decide +kernel
theorem wit_StepRunsDecoded_fault : atStream (placedAt 0 0x1000000) = true
    ∧ fetched (placedAt 0 0x1000000) = some (.error 0x06) := by decide +kernel
theorem wit_StepRunsDecoded_misaligned : atStream (placedAt 0 2) = true ∧ fetched (placedAt 0 2) = some (.error 0x05) := by decide +kernel
theorem wit_StepRunsDecoded_aligned :
    ((placed 0x04528678).group? 0 0).map (fun g =>
      let s0 := serve (placed 0x04528678) 0 0
      let sps := spans s0 (ctxOf s0 0 0 g) .fetch g.sca.pc 4
      let s2 := touchSpans s0 (ctxOf s0 0 0 g) false sps
      ((spanRefs sps).map (·.1) == [placePage]) && (accessFault sps).isNone && !poisoned s2 (placePage / 48)
        && g.sca.pc.toNat % 4 == 0 && !((s2.core 0).icache.any fun e => e.1 == icacheKey (ctxOf s0 0 0 g).asid g.sca.pc.toNat))
      = some true := by decide +kernel

theorem wit_StepKeepsMemory : Safe (placed 0x04528678) ∧ isNext (step (placed 0x04528678)) = true := by
  constructor
  · show Memory.wf (placed 0x04528678).mem = true; decide +kernel
  · decide +kernel
theorem wit_MemoryReadsWrites : Safe State.reset := rfl
theorem wit_ScalarFrames : registersWritten (.fmad 3 1 2 0) = some [3] ∧ (labState (lab labX)).group? 0 0 = some (lab labX)
    ∧ isNext (exec (.fmad 3 1 2 0) (labState (lab labX))) = true := ⟨rfl, rfl, by decide +kernel⟩
theorem wit_ScalarFrames_waits :
    let g := { lab labX with sca := { (lab labX).sca with tags := [(1, [1])] } }
    registersWritten (.add 3 1 2) = some [3] ∧ isNext (exec (.add 3 1 2) (labState g)) = true := ⟨rfl, by decide +kernel⟩
theorem wit_UserWordsKeepPrivilege : encode (.std 1 3 0 1) = some 0xEC118001 ∧ (labState (lab labX)).group? 0 0 = some (lab labX)
    ∧ (lab labX).sca.level = .u ∧ isNext (exec (.std 1 3 0 1) (labState (lab labX))) = true := ⟨by decide, rfl, rfl, by decide +kernel⟩

/-! ### Scalar words -/

theorem wit_IntegerResults : Ready (labState (lab labX)) (lab labX) [1, 2] := ready_lab _ _ rfl (by decide)
theorem wit_IntegerResults_immediate : Ready (labState (lab labX)) (lab labX) [31] := ready_lab _ _ rfl (by decide)
theorem wit_DivisionResults_zero : Ready (labState (lab labX)) (lab labX) [1, 0] ∧ (lab labX).x 0 = 0 := ⟨ready_lab _ _ rfl (by decide), rfl⟩
theorem wit_DivisionResults_overflow : Ready (labState (lab labX)) (lab labX) [5, 4] ∧ (lab labX).x 5 = BitVec.intMin 64
    ∧ (lab labX).x 4 = BitVec.allOnes 64 := ⟨ready_lab _ _ rfl (by decide), by decide, by decide⟩
theorem wit_DivisionResults_other : Ready (labState (lab labX)) (lab labX) [1, 2] ∧ (lab labX).x 2 ≠ 0 ∧ ((lab labX).x 1).toInt ≤ 0 :=
  ⟨ready_lab _ _ rfl (by decide), by decide, by decide⟩
theorem wit_DivisionResults_positive : Ready (labState (lab labX)) (lab labX) [3, 4] ∧ (lab labX).x 4 ≠ 0 ∧ 0 ≤ ((lab labX).x 3).toInt :=
  ⟨ready_lab _ _ rfl (by decide), by decide, by decide⟩
theorem wit_CompareCountExtend : Ready (labState (lab labX)) (lab labX) [4, 5] := ready_lab _ _ rfl (by decide)
theorem wit_CompareCountExtend_counts : Ready (labState (lab labX)) (lab labX) [5] := ready_lab _ _ rfl (by decide)
theorem wit_UpperImmediateResults : Ready (labState (lab labX)) (lab labX) [] ∧ Ready (labState (lab labX)) (lab labX) [5] :=
  ⟨ready_lab _ _ rfl (by decide), ready_lab _ _ rfl (by decide)⟩
/-- fs with every exception enabled. -/
def labTraps : Group := { lab labX with vec := { (lab labX).vec with fs := BitVec.allOnes 64 } }
theorem wit_FloatArithmetic_quiet : Ready (labState (lab labX)) (lab labX) [1, 2, 3] ∧ (lab labX).stops flagNV = false :=
  ⟨ready_lab _ _ rfl (by decide), by decide⟩
theorem wit_FloatArithmetic_traps : Ready (labState labTraps) labTraps [1, 2, 3] ∧ labTraps.stops flagNV = true :=
  ⟨ready_lab _ _ rfl (by decide), by decide⟩
theorem wit_FloatComparisonsAndSigns : Ready (labState (lab labX)) (lab labX) [1, 2] ∧ Ready (labState (lab labX)) (lab labX) [4] :=
  ⟨ready_lab _ _ rfl (by decide), ready_lab _ _ rfl (by decide)⟩
theorem wit_FloatConversion : Ready (labState (lab labX)) (lab labX) [4] := ready_lab _ _ rfl (by decide)
theorem wit_BranchResults : Ready (labState (lab labX)) (lab labX) [1, 1] ∧ Ready (labState (lab labX)) (lab labX) [1, 2] :=
  ⟨ready_lab _ _ rfl (by decide), ready_lab _ _ rfl (by decide)⟩

/-! ### Control flow, SYS and control registers -/

/-- A group with a mask whose only true bit is bit 127, the last below vlmax. -/
def labMask : Group := { lab labX with fil := { (lab labX).fil with masks := [(0, 1#1024 <<< 127)] } }
/-- A queued convoy. -/
def entry (i : Instr) (caps : List Word) : VEntry :=
  { serial := 1, pc := 0x1000, members := [i], caps := [caps], vl := 4, vt := 0x3B8, sc := 7, vlmax := 128, pw := 0, gate := 0,
    det := false, seq := 0, notify := false, wits := [], begun := false, done := none, prog := .fresh }
/-- A group whose vector queue holds a compare that writes mask 0. -/
def labQueued : Group := { lab labX with que := { (lab labX).que with vq := [entry (.vcmplt 0 0 1 2 0 0) []] } }
theorem wit_JumpsAndSystemCalls : Ready (labState (lab labX)) (lab labX) [] ∧ Ready (labState (lab labX)) (lab labX) [4] :=
  ⟨ready_lab _ _ rfl (by decide), ready_lab _ _ rfl (by decide)⟩
theorem wit_JumpsAndSystemCalls_mask_waits : Ready (labState labQueued) labQueued []
    ∧ (!labQueued.trp.frozen && maskQueued (labState labQueued) 0 0 labQueued.run 0) = true := ⟨ready_lab _ _ rfl (by decide), by decide +kernel⟩
theorem wit_JumpsAndSystemCalls_mask_zero : Ready (labState labMask) labMask []
    ∧ (!labMask.trp.frozen && maskQueued (labState labMask) 0 0 labMask.run 1) = false
    ∧ ∀ i, i < labMask.vec.vlmax → (labMask.mask 1).getLsbD i = false := ⟨ready_lab _ _ rfl (by decide), by decide +kernel, by decide +kernel⟩
theorem wit_JumpsAndSystemCalls_mask_nonzero : ¬ ∀ i, i < labMask.vec.vlmax → (labMask.mask 0).getLsbD i = false := by decide +kernel

/-- A group in its handler, with a prior level. -/
def labHandler (plev : Nat) (l : Level) : Group :=
  { lab labX with
    sca := { (lab labX).sca with level := l }
    trp := { (lab labX).trp with tcause := BitVec.ofNat 64 (plev * 2 ^ 12), frozen := true } }
theorem wit_ReturnFromTrap_user : Ready (labState (lab labX)) (lab labX) [] ∧ (lab labX).sca.level = .u := ⟨ready_lab _ _ rfl (by decide), rfl⟩
theorem wit_ReturnFromTrap_double : Ready (labState (labHandler 2 .s)) (labHandler 2 .s) [] ∧ (labHandler 2 .s).sca.level = .s
    ∧ (labHandler 2 .s).trp.tcause.toNat / 2 ^ 12 % 4 = 2 := ⟨ready_lab _ _ rfl (by decide), rfl, by decide⟩
theorem wit_ReturnFromTrap_returns : Ready (labState (labHandler 0 .s)) (labHandler 0 .s) [] ∧ (labHandler 0 .s).sca.level ≠ .u
    ∧ (labHandler 0 .s).trp.tcause.toNat / 2 ^ 12 % 4 = 0 ∧ (labState (labHandler 0 .s)).curCore < 288 :=
  ⟨ready_lab _ _ rfl (by decide), by decide, by decide, by decide⟩
/-- The group of firmware core 0. -/
def firmwareState (g : Group) (h : Bool) : State :=
  { labState g with
    curCore := 288
    cores := [(288, { Core.empty with slots := [(0, { Slot.empty with group := some g })], handler := h })] }
theorem wit_ReturnFromTrap_firmware : Ready (firmwareState (labHandler 2 .f) true) (labHandler 2 .f) [] ∧ 288 ≤ (firmwareState (labHandler 2 .f) true).curCore
    ∧ (labHandler 2 .f).sca.level ≠ .u ∧ ¬((labHandler 2 .f).sca.level = .s) := ⟨⟨rfl, rfl, rfl, by decide⟩, by decide, by decide, by decide⟩

/-- A group with an event latch. -/
def labLatch (l : BitVec 3) (st : Status) (y : Nat) : Group :=
  { lab [(1, 0x500000001), (2, 0)] with sca := { (lab [(1, 0x500000001), (2, 0)]).sca with latch := l, status := st, yieldUntil := y } }
theorem wit_StreamControl_latched : Ready (labState (labLatch 1 .running 0)) (labLatch 1 .running 0) [1]
    ∧ (labLatch 1 .running 0).sca.latch &&& ((labLatch 1 .running 0).x 1).extractLsb' 0 3 ≠ 0 := ⟨ready_lab _ _ rfl (by decide), by decide⟩
theorem wit_StreamControl_nothing : Ready (labState (labLatch 0 .running 0)) (labLatch 0 .running 0) [2] ∧ (labLatch 0 .running 0).x 2 = 0 :=
  ⟨ready_lab _ _ rfl (by decide), by decide⟩
theorem wit_StreamControl_waits : Ready (labState (labLatch 6 .running 0)) (labLatch 6 .running 0) [1]
    ∧ (labLatch 6 .running 0).sca.latch &&& ((labLatch 6 .running 0).x 1).extractLsb' 0 3 = 0
    ∧ ((labLatch 6 .running 0).x 1).extractLsb' 0 3 ≠ 0 := ⟨ready_lab _ _ rfl (by decide), by decide, by decide⟩
theorem wit_StreamControl_timeout : Holds (labState (labLatch 0 (.waiting (.waite 1 (some 0))) 0)) 0 0 (labLatch 0 (.waiting (.waite 1 (some 0))) 0)
    ∧ 0 ≤ (labState (labLatch 0 (.waiting (.waite 1 (some 0))) 0)).cyc 0 := ⟨⟨rfl, rfl⟩, by decide⟩
theorem wit_StreamControl_yieldExpiry : Holds { labState (labLatch 0 .running 16) with now := 16 } 0 0 (labLatch 0 .running 16)
    ∧ (labLatch 0 .running 16).sca.yieldUntil ≤ ({ labState (labLatch 0 .running 16) with now := 16 } : State).cyc 0 := ⟨⟨rfl, rfl⟩, by decide +kernel⟩

theorem wit_StreamControl_exit_user : Ready (labState (lab labX)) (lab labX) [] ∧ (lab labX).sca.level = .u := ⟨ready_lab _ _ rfl (by decide), rfl⟩
theorem wit_StreamControl_exit_frozen : Ready (labState (labHandler 0 .s)) (labHandler 0 .s) [] ∧ (labHandler 0 .s).sca.level ≠ .u
    ∧ (labHandler 0 .s).trp.frozen = true := ⟨ready_lab _ _ rfl (by decide), by decide, rfl⟩
/-- A group with a store not yet complete. -/
def labStores : Group := { lab labX with ord := { (lab labX).ord with wdone := 3 } }
theorem wit_StreamControl_fence_waits : Ready (labState labStores) labStores [] ∧ labStores.ord.wdone + 1 ≠ labStores.ord.wseq :=
  ⟨ready_lab _ _ rfl (by decide), by decide⟩
theorem wit_StreamControl_fence_passes : Ready (labState (lab labX)) (lab labX) [] ∧ (lab labX).ord.wdone + 1 = (lab labX).ord.wseq :=
  ⟨ready_lab _ _ rfl (by decide), by decide⟩

theorem wit_ControlReads_user : Ready (labState (lab labX)) (lab labX) [] ∧ ∀ e ∈ [(0x003 : Nat), 0x005, 0x006], quietFor (lab labX) e :=
  ⟨ready_lab _ _ rfl (by decide), fun _ _ _ => .inr ⟨rfl, rfl⟩⟩
theorem wit_ControlReads_privileged : Ready (labState (labHandler 0 .s)) (labHandler 0 .s) [] ∧ (labHandler 0 .s).sca.level ≠ .u :=
  ⟨ready_lab _ _ rfl (by decide), by decide⟩
theorem wit_ControlReads_refused : assigned 0 0x100 = true ∧ assigned 0 0x3FF = false ∧ (lab labX).sca.level = .u := by decide +kernel

/-- A group at level S that holds a value to write. -/
def labWrites (v : Word) : Group := { lab [(1, v)] with sca := { (lab [(1, v)]).sca with level := .s } }
def quietQueues (g : Group) : Prop := g.que.vq = [] ∧ g.que.mq = [] ∧ g.que.cq = [] ∧ g.ord.entries = []
theorem wit_ControlWrites_privileged : Ready (labState (labWrites 0x1000)) (labWrites 0x1000) [1] ∧ quietQueues (labWrites 0x1000)
    ∧ (labWrites 0x1000).sca.level ≠ .u ∧ ∀ n ∈ ([0x200, 0x201, 0x203, 0x205, 0x206, 0x207] : List Nat),
      writableValue (labState (labWrites 0x1000)) (labWrites 0x1000) n 0x1000 :=
  ⟨ready_lab _ _ rfl (by decide), ⟨rfl, rfl, rfl, rfl⟩, by decide, by unfold writableValue; decide +kernel⟩
theorem wit_ControlWrites_small : ∀ n ∈ ([0x100, 0x103, 0x104, 0x105, 0x121, 0x122, 0x126, 0x202, 0x204, 0x211] : List Nat),
    writableValue (labState (labWrites 1)) (labWrites 1) n 1 ∨ writableValue (labState (labWrites 0)) (labWrites 0) n 0 := by
  unfold writableValue; decide +kernel
theorem wit_ControlWrites_type : vtValid (vtMake 2 8 8 2 0 0 0 false) = true
    ∧ writableValue (labState (labWrites (vtMake 2 8 8 2 0 0 0 false))) (labWrites (vtMake 2 8 8 2 0 0 0 false)) 0x102
      (vtMake 2 8 8 2 0 0 0 false) := by
  unfold writableValue; decide +kernel
theorem wit_ControlWrites_tables : writableValue (labState (labWrites 0x8000)) (labWrites 0x8000) 0x210 0x8000 := by
  unfold writableValue; decide +kernel

theorem wit_ControlWrites_refused : assigned 0 0x105 = true ∧ (lab labX).sca.level = .u
    ∧ ¬ writableValue (labState (lab labX)) (lab labX) 0x005 ((lab labX).x 4) := by unfold writableValue; decide +kernel
theorem wit_ControlWrites_readonly : assigned 0 0x001 = true ∧ writable false (baseNumber 0x001) = 0
    ∧ (128 : Word) = readControl (labState (lab labX)) 0 0 (lab labX) 0x001 := by decide +kernel
theorem wit_ControlWrites_firmwareOnly : assigned 0 0x300 = true ∨ assigned 288 0x300 = true ∨ assigned 0 0x2FF = false := by decide +kernel
/-- A group at level S that writes the next epoch. -/
def labEpoch : Group := labWrites 0x80002100200108
theorem wit_ControlWrites_epoch : Ready (labState labEpoch) labEpoch [1] ∧ labEpoch.sca.level ≠ .u
    ∧ ((labEpoch.x 1).extractLsb' 37 11).toNat ≠ ((labState labEpoch).slot 0 0).epoch % 2048
    ∧ writableValue (labState labEpoch) labEpoch 0x124 (labEpoch.x 1) ∧ labEpoch.ord.wdone + 1 = labEpoch.ord.wseq
    ∧ ((labState labEpoch).slot 0 0).away.getLsbD 1 = false :=
  ⟨ready_lab _ _ rfl (by decide), by decide, by decide +kernel, by unfold writableValue; decide +kernel, by decide, by decide +kernel⟩
theorem wit_ControlWrites_epochRefused :
    let g := { labEpoch with ord := { labEpoch.ord with wdone := 3 } }
    writableValue (labState g) g 0x124 (g.x 1) ∧ g.ord.wdone + 1 ≠ g.ord.wseq := by unfold writableValue; decide +kernel

/-! ### Strips and grants -/

theorem wit_VectorTypeResults : vtValid 0x3B8 = true ∧ vtValid (BitVec.allOnes 64) = false ∧ (Instr.setvti 1 0 0 7 7 0).WellFormed
    ∧ Ready (labState (lab labX)) (lab labX) [4] := ⟨by decide +kernel, by decide +kernel, by decide, ready_lab _ _ rfl (by decide)⟩
theorem wit_VectorTypeResults_base : ((lab [(1, 767)]).x 1).toInt + (0 : BitVec 15).toInt = 767
    ∧ ((lab [(1, 767)]).x 1).toInt + (1 : BitVec 15).toInt = 768 ∧ ((lab [(1, 767)]).x 2).toInt + (0x7FFF : BitVec 15).toInt = -1 := by decide
theorem wit_StripResults : Ready (labState (lab labX)) (lab labX) [4, 0] ∧ (lab labX).ord.gate.getLsbD 0 = false
    ∧ vlmaxTarget (lab labX).protected_ ((lab labX).x 1) = 1024 ∧ vlmaxTarget (lab labX).protected_ ((lab labX).x 2) = (lab labX).vec.vlmax :=
  ⟨ready_lab _ _ rfl (by decide), by decide, by decide, by decide⟩
theorem wit_StripResults_waits : Ready (labState labQueued) labQueued [4, 1] ∧ labQueued.que.vq ≠ []
    ∧ vlmaxTarget labQueued.protected_ (labQueued.x 1) ≠ labQueued.vec.vlmax := ⟨ready_lab _ _ rfl (by decide), by decide, by decide⟩
/-- A group whose vlmax is the largest. -/
def labWide : Group := { lab labX with vec := { (lab labX).vec with vlmax := 1024 }, idn := { (lab labX).idn with alloc := 1024 } }
theorem wit_StripResults_shrinks : Ready (labState labWide) labWide [4, 2] ∧ vlmaxTarget labWide.protected_ (labWide.x 2) < labWide.vec.vlmax
    ∧ labWide.que.vq = [] ∧ labWide.que.mq = [] := ⟨ready_lab _ _ rfl (by decide), by decide, rfl, rfl⟩

/-- A group with a gate bound to the progress word at 0x20000, whose ratio is 1, and the machine with a value of that word. -/
def labGate : Group := { lab labX with ord := { (lab labX).ord with gate := 0x100000000020001 } }
def gateState (v : Nat) : State :=
  { labState labGate with mem := memWrite (labState labGate).mem (cellsAt 0x20000 (toBytes 8 v)) }
theorem ready_gate (v : Nat) : Ready (gateState v) labGate [2] := ⟨rfl, rfl, rfl, by decide⟩
theorem wit_StripResults_gate : labGate.ord.gate.getLsbD 0 = true ∧ stripLength (gateState 0) labGate.vec.vlmax (labGate.x 2) = 2
    ∧ ((labGate.ord.gcons.toNat + 2) * (labGate.ord.gate.toNat / 2 ^ 48) + 255) / 256 = 2 := by decide +kernel
theorem wit_StripResults_gatePasses : ∃ s1, readProgress ((gateState 2).put labGate.run) (ctxOf ((gateState 2).put labGate.run) 0 0 labGate.run)
    (labGate.ord.gate &&& 0xFFFF_FFFF_FFF8) = (s1, .ok 2) := ok_of (by decide +kernel)
theorem wit_StripResults_gateWaits : ∃ s1, readProgress ((gateState 1).put labGate.run) (ctxOf ((gateState 1).put labGate.run) 0 0 labGate.run)
    (labGate.ord.gate &&& 0xFFFF_FFFF_FFF8) = (s1, .ok 1) := ok_of (by decide +kernel)
theorem wit_StripResults_gatePoisoned : ∃ s1, readProgress ((gateState (2 ^ 63)).put labGate.run)
    (ctxOf ((gateState (2 ^ 63)).put labGate.run) 0 0 labGate.run) (labGate.ord.gate &&& 0xFFFF_FFFF_FFF8)
      = (s1, .ok 0x8000000000000000) := ok_of (by decide +kernel)
theorem wit_SpillFrameSize : Ready (labState labWide) labWide [4] ∧ labWide.vec.vlmax ≤ 1024 := ⟨ready_lab _ _ rfl (by decide), by decide⟩

/-- Operands of SETTILE: a 32 by 32 by 32 problem, and a request for all of it with int8 sources and int32 accumulators. -/
def labTile (gm : BitVec 32) : Group := { lab [(1, 0x2000200020), (2, 0x207002000200020)] with gra := { gm := gm, gn := gm, gk := gm, gf := 0 } }
theorem wit_GrantResults : Ready (labState (labTile 0)) (labTile 0) [1, 2] ∧ tileArgsOk 0x2000200020 0x207002000200020 = true
    ∧ ∃ r, computeGrant (labState (labTile 0)) 0 (labTile 0).run 0x2000200020 0x207002000200020 = some r := 
  ⟨ready_lab _ _ rfl (by decide), by decide +kernel, some_of (by decide +kernel)⟩
/-- What that SETTILE grants. -/
def labGrant : Grant := (computeGrant (mappedState (labTile 0)) 0 (labTile 0).run 0x2000200020 0x207002000200020).getD (labTile 0).gra
theorem wit_GrantResults_geometry : geometryChanges (labTile 0).gra labGrant = true ∧ geometryChanges labGrant labGrant = false
    ∧ (labTile 0).que.mq = [] ∧ (computeGrant (mappedState (labTile 0)) 0 (labTile 0).run 0x2000200020 0x207002000200020).isSome = true := by decide +kernel
theorem wit_GrantResults_refused : tileArgsOk (BitVec.allOnes 64) 0 = false ∧ tileArgsOk 0xFFFFFFFFFFFF 0x207000000000000 = true := by decide +kernel
/-- A queued matrix word. -/
def mentry (i : Instr) : MEntry :=
  { serial := 1, pc := 0x1000, instr := i, x := 0, y := 0, vl := 4, vt := 0x3B8, gm := 0, gn := 0, gk := 0, gf := 0, begun := false, done := none }
theorem wit_GrantResults_waits :
    let g := { labTile 0 with que := { (labTile 0).que with mq := [mentry (.tzero 1)] } }
    Ready (labState g) g [1, 2] ∧ g.que.mq ≠ [] ∧ (computeGrant (labState g) 0 g.run 0x2000200020 0x207002000200020).isSome = true :=
  ⟨ready_lab _ _ rfl (by decide), by decide, by decide +kernel⟩

/-! ### Waits that end -/

/-- A group that waits. -/
def labWaits (w : Wait) : Group := { lab labX with sca := { (lab labX).sca with level := .s, status := .waiting w } }
theorem holds_lab (g : Group) : Holds (labState g) 0 0 g := ⟨rfl, rfl⟩
theorem wit_StreamWaitsEnd_fs : writableValue (labState (labWaits (.mtcr 0x105 1))) (labWaits (.mtcr 0x105 1)) 0x105 1 := by
  unfold writableValue; decide +kernel
theorem wit_StreamWaitsEnd_pw : writableValue (labState (labWaits (.mtcr 0x120 8))) (labWaits (.mtcr 0x120 8)) 0x120 8
    ∨ writableValue (labState (labWaits (.mtcr 0x120 0))) (labWaits (.mtcr 0x120 0)) 0x120 0 := by unfold writableValue; decide +kernel
theorem wit_StreamWaitsEnd_ptb : writableValue (labState (labWaits (.mtcr 0x210 0x8000))) (labWaits (.mtcr 0x210 0x8000)) 0x210 0x8000 := by
  unfold writableValue; decide +kernel
theorem wit_StreamWaitsEnd_asid : writableValue (labState (labWaits (.mtcr 0x211 0xFFF))) (labWaits (.mtcr 0x211 0xFFF)) 0x211 0xFFF := by
  unfold writableValue; decide +kernel
theorem wit_StreamWaitsEnd_vlmax : Holds (labState { labWide with sca := { labWide.sca with status := .waiting (.vlmax 3 4 128 false true) } }) 0 0
    { labWide with sca := { labWide.sca with status := .waiting (.vlmax 3 4 128 false true) } }
    ∧ vlmaxTarget labWide.protected_ 128 < labWide.vec.vlmax := ⟨⟨rfl, rfl⟩, by decide⟩
theorem wit_StreamWaitsEnd_settile : (computeGrant (labState (labWaits (.settile 3 0x2000200020 0x207002000200020))) 0
      (labWaits (.settile 3 0x2000200020 0x207002000200020)) 0x2000200020 0x207002000200020).isSome = true
    ∧ tileArgsOk 0x2000200020 0x207002000200020 = true ∧ (labWaits (.settile 3 0x2000200020 0x207002000200020)).que.mq = [] := by decide +kernel
theorem wit_StreamWaitsEnd_drain : drainOver (labState (labWaits (.drain .flags))) 0 0 (labWaits (.drain .flags)) .flags = true := by decide +kernel
theorem wit_StreamWaitsEnd_fence : (labWaits .fencei).ord.wdone + 1 = (labWaits .fencei).ord.wseq := by decide
theorem wit_StreamWaitsEnd_room : roomFor (labState (labWaits (.push (.counter 0)))) (labWaits (.push (.counter 0))) (.counter 0) = true := by decide +kernel
theorem wit_StreamWaitsEnd_walk : (0xFFFF_FFFF_FFFF : BitVec 64).toNat < 2 ^ 48
    ∧ (walkTop (labState (lab labX)) (ctxOf (labState (lab labX)) 0 0 (lab labX)) 0xFFFF_FFFF_FFFF).isNone = true
    ∧ (walkTop (labState (lab labX)) (ctxOf (labState (lab labX)) 0 0 (lab labX)) 0x20000).map
        (fun e => pageAllows .store (lab labX).sca.level e.leaf) = some true := by decide +kernel

/-! ### The dispatch queues -/

theorem can_push {g : Group} {i : Instr} (h1 : (pushInfo i).all (fun p => !p.chain) = true)
    (h2 : convoyOk ((convoyWith g i).filterMap pushInfo) = true) (h3 : g.trp.frozen = false)
    (h4 : ((convoyWith g i).filterMap pushInfo).all (fun p => p.regs.all fun r => !g.tagged r) = true)
    (h5 : g.seqFull (entriesOf g ((convoyWith g i).filterMap pushInfo)) = false) (h6 : g.que.vq.length < 32) (h7 : g.count 2 < 65535) :
    CanPush (labState g) g i where
  powered := rfl
  group := rfl
  last p h := by simpa [h] using h1
  composed := h2
  thawed := h3
  untagged p hp r hr := by simpa using List.all_eq_true.mp (List.all_eq_true.mp h4 p hp) r hr
  numbered := h5
  room := h6
  counter _ := h7

theorem wit_ConvoyPush : (pushInfo (.vadd 0 2 0 1 0 0)).isSome = true ∧ CanPush (labState (lab labX)) (lab labX) (.vadd 0 2 0 1 0 0) :=
  ⟨rfl, can_push (by decide +kernel) (by decide +kernel) rfl (by decide +kernel) (by decide +kernel) (by decide) (by decide)⟩
/-- A group with an open convoy of one load. -/
def labOpen : Group := { lab labX with sca := { (lab labX).sca with openWords := [.vld 1 3 0 0 0 1], openPc := 0xFFC } }
theorem wit_ConvoyPush_long : (pushInfo (.vadd 1 2 0 1 0 0)).isSome = true ∧ CanPush (labState labOpen) labOpen (.vadd 1 2 0 1 0 0) :=
  ⟨rfl, can_push (by decide +kernel) (by decide +kernel) rfl (by decide +kernel) (by decide +kernel) (by decide) (by decide)⟩
theorem wit_RefusedPushes_joins : (pushInfo (.vld 1 3 0 0 0 1)).map (·.chain) = some true
    ∧ convoyOk ((convoyWith (lab labX) (.vld 1 3 0 0 0 1)).filterMap pushInfo) = true ∧ labOpen.sca.openWords ≠ [] := by decide +kernel
theorem wit_RefusedPushes_broken : (pushInfo (.vld 2 3 0 0 0 0)).isSome = true
    ∧ convoyOk ((convoyWith labOpen (.vld 2 3 0 0 0 0)).filterMap pushInfo) = false := by decide +kernel
theorem wit_ConvoyContents : CanPush (labState (lab labX)) (lab labX) (.vadd 1 2 0 1 0 0) ∧ (lab labX).sca.openWords = []
    ∧ (pushInfo (.vadd 1 2 0 1 0 0)).map (·.store) = some false :=
  ⟨can_push (by decide +kernel) (by decide +kernel) rfl (by decide +kernel) (by decide +kernel) (by decide) (by decide), rfl, by decide +kernel⟩
theorem wit_ConvoyContents_store : (pushInfo (.vst 2 3 9 1 0 0 0)).map (fun p => (p.store, p.notify, p.chain)) = some (true, true, false)
    ∧ CanPush (labState (lab labX)) (lab labX) (.vst 2 3 9 1 0 0 0) :=
  ⟨by decide +kernel, can_push (by decide +kernel) (by decide +kernel) rfl (by decide +kernel) (by decide +kernel) (by decide) (by decide)⟩
/-- A group with a tag on x 1. -/
def labTagged : Group := { lab labX with sca := { (lab labX).sca with tags := [(1, [1])] } }
theorem wit_RefusedPushes_frozen : (labHandler 0 .s).trp.frozen = true ∧ (labHandler 0 .s).sca.openWords = [] ∧ (labState (labHandler 0 .s)).curCore < 288
    ∧ (pushInfo (.vadd 1 2 0 1 0 0)).map (fun p => (p.chain, convoyOk [p])) = some (false, true) := by decide +kernel
theorem wit_RefusedPushes_tagged : (pushInfo (.vadd 1 2 0 1 0 0)).map (fun p => p.regs.any fun r => labTagged.tagged r) = some true
    ∧ labTagged.trp.frozen = false := by decide +kernel
theorem wit_RefusedPushes_sequence :
    let g := { lab labX with ord := { (lab labX).ord with wseq := 2 ^ 38 - 1, wdone := 2 ^ 38 - 2 } }
    (pushInfo (.vst 2 3 9 0 0 0 0)).map (fun p => p.store && decide (2 ^ 38 - 1 < g.ord.wseq + entriesOf g [p])) = some true := by decide +kernel
theorem wit_RefusedPushes_full :
    let g := { lab labX with que := { (lab labX).que with vq := List.replicate 32 (entry (.vadd 0 2 0 1 0 0) [])
                                                          mq := List.replicate 16 (mentry (.tzero 0)) } }
    32 ≤ g.que.vq.length ∧ 16 ≤ g.que.mq.length ∧ Ready (labState g) g [] := ⟨by decide, by decide, ready_lab _ _ rfl (by decide)⟩
theorem wit_RefusedPushes_firmware : Ready (firmwareState (lab labX) false) (lab labX) [] ∧ 288 ≤ (firmwareState (lab labX) false).curCore :=
  ⟨⟨rfl, rfl, rfl, by decide⟩, by decide⟩
theorem wit_MatrixPush : Unhindered (labState (lab labX)) (lab labX) [1, 2] ∧ (labState (lab labX)).curCore < 288
    ∧ (lab labX).que.mq.length < 16 ∧ (lab labX).count 1 < 65535 := ⟨⟨ready_lab _ _ rfl (by decide), rfl⟩, by decide, by decide, by decide⟩
theorem wit_CopyPush : copyRoom (lab labX) 0 ∧ copyRoom (lab labX) 3 ∧ Unhindered (labState (lab labX)) (lab labX) [4, 1, 2]
    ∧ (lab labX).tagged 5 = false := ⟨by unfold copyRoom; decide, by unfold copyRoom; decide, ⟨ready_lab _ _ rfl (by decide), rfl⟩, by decide⟩

/-! ### Scalar loads, stores, atomics, witnesses -/

theorem settled_lab (g : Group) : Settled (labState g) := ⟨rfl, fun _ h => by cases h⟩
theorem safe_lab (g : Group) : Safe (labState g) := by
  show Memory.wf (memWrite [] (cellsAt 0x4000 (toBytes 8 0x8001) ++ cellsAt 0x8000 (toBytes 8 0x3F))) = true
  decide +kernel
/-- Addresses at which the accesses of the witnesses are made, and the null witness. -/
def labY : FMap Word := [(1, 0x20000), (2, 5), (3, 0xFFFF_FFFF_FFFF_FFFF), (4, 0x20001), (6, 0x8000_0000_0000_0000), (7, 0x4000_0000_0000_0001)]
theorem wit_ScalarLoads : Ready (labState (lab labY)) (lab labY) [1, 0] ∧ checkWitness (labState (lab labY)) ((lab labY).x 0) = none
    ∧ waitOver (labState (lab labY)) ((lab labY).x 0) = true ∧ (labState (lab labY)).pace = .prompt :=
  ⟨ready_lab _ _ rfl (by decide), by decide +kernel, by decide +kernel, by decide⟩
theorem wit_ScalarLoads_address : ((lab labY).x 1 + (0 : BitVec 10).signExtend 64 * BitVec.ofNat 64 8).toNat % 8 = 0
    ∧ ((lab labY).x 4 + (0 : BitVec 10).signExtend 64 * BitVec.ofNat 64 8).toNat % 8 ≠ 0
    ∧ (∃ c, checkWitness (labState (lab labY)) ((lab labY).x 3) = some c) := ⟨by decide, by decide, some_of (by decide +kernel)⟩
theorem wit_ScalarLoads_span : ∃ r, spans (labState (lab labY)) (ctxOf (labState (lab labY)) 0 0 (lab labY)) .load 0x20000 8
    = [{ addr := 0x20000, len := 8, ref := .ok r }] ∧ (decide (r.key % 8 = 0) && !poisoned (labState (lab labY)) (r.key / 48)
      && (!r.chk || !mismatched (labState (lab labY)) (r.key / 48))) = true := one_span (fun r => decide (r.key % 8 = 0) &&
        !poisoned (labState (lab labY)) (r.key / 48) && (!r.chk || !mismatched (labState (lab labY)) (r.key / 48))) (by decide +kernel)
theorem wit_ScalarLoads_result : (let m := readMem (labState (lab labY)) (ctxOf (labState (lab labY)) 0 0 (lab labY)) 0 0 false 0x20000 8
    m.stall.isNone && m.fault.isNone) = true := by decide +kernel
theorem wit_ScalarLoads_fault : ∃ f, accessFault (spans (labState (lab labY)) (ctxOf (labState (lab labY)) 0 0 (lab labY)) .load
    0xFFFF000000000000 8) = some f := some_of (by decide +kernel)
theorem wit_ScalarLoads_pending : waitOver (labState labStores) (witnessOf 0 0 0 4) = false ∧ labStores.idn.team = 0
    ∧ checkWitness (labState labStores) (witnessOf 0 0 0 4) = none := by decide +kernel
theorem wit_ScalarStores : Ready (labState (lab labY)) (lab labY) [2, 1] ∧ (lab labY).ord.wseq + 1 ≤ 2 ^ 38 - 1
    ∧ (accessFault (spans (labState (lab labY)) (ctxOf (labState (lab labY)) 0 0 (lab labY)) .store 0x20000 8)).isNone = true
    ∧ (labState (lab labY)).teamOf (lab labY) = none ∧ Safe (labState (lab labY)) ∧ Settled (labState (lab labY)) :=
  ⟨ready_lab _ _ rfl (by decide), by decide, by decide +kernel, by decide +kernel, safe_lab _, settled_lab _⟩
theorem wit_ScalarStores_exhausted :
    let g := { lab labY with ord := { (lab labY).ord with wseq := 2 ^ 38 - 1 } }
    Ready (labState g) g [2, 1] ∧ 2 ^ 38 - 1 < g.ord.wseq + 1 := ⟨ready_lab _ _ rfl (by decide), by decide⟩
theorem wit_ScalarStores_span : ∃ r, spans (labState (lab labY)) (ctxOf (labState (lab labY)) 0 0 (lab labY)) .store 0x20000 8
    = [{ addr := 0x20000, len := 8, ref := .ok r }] ∧ true = true := one_span (fun _ => true) (by decide +kernel)
theorem wit_ScalarAtomics : Ready (labState (lab labY)) (lab labY) ([1, 2] ++ if AtomicFn.cas = .cas then [2 + 1] else [])
    ∧ (Instr.amoCas 3 1 2 0 1).WellFormed ∧ (lab labY).count 2 < 65535 := ⟨ready_lab _ _ rfl (by decide), by decide, by decide⟩
theorem wit_ScalarAtomics_span : ∃ r, spans (labState (lab labY)) (ctxOf (labState (lab labY)) 0 0 (lab labY)) .atomic 0x20000 8
    = [{ addr := 0x20000, len := 8, ref := .ok r }] ∧ (decide (r.key % 8 = 0) && decide (r.tier ≤ 1)
      && !poisoned (labState (lab labY)) (r.key / 48) && (!r.chk || !mismatched (labState (lab labY)) (r.key / 48))) = true :=
  one_span (fun r => decide (r.key % 8 = 0) && decide (r.tier ≤ 1) && !poisoned (labState (lab labY)) (r.key / 48)
    && (!r.chk || !mismatched (labState (lab labY)) (r.key / 48))) (by decide +kernel)
theorem count_full (g : Group) (n : Nat) :
    ({ g with ord := { g.ord with counted := List.replicate n { cls := 2, serial := 0, complete := false } } } : Group).count 2 = n := by
  simp [Group.count]
theorem wit_ScalarAtomics_full : 65535 ≤ ({ lab labY with ord := { (lab labY).ord with
    counted := List.replicate 65535 { cls := 2, serial := 0, complete := false } } } : Group).count 2 := (count_full _ _).ge

/-- A group whose registers hold its own witnesses 3 and 4, one of another slot, and a poisoned one. -/
def labWit : Group := lab [(1, witnessOf 0 0 0 3), (2, witnessOf 0 0 0 4), (3, witnessOf 1 0 0 2), (4, 0xC000000000000000), (6, 0x4000_0000_0000_0000)]
theorem wit_WitnessWords : Ready (labState labWit) labWit [1, 2]
    ∧ (∀ r ∈ [0, 1, 2, 3], checkWitness (labState labWit) (labWit.x r) = none)
    ∧ waitOver (labState labWit) (labWit.x 1) = true := ⟨ready_lab _ _ rfl (by decide), by decide +kernel, by decide +kernel⟩
theorem wit_WitnessWords_forms : [0, 1, 2, 3].map (fun r => witKind (labWit.x r)) = [0, 1, 1, 1]
    ∧ (labWit.x 1).extractLsb' 38 24 = (labWit.x 2).extractLsb' 38 24 ∧ (labWit.x 1).extractLsb' 38 24 ≠ (labWit.x 3).extractLsb' 38 24
    ∧ (labWit.x 1).extractLsb' 38 24 = (witnessOf 0 0 ((labState labWit).slot 0 0).epoch 0).extractLsb' 38 24 := by decide +kernel
theorem wit_WitnessWords_checks : checkWitness (labState labWit) (BitVec.allOnes 64) = some 0x09
    ∧ (∃ c, checkWitness (labState labWit) 0x8000000000000000 = some c ∧ c = 0x08) := by
  refine ⟨by decide +kernel, 8, by decide +kernel, rfl⟩
theorem wit_WitnessWords_pending : checkWitness (labState labStores) (witnessOf 0 0 0 4) = none
    ∧ waitOver (labState labStores) (witnessOf 0 0 0 4) = false ∧ labStores.idn.team = 0 := by decide +kernel

/-! ### Barriers, counters, progress words -/

theorem ok_both {σ ε α : Type} {p : σ × Except ε α} {a : α} (q : σ → Bool) (h : p.2.toOption = some a) (h2 : q p.1 = true) :
    ∃ s, p = (s, .ok a) ∧ q s = true := by
  obtain ⟨s, r⟩ := p
  cases r with
  | ok b => simp [Except.toOption] at h; exact ⟨s, by rw [h], h2⟩
  | error e => simp [Except.toOption] at h

/-- A team of one group on core 0. -/
def labTeam : Team :=
  { task := 1, cluster := 0, cidx := 0, core := 0, slots := [0], region := 0, size := 196608, frame := 4096, groups := 1, cores := [0],
    resilient := none, cut := false, roll := none, inside := false }
/-- A member of it, which waits or not, with the address of its own scratchpad's first sector in x 1 and a value in x 2. -/
def labMember (st : Status) (v : Word) : Group :=
  let g := lab [(1, 0xFFFF_0000_0078_0000), (2, v)]
  { g with idn := { g.idn with team := 1 }, sca := { g.sca with status := st } }
/-- The machine with an object in that sector. -/
def barState (g : Group) (b : Barrier) : State :=
  { labState g with
    teams := [(1, some labTeam)]
    mem := memWrite (labState g).mem (cellsAt (padKey 0 0) (toBytes 48 b.image)) }
/-- Two arrivals in a phase, the phase before the group's complete. -/
def labBar (last arr : Nat) : Barrier := { exp := 2, last := last, arr := [0, 0, 0, arr], bytes := [0, 0, 0, 0], flags := 0, rsv := 0 }
theorem wit_BarrierResults : Safe (barState (labMember .running 1) (labBar 6 1)) ∧ Settled (barState (labMember .running 1) (labBar 6 1))
    ∧ Ready (barState (labMember .running 1) (labBar 6 1)) (labMember .running 1) [1, 2] := by
  refine ⟨?_, ⟨rfl, fun e h t ht => ?_⟩, rfl, rfl, rfl, by decide⟩
  · show Memory.wf (barState (labMember .running 1) (labBar 6 1)).mem = true; decide +kernel
  · simp [barState] at h; subst h; simp at ht; subst ht; rfl
theorem wit_BarrierResults_reads : ∃ s1, readBarrier (barState (labMember .running 1) (labBar 6 1)) 0 0 (labMember .running 1).run
    0xFFFF_0000_0078_0000 false = (s1, .ok (padKey 0 0 / 48, labBar 6 1)) ∧ decide (s1.curCore = 0 ∧ s1.curSlot = 0
      ∧ (labBar 6 1).ahead (labMember .running 1).vec.sc = 1 ∧ localOutstanding s1 0 0 (labMember .running 1).run = false) = true :=
  ok_both (fun s1 => decide (s1.curCore = 0 ∧ s1.curSlot = 0 ∧ (labBar 6 1).ahead (labMember .running 1).vec.sc = 1
    ∧ localOutstanding s1 0 0 (labMember .running 1).run = false)) (by decide +kernel) (by decide +kernel)
theorem wit_BarrierResults_reached : ∃ s1, readBarrier (barState (labMember .running 1) (labBar 7 1)) 0 0 (labMember .running 1).run
    0xFFFF_0000_0078_0000 false = (s1, .ok (padKey 0 0 / 48, labBar 7 1)) ∧ decide ((labBar 7 1).reached 7 = true ∧ (labBar 6 1).reached 7 = false
      ∧ (labBar 7 1).ahead (labMember .running 1).vec.sc ≤ 0) = true :=
  ok_both (fun _ => decide ((labBar 7 1).reached 7 = true ∧ (labBar 6 1).reached 7 = false ∧ (labBar 7 1).ahead (labMember .running 1).vec.sc ≤ 0))
    (by decide +kernel) (by decide +kernel)
theorem wit_BarrierResults_far : ∃ s1, readBarrier (barState (labMember .running 1) (labBar 2 1)) 0 0 (labMember .running 1).run
    0xFFFF_0000_0078_0000 false = (s1, .ok (padKey 0 0 / 48, labBar 2 1)) ∧ decide (4 < (labBar 2 1).ahead (labMember .running 1).vec.sc) = true :=
  ok_both (fun _ => decide (4 < (labBar 2 1).ahead (labMember .running 1).vec.sc)) (by decide +kernel) (by decide +kernel)
theorem wit_BarrierResults_fresh : ∃ s1, readBarrier (barState (labMember .running 1) (labBar 6 1)) 0 0 (labMember .running 1).run
    0xFFFF_0000_0078_0000 true = (s1, .ok (padKey 0 0 / 48, labBar 6 1)) := ok_of (by decide +kernel)
theorem wit_BarrierResults_stops : (match (readBarrier (labState (lab labY)) 0 0 (lab labY).run 0x20000 true).2 with
    | .error x => some x
    | .ok _ => none) = some (.fault 0x0D 0x20000) := by decide +kernel
theorem wit_BarrierResults_mask : maskThere (labState labMask) labMask.run 1 := by
  unfold maskThere; right; decide +kernel

theorem wit_CountersAndProgress : Ready (labState (lab labY)) (lab labY) [1, 2] ∧ (lab labY).count 1 ≤ ((lab labY).x 2).toNat ∧ (lab labY).trp.held = none
    ∧ ((lab labY).x 1).toNat % 8 = 0 ∧ ((lab labY).x 1).toNat / 2 ^ 48 = 0 ∧ ((lab labY).x 4).toNat % 8 ≠ 0
    ∧ ((lab [(1, 0xFFFF_0000_0000_0000)]).x 1).toNat / 2 ^ 48 = 0xFFFF ∧ 2 ^ 62 ≤ ((lab labY).x 7).toNat :=
  ⟨ready_lab _ _ rfl (by decide), by decide, rfl, by decide, by decide, by decide, by decide, by decide⟩
theorem wit_CountersAndProgress_waits :
    let g := { lab labX with ord := { (lab labX).ord with counted := [{ cls := 0, serial := 0, complete := false }] }
                             trp := { (lab labX).trp with held := some (0x40, 1) } }
    (g.x 0).toNat < g.count 0 ∧ g.count 0 ≤ (g.x 2).toNat ∧ g.trp.held = some (0x40, 1) := by decide
theorem wit_CountersAndProgress_passes : ∃ s1, readProgress ((gateState 2).put labGate.run) (ctxOf (gateState 2) 0 0 labGate) 0x20000 = (s1, .ok 2) :=
  ok_of (by decide +kernel)
theorem wit_CountersAndProgress_faults : (match (readProgress ((gateState 2).put labGate.run) (ctxOf (gateState 2) 0 0 labGate) 0x20004).2 with
    | .error (.fault code a) => some (code, a)
    | _ => none) = some (0x05, 0x20004) := by decide +kernel
theorem wit_CountersAndProgress_publishes : (match progressSpans (labState (lab labY)) (ctxOf (labState (lab labY)) 0 0 (lab labY)) .atomic 0x20000 with
    | .ok sps => some sps.length
    | .error _ => none) = some 1 ∧ (lab labY).resilient = false ∧ (lab labY).count 0 < 65535 := by decide +kernel
/-- A group with a notify update due on the progress word at 0x20000, and one with a PPUB update due there. -/
def labNotify : Group :=
  { lab labX with
    ord := { (lab labX).ord with wseq := 6, wdone := 4, entries := [{ seq := 5, kind := .notify 0x20001 4, floor := [], complete := false }] }
    que := { (lab labX).que with vq := [{ entry (.vst 2 3 9 1 0 0 0) [] with seq := 4, notify := true, done := some { flags := 0, xreg := none } }] } }
def labPpub : Group :=
  { lab labX with ord := { (lab labX).ord with wseq := 6, wdone := 4, entries := [{ seq := 5, kind := .ppub 0x20000 7 0, floor := [], complete := false }] } }
theorem wit_CountersAndProgress_notify : (dueNotify (labState labNotify) 0 0 labNotify).map (·.2) = some (0x20001, 4)
    ∧ (0x20000 : Word) = 0x20001 &&& 0xFFFF_FFFF_FFF8 ∧ (duePpub (labState labPpub) 0 0 labPpub).map (·.2) = some (0x20000, 7, 0) := by decide +kernel
theorem wit_CountersAndProgress_word : ∃ r, spans (labState labNotify) (ctxOf (labState labNotify) 0 0 labNotify) .store 0x20000 8
    = [{ addr := 0x20000, len := 8, ref := .ok r }] ∧ (decide (r.key % 8 = 0) && decide (r.tier ≤ 1) && !poisoned (labState labNotify) (r.key / 48)
      && (!r.chk || !mismatched (labState labNotify) (r.key / 48)) && ((labState labNotify).core 0).l1.isEmpty) = true :=
  one_span (fun r => decide (r.key % 8 = 0) && decide (r.tier ≤ 1) && !poisoned (labState labNotify) (r.key / 48)
      && (!r.chk || !mismatched (labState labNotify) (r.key / 48)) && ((labState labNotify).core 0).l1.isEmpty) (by decide +kernel)

/-! ### Waits on memory, writes under way, requests, entries -/

theorem wit_MemoryWaitsEnd_bwait : let g := labMember (.waiting (.bwait 0xFFFF_0000_0078_0000 7)) 1
    ∃ s1, readBarrier (barState g (labBar 7 0)) 0 0 g 0xFFFF_0000_0078_0000 false = (s1, .ok (padKey 0 0 / 48, labBar 7 0)) ∧ g.resilient = false :=
  (ok_of (by decide +kernel)).imp fun _ h => ⟨h, by decide +kernel⟩
theorem wit_MemoryWaitsEnd_arrive : let g := labMember (.waiting (.arrive 0xFFFF_0000_0078_0000 1)) 1
    ∃ s1, readBarrier (barState g (labBar 6 1)) 0 0 g 0xFFFF_0000_0078_0000 false = (s1, .ok (padKey 0 0 / 48, labBar 6 1))
      ∧ (!localOutstanding s1 0 0 g) = true := ok_both (fun s1 => !localOutstanding s1 0 0 _) (by decide +kernel) (by decide +kernel)
theorem wit_MemoryWaitsEnd_binit : let g := labMember (.waiting (.binit 0xFFFF_0000_0078_0000 2)) 1
    ∃ s1, readBarrier (barState g (labBar 6 1)) 0 0 g 0xFFFF_0000_0078_0000 true = (s1, .ok (padKey 0 0 / 48, labBar 6 1)) := ok_of (by decide +kernel)
theorem wit_MemoryWaitsEnd_load : let g := labWaits (.load 3 0x20000 8 false 0)
    (let m := readMem (labState g) (ctxOf (labState g) 0 0 g) 0 0 false 0x20000 8
     m.stall.isNone && m.fault.isNone) = true ∧ checkWitness (labState g) 0 = none ∧ waitOver (labState g) 0 = true := by decide +kernel
theorem wit_MemoryWaitsEnd_witness : checkWitness (labState (labWaits (.witness (witnessOf 0 0 0 4) false))) (witnessOf 0 0 0 4) = none
    ∧ waitOver (labState (labWaits (.witness (witnessOf 0 0 0 4) false))) (witnessOf 0 0 0 4) = true := by decide +kernel
theorem wit_MemoryWaitsEnd_count : (labWaits (.waitc 2 0)).count 2 ≤ (0 : Word).toNat := by decide
theorem wit_MemoryWaitsEnd_pwait : let g := labWaits (.pwait 0x20000 2)
    let s := { labState g with mem := memWrite (labState g).mem (cellsAt 0x20000 (toBytes 8 2)) }
    ∃ s1, readProgress (s.setGroup 0 0 g.run) (ctxOf s 0 0 g) 0x20000 = (s1, .ok 2) := ok_of (by decide +kernel)
theorem wit_MemoryWaitsEnd_gate : let g := { labGate with sca := { labGate.sca with status := .waiting (.gate 3 2 true) } }
    let s := { labState g with mem := memWrite (labState g).mem (cellsAt 0x20000 (toBytes 8 2)) }
    (∃ s1, readProgress (s.setGroup 0 0 g.run) (ctxOf s 0 0 g) (g.ord.gate &&& 0xFFFF_FFFF_FFF8) = (s1, .ok 2))
      ∧ ((g.ord.gcons.toNat + (2 : Word).toNat) * (g.ord.gate.toNat / 2 ^ 48) + 255) / 256 ≤ (2 : Word).toNat % 2 ^ 62 :=
  ⟨ok_of (by decide +kernel), by decide +kernel⟩
theorem wit_MemoryWaitsEnd_entry : let g := { lab labX with ord := { (lab labX).ord with wseq := 6, entries := [{ seq := 5, kind := .plain true, floor := [], complete := false }] } }
    g.ord.entries ≠ [] ∧ (∀ e ∈ g.ord.entries, entryDone (labState g) 0 0 false g e = true) ∧ knotPoisoned (labState g) g = false := by decide +kernel

/-- A write of one byte under way. -/
def flight (performed : Bool) : Flight :=
  { core := 0, slot := 0, epoch := 0, path := 0, seq := 5, serial := 1, upd := .store [(0x20000, 7, 0xFF)], l1 := true, held := 0, team := 0, host := false,
    performed := performed, report := none }
theorem wit_WritesPerform : mayPerform { labState (lab labX) with flights := [] ++ flight false :: [] } [] (flight false) = true := by decide +kernel
theorem wit_WritesPerform_acknowledged : (flight true).performed = true
    ∧ ∀ o ∈ ([] : List Flight), o.performed = true → o.core = (flight true).core → sharesKey (updateSectors o.upd) (updateSectors (flight true).upd) = false :=
  ⟨rfl, fun _ h => by cases h⟩

/-- A group whose port 0 is bound to four bytes at 0x20000. -/
def labPort : Group :=
  { lab labX with fil := { (lab labX).fil with ports := [(0, { Port.empty with
      kind := .record, bind := { base := 0x20000, stride := 0, sbase := 0, count := 4, fmt := 7, sfmt := 0, sblock := 0 } })] } }
theorem wit_CopyQueueWork_fetch : ∃ s1, fetchValue (labState labPort) (ctxOf (labState labPort) 0 0 labPort) (labPort.port 0).bind 0
      = (s1, .ok { val := 0, scale := 0, fault := none }) ∧ decide (s1.group? 0 0 = some labPort ∧ (labPort.port 0).kind = .record ∧ 0 < portDepth labPort) = true :=
  ok_both (fun s1 : State => decide (s1.group? 0 0 = some labPort ∧ (labPort.port 0).kind = .record ∧ 0 < portDepth labPort)) (by decide +kernel) (by decide +kernel)
/-- A bound copy-queue entry. -/
def copyEntry (op : CopyOp) (xd xa xb : Word) (gm : BitVec 32) (begun : Bool) : CEntry :=
  { serial := 1, pc := 0x1000, word := 0xF2000000, op := op, xd := xd, xd1 := 0, xa := xa, xb := xb, gm := gm, gn := gm, gk := gm, gf := 0, seq := 0, begun := begun,
    next := 0, allBegun := false, done := none }
def labCopy (op : CopyOp) (xd : Word) (begun : Bool) (jobs : List CopyJob) : Group :=
  { lab labX with que := { (lab labX).que with cq := [copyEntry op xd 0x20000 0x30000 0 begun], jobs := jobs } }
theorem wit_CopyQueueWork_form : (labCopy (.copy .linear 0 0) 0 true []).bound.map (fun e => (e.args .linear 0 0).wellFormed) = some false
    ∧ (labCopy (.copy .tilea 0 0) 0 true []).bound.map (fun e => ((e.args .tilea 0 0).wellFormed, CopyFn.tilea.isTile, (e.args .tilea 0 0).rect.1.1))
      = some (true, true, 0) := by decide +kernel
def isBegun : BeginEnd → Bool
  | .begun _ => true
  | _ => false
theorem begun_of {b : BeginEnd} (h : isBegun b = true) : ∃ s1, b = .begun s1 := by
  cases b <;> simp [isBegun] at h
  exact ⟨_, rfl⟩
theorem wit_CopyQueueWork_begins : let g := labCopy (.copy .linear 0 0) 96 true []
    g.bound = some (copyEntry (.copy .linear 0 0) 96 0x20000 0x30000 0 true)
      ∧ ∃ s1, beginRequest (labState g) 0 0 g ((copyEntry (.copy .linear 0 0) 96 0x20000 0x30000 0 true).args .linear 0 0) 1 0 0 false = .begun s1 :=
  ⟨by decide +kernel, begun_of (by decide +kernel)⟩
/-- A request with one sector to write. -/
def labJob : CopyJob :=
  { serial := 1, idx := 0, pieces := [[{ key := 0x20000, mask := 0xFF, val := 7, src := none, chk := false, saved := false }]], hold := 0, bytes := 1, target := 0,
    place := 0, phase := 0, toLocal := false, record := 0, listed := false, fault := none }
theorem wit_CopyQueueWork_sector : let g := labCopy (.copy .fill 0 0) 1 true [labJob]
    (g.readyJobs (labState g) 0 0 false).head? = some labJob ∧ (labState g).pace = .prompt
      ∧ (sourceFault (labState g) g.idn.team ([({ key := 0x20000, mask := 0xFF, val := 7, src := none, chk := false, saved := false } : CopyByte)].filterMap
          fun b => b.src.map fun f => (f.1, b.chk, f.2))).isNone = true
      ∧ (pieceDst [{ key := 0x20000, mask := 0xFF, val := 7, src := none, chk := false, saved := false }]).Nodup := by decide +kernel

/-! ### Entries, arbiters, traps, tasks -/

/-- Executed entries at the heads of the queues. -/
def labDone : Group :=
  { lab labX with que := { (lab labX).que with
      vq := [{ entry (.vcmplt 0 0 1 2 0 0) [] with begun := true, done := some { flags := 1, xreg := some (1, 9) } }]
      mq := [{ mentry (.tzero 0) with begun := true, done := some { flags := 1, xreg := none } }]
      cq := [{ copyEntry (.stat 3 0) 0 0 0 0 true with done := some { flags := 0, xreg := some (3, 1) } }] } }
theorem wit_EntriesLeave : Holds (labState labDone) 0 0 labDone ∧ labDone.que.vq.all (fun e => e.done.isSome && !e.notify) = true
    ∧ labDone.que.mq.all (fun e => e.done.isSome) = true ∧ (labState labDone).flights = [] ∧ (labDone.que.cq.find? (·.done.isSome)).isSome = true :=
  ⟨⟨rfl, rfl⟩, by decide, by decide, rfl, by decide⟩

theorem picked {o : Option (State × Nat)} (p : State → Nat → Bool) (h : (o.any fun x => p x.1 x.2) = true) :
    ∃ s1 k, o = some (s1, k) ∧ p s1 k = true := by
  cases o with
  | none => simp at h
  | some x => exact ⟨x.1, x.2, rfl, h⟩

theorem wit_ArbiterDecisions_vector : ∃ s1 k, decide21 (labState labQueued) 0 .vector = some (s1, k)
    ∧ (decide (s1.group? 0 k = some labQueued) && (vectorHead s1 0 k labQueued).isSome && !labQueued.que.bad.contains 1) = true :=
  picked (fun s1 k => decide (s1.group? 0 k = some labQueued) && (vectorHead s1 0 k labQueued).isSome && !labQueued.que.bad.contains 1) (by decide +kernel)
/-- A group with a matrix word queued, and one with a COPY queued. -/
def labMatrix : Group := { lab labX with que := { (lab labX).que with mq := [mentry (.tzero 0)] } }
theorem wit_ArbiterDecisions_matrix : ∃ s1 k, decide21 (labState labMatrix) 0 .matrixWhole = some (s1, k)
    ∧ (decide (s1.group? 0 k = some labMatrix) && (matrixHead s1 0 k labMatrix).isSome) = true :=
  picked (fun s1 k => decide (s1.group? 0 k = some labMatrix) && (matrixHead s1 0 k labMatrix).isSome) (by decide +kernel)
theorem wit_ArbiterDecisions_copy : ∃ s1 k, decide21 (labState (labCopy (.copy .linear 0 0) 96 false [])) 0 .copy = some (s1, k)
    ∧ (decide (s1.group? 0 k = some (labCopy (.copy .linear 0 0) 96 false [])) && (copyHead s1 0 k (labCopy (.copy .linear 0 0) 96 false [])).isSome) = true :=
  picked (fun s1 k => decide (s1.group? 0 k = some (labCopy (.copy .linear 0 0) 96 false []))
    && (copyHead s1 0 k (labCopy (.copy .linear 0 0) 96 false [])).isSome) (by decide +kernel)
/-- The core's array in another mode than the entry that waits needs. -/
def modeState : State := (labState labMatrix).setCore 0 { (labState labMatrix).core 0 with mode := .quarters }
theorem wit_ArbiterDecisions_mode : modeDue modeState 0 = true ∧ matrixRunning modeState 0 = false := by decide +kernel

/-- A group with a fault to be delivered. -/
def labFault (l : Level) (tvec : Word) : Group :=
  { lab labX with
    sca := { (lab labX).sca with level := l, status := .stopped }
    trp := { (lab labX).trp with tvec := tvec, pending := [{ serial := 1, code := 0x10, src := 0, pc := 0x1000, addr := 0, elem := 0 }] } }
/-- The machine with a table of vectors at 0x2000 whose entry for code 0x10 is 0x5000. -/
def faultState (g : Group) : State := { labState g with mem := memWrite (labState g).mem (cellsAt 0x2100 (toBytes 16 0x5000)) }
theorem entry_of {p : State × Option Word} {h : Word} (e : p.2 = some h) : ∃ s1, p = (s1, some h) := ⟨p.1, by rw [← e]⟩
theorem none_of {p : State × Option Word} (e : p.2 = none) : ∃ s1, p = (s1, none) := ⟨p.1, by rw [← e]⟩
theorem wit_TrapDelivery : Holds (faultState (labFault .u 0x2000)) 0 0 (labFault .u 0x2000) ∧ (labFault .u 0x2000).sca.status ≠ .exiting
    ∧ (labFault .u 0x2000).quiet = true ∧ overruled (faultState (labFault .u 0x2000)) (labFault .u 0x2000) = false
    ∧ (oldestFault (labFault .u 0x2000).trp.pending).isSome = true := ⟨⟨rfl, rfl⟩, by decide, by decide, by decide +kernel, by decide⟩
theorem wit_TrapDelivery_enters : ∃ s1, vectorEntry (faultState (labFault .u 0x2000)) 0 0 (labFault .u 0x2000) 0x10 = (s1, some 0x5000) :=
  entry_of (by decide +kernel)
theorem wit_TrapDelivery_none : ∃ s1, vectorEntry (faultState (labFault .u 0)) 0 0 (labFault .u 0) 0x10 = (s1, none) := none_of (by decide +kernel)
theorem wit_TrapDelivery_second : (labFault .s 0x2000).sca.level ≠ .u ∧ (labFault .s 0x2000).quiet = true := by decide
theorem wit_TrapDelivery_firmware : Holds (firmwareState (labFault .f 0x2000) false) 288 0 (labFault .f 0x2000)
    ∧ ((firmwareState (labFault .f 0x2000) false).core 288).handler = false ∧ ((firmwareState (labFault .f 0x2000) true).core 288).handler = true
    ∧ overruled (firmwareState (labFault .f 0x2000) true) (labFault .f 0x2000) = false := ⟨⟨rfl, rfl⟩, by decide, by decide, by decide +kernel⟩
theorem wit_TrapDelivery_firmwareEntry :
    let s := { firmwareState (labFault .f 0x2000) false with mem := memWrite (labState (labFault .f 0x2000)).mem (cellsAt 0x2100 (toBytes 16 0x5000)) }
    ∃ s1, vectorEntry s 288 0 (labFault .f 0x2000) 0x10 = (s1, some 0x5000) := entry_of (by decide +kernel)

/-- A group that exits with nothing left, and one that exits with a fault. -/
def labExits (fs : List FaultInfo) : Group :=
  { lab labX with sca := { (lab labX).sca with status := .exiting }, trp := { (lab labX).trp with pending := fs } }
theorem wit_GroupsAndTasks_exit : Holds (labState (labExits [])) 0 0 (labExits []) ∧ overruled (labState (labExits [])) (labExits []) = false
    ∧ (labExits []).trp.pending = [] ∧ (labExits []).que.vq = [] ∧ (labExits []).que.mq = [] ∧ (labExits []).que.cq = [] ∧ (labExits []).que.jobs = []
    ∧ (labExits []).ord.wdone + 1 = (labExits []).ord.wseq ∧ (labExits []).ord.counted = [] ∧ (labExits []).trp.held = none :=
  ⟨⟨rfl, rfl⟩, by decide +kernel, rfl, rfl, rfl, rfl, rfl, by decide, rfl, rfl⟩
theorem wit_GroupsAndTasks_exitKept : exitKept (labState (labExits [])) (labExits []) = true ∧ FMap.wf Core.empty (labState (labExits [])).cores = true
    ∧ FMap.wf Slot.empty ((labState (labExits [])).core 0).slots = true := by decide +kernel
theorem wit_GroupsAndTasks_exitHeld : let g := { labExits [] with trp := { (labExits []).trp with held := some (0x20000, 6) } }
    g.trp.held = some (0x20000, 6) ∧ exitKept (labState g) g = true ∧ g.ord.wdone + 1 = g.ord.wseq
      ∧ exitKept (firmwareState g false) g = true ∧ Holds (firmwareState g false) 288 0 g :=
  ⟨rfl, by decide +kernel, by decide, by decide +kernel, ⟨rfl, rfl⟩⟩
theorem wit_GroupsAndTasks_exitFault : let g := labExits [{ serial := 1, code := 6, src := 2, pc := 0x1000, addr := 0x20000, elem := 0 }]
    (oldestFault g.trp.pending).isSome = true ∧ g.quiet = true ∧ overruled (firmwareState g false) g = false := by decide +kernel

/-- A task of one cluster of one group with a small team region. -/
def labTask (kill : Option Nat) : Task :=
  { queue := 1, jidx := 0
    descr := { entry := 0x1000, args := 0, tvec := 0, clusters := 1, vlmax := 128, slices := 128, region := 48, frame := 0, groups := 1, width := 1, height := 1,
               klass := 0, attr := 0, addr := 0 }
    argp := 0, cword := 0, gate := 0, faultrec := 0, next := 1, live := [(0, 1)], finished := 0, fail := none, more := 0, kill := kill, pri := 2, placing := false, due := false, asked := [] }
def labResilient (failed : Bool) : Resilient := { shadow := [], undo := [], failed := failed, area := 0, areaSize := 0 }
def taskState (g : Group) (t : Team) (kill : Option Nat) : State :=
  { labState g with teams := [(1, some t)], tasks := [(1, some (labTask kill))] }
/-- A team with a small region, as a resilient or another one. -/
def smallTeam (r : Option Resilient) (cut : Bool) (roll : Option FailRecord) : Team :=
  { labTeam with size := 192, frame := 0, resilient := r, cut := cut, roll := roll }
def labRecord : FailRecord := { gid := 0, trpc := 0, taddr := 0, telem := 0, code := 0x18, src := 0, plev := 0, orig := 0, ending := 0, stamp := 0 }
def labWorker : Group := { labMember .running 1 with vec := { (labMember .running 1).vec with vl := 0 }, ord := { (labMember .running 1).ord with entries := [] } }
/-- A group of a resilient team that exits while its shadow has it running. -/
theorem wit_GroupsAndTasks_exitAsks : let g := { labExits [] with idn := labWorker.idn }
    let s := taskState g (smallTeam (some (labResilient false)) false none) none
    Holds s 0 0 g ∧ overruled s g = false ∧ exitKept s g = false ∧ (∃ t, s.teamOf g = some t ∧ t.resilient.isSome = true ∧ t.cut = false)
      ∧ ∀ e ∈ g.ord.entries, commitReady s 0 0 g e = true :=
  ⟨⟨rfl, rfl⟩, by decide +kernel, by decide +kernel, ⟨_, rfl, rfl, rfl⟩, fun _ h => by cases h⟩
theorem wit_GroupsAndTasks_kill : (taskState labWorker (smallTeam none false none) (some 6)).task 1 = some (labTask (some 6)) ∧ (labTask (some 6)).kill = some 6
    ∧ FMap.wf none (taskState labWorker (smallTeam none false none) (some 6)).tasks = true := ⟨rfl, rfl, by decide +kernel⟩
theorem wit_GroupsAndTasks_preempt : let s := taskState labWorker (smallTeam none false none) none
    teamsOf s 1 0 ≠ [] ∧ atBoundary s (teamsOf s 1 0) = true ∧ (∀ e ∈ teamsOf s 1 0, e.2.resilient.isSome = true → e.2.cut = true) := by decide +kernel
theorem wit_GroupsAndTasks_preemptAsks : let s := taskState labWorker (smallTeam (some (labResilient false)) false none) none
    atBoundary s (teamsOf s 1 0) = true ∧ (∃ e ∈ teamsOf s 1 0, e.2.resilient.isSome = true ∧ e.2.cut = false) := by decide +kernel
theorem wit_GroupsAndTasks_preemptWaits : let g := { labWorker with sca := { labWorker.sca with status := .stopped } }
    let s := taskState g (smallTeam none false none) none
    teamsOf s 1 0 ≠ [] ∧ atBoundary s (teamsOf s 1 0) = false ∧ preemptWanted s 1 0 = false := by decide +kernel
theorem wit_GroupsAndTasks_saves : ∃ s1, saveTeams (labTask none) (teamsOf (taskState labWorker (smallTeam none false none) none) 1 0)
    { taskState labWorker (smallTeam none false none) none with trowel := { Trowel.empty with ctxbase := 0x300000, ctxsize := 0x100000 } } = some s1 :=
  some_of (by decide +kernel)
def savedTeam : SavedTeam :=
  { task := 1, cluster := 0, cidx := 0, addr := 0x300000, size := 0, klass := 0, width := 1, height := 1, groups := [], marks := [] }
/-- A sound image of a team whose groups have all exited, and the machine that holds it. -/
def imageTeam : SavedTeam := { savedTeam with size := 64 }
def imageState : State :=
  { taskState labWorker (smallTeam none false none) none with
    mem := cellsAt 0x300000 (List.replicate 32 0 ++ [64] ++ List.replicate 27 0 ++ toBytes 4 0x4D84A199) ++ mapCells 1 ++ (labState labWorker).mem
    teams := [], saved := [imageTeam] }
theorem wit_GroupsAndTasks_resumes : let s0 := { imageState with saved := imageState.saved.filter fun x => !(x.task == 1 && x.cluster == 0) }
    ((loadTeams imageState [imageTeam]).any fun ls =>
      (searchRect s0 (imageState.queue (labTask none).queue).part 1 1 [0] (fun i core => coreFits s0 core (resumeDemand 1 (labTask none).descr ls i))).any fun cores =>
        (resumeTeams 1 (labTask none) cores ls (s0, [])).any fun p => p.2.isEmpty) = true
      ∧ imageState.saved.filter (fun v => v.task == 1 && v.cluster == 0) = imageTeam :: [] := by decide +kernel
theorem wit_GroupsAndTasks_badImage : let s := { taskState labWorker (smallTeam none false none) none with saved := [savedTeam] }
    s.saved.filter (fun v => v.task == 1 && v.cluster == 0) = savedTeam :: [] ∧ mayPlace s (labTask none) (s.queue (labTask none).queue).priority = true
      ∧ (loadTeams s (savedTeam :: [])).isNone = true := by decide +kernel
theorem wit_GroupsAndTasks_checkpoint : let s := taskState labWorker (smallTeam (some (labResilient false)) true none) none
    s.team 1 = some (smallTeam (some (labResilient false)) true none) ∧ cutDone s 1 = true ∧ verified s 1 = true
      ∧ (performCheckpoint s [1]).isSome = true := by decide +kernel
/-- The same with a dirty sector of the team in the L1 whose check fails. -/
theorem wit_GroupsAndTasks_unverified :
    let s := taskState labWorker (smallTeam (some (labResilient false)) true none) none
    let t := s.setL1 0 [{ sector := 5, way := 0, data := 0, delta := 1, bad := false, dirty := 1 }]
    cutDone t 1 = true ∧ verified t 1 = false := by decide +kernel
theorem wit_GroupsAndTasks_rollback : let s := taskState labWorker (smallTeam (some (labResilient true)) true (some labRecord)) none
    s.team 1 = some (smallTeam (some (labResilient true)) true (some labRecord)) ∧ (labResilient true).failed = true
      ∧ (labResilient false).failed = false ∧ areaSpoiled s (labResilient false) = false ∧ (readShadow s (labResilient false)).isSome = true ∧ (∀ j, s.task 1 = some j → j.kill = none) :=
  ⟨rfl, rfl, rfl, by decide +kernel, by decide +kernel, fun j h => by cases h; rfl⟩

/-! ### Errors, tests, commands -/

theorem wit_ErrorEvents : storedSector 0 = true := by decide +kernel
theorem wit_ErrorEvents_scratchpad : storedSector (padKey 0 0 / 48) = true := by
  unfold storedSector; rw [Bool.or_eq_true]; exact .inr (by decide +kernel)
theorem wit_ErrorEvents_words : 5 < 12 ∧ 64 * 1 < (lab labX).vec.vlmax ∧ (labQueued.queueSerials .vector)[0]? = some 1 := by decide
/-- The same groups in a protected task. -/
def protectedGroup (g : Group) : Group := { g with idn := { g.idn with tattr := 4 } }
theorem wit_ErrorEvents_lane : let g := protectedGroup labQueued
    g.protected_ = true ∧ (vectorHead (labState g) 0 0 g).map (fun h => (h.1.vl, h.1.serial)) = some (4, 1) ∧ g.vec.vst ≤ 4
      ∧ g.que.bad.contains 1 = false := by decide +kernel
theorem wit_ErrorEvents_pair : let g := protectedGroup { labMatrix with que := { labMatrix.que with mq := [mentry (.tmma 0 1 1 0)] } }
    g.protected_ = true ∧ (nextTmma (labState g) 0 0 g).isSome = true := by decide +kernel
theorem wit_ErrorEvents_slice : (labState (lab labX)).group? 0 0 = some (lab labX) ∧ 127 < (lab labX).vec.vlmax ∧ 16 * 7 < (lab labX).idn.alloc :=
  ⟨rfl, by decide, by decide⟩
theorem wit_ErrorEvents_tlb : 0 < ((({ State.reset with cores := [(0, { Core.empty with tlb := [{ asid := 0, base := 0, size := 4096, leaf := 0, pte := 0 }] })] } : State).core 0).tlb).length := by
  decide +kernel
theorem wit_ErrorEvents_removal :
    let s := { State.reset with mem := mapCells 3, trowel := { Trowel.empty with removals := [(3, false)] } }
    s.trowel.removals.contains (3, false) = true ∧ teamOn s 3 = false ∧ mapState s 3 = 0 ∧ mapOut s 3 < mostMapOut 3 := by decide +kernel
theorem wit_ErrorEvents_occupied : let s := { taskState labWorker (smallTeam none false none) none with mem := mapCells 0 }
    teamOn s 0 = true ∧ mapState s 0 = 0 ∧ s.trowel.removals.contains (0, true) = false := by decide +kernel
theorem wit_ErrorEvents_icache :
    0 < ((({ State.reset with cores := [(0, { Core.empty with icache := [(0, 0)] })] } : State).core 0).icache).length := by decide +kernel
theorem wit_ErrorEvents_down : (({ State.reset with cores := [(288, { Core.empty with down := true })] } : State).core 288).down = true := by decide

/-- A test block on firmware core 0. -/
def testState (b : TestBlock) (now : Nat) : State := { State.reset with now := now, cores := [(288, { Core.empty with test := b })] }
theorem wit_TestBlockSteps_start : let s := testState .empty 0
    (s.test 0).stat = 0 ∧ s.occupied (s.test 0).sel = false ∧ testedElsewhere s 0 (s.test 0).sel = false := by decide +kernel
theorem wit_TestBlockSteps_states : ∀ n ∈ [1, 2, 3, 4, 5, 6], (((testState { TestBlock.empty with stat := n } 250000).test 0).stat = n
    ∧ 250000 ≤ (testState { TestBlock.empty with stat := n } 250000).now - ((testState { TestBlock.empty with stat := n } 250000).test 0).started
    ∧ (testState { TestBlock.empty with stat := n } 250000).flights = []) := by decide +kernel

/-- A command of a kind, and the machine with it at the head of queue 1. -/
def command (kind : Nat) (state : CmdState) (words : List Word) : Command :=
  { seq := 1, kind := kind, flags := 2, words := words, jidx := 3, jgen := 0, ring := 0, state := state, result := none, task := 0 }
def labQueue (cs : List Command) : CmdQueue :=
  { enable := true, haltfail := false, loaded := true, ringbase := 0x40000, ringlog := 6, ptb := 0x4000, asid := 3, priority := 2, share := 1, part := 0,
    budget := 0, period := 0, tail := 1, qhead := 0, pendingBit := true, nextSeq := 1, qseq := 0, commands := cs, charge := 0, remainder := 0, periodStart := 0,
    descheduled := false, failedSeqs := [1], msgAt := 0, msgHeld := true }
def queueState (cs : List Command) : State :=
  { labState (lab labX) with queues := [(1, labQueue cs)], trowel := { Trowel.empty with jbase := 0x100000 } }
theorem wit_CommandResults : ∀ n ∈ [8, 3, 4, 5, 6, 7, 2],
    ((queueState [command n .started []]).queue 1).commands.find? (fun c => c.kind == n && c.state = .started && c.result.isNone)
      = some (command n .started []) ∧ (queueState [command n .started []]).powered = true := by decide +kernel
theorem wit_CommandResults_signal : (match trowelWord (queueState []) (trowelCtx ((queueState []).queue 1)) .atomic 0x20000 with
    | .ok sps => some sps.length
    | .error _ => none) = some 1 ∧ (match trowelWord (queueState []) (trowelCtx ((queueState []).queue 1)) .atomic 0x20004 with
    | .ok _ => none
    | .error f => some f.1) = some 0x05 := by decide +kernel
theorem wit_CommandResults_wait_marks : (∃ s1, readProgress { queueState [] with mem := cellsAt 0x20000 (toBytes 8 (2 ^ 63)) ++ (queueState []).mem }
      (trowelCtx ((queueState []).queue 1)) 0x20000 = (s1, .ok 0x8000000000000000))
    ∧ ∃ s1, readProgress { queueState [] with mem := cellsAt 0x20000 (toBytes 8 (2 ^ 62)) ++ (queueState []).mem }
      (trowelCtx ((queueState []).queue 1)) 0x20000 = (s1, .ok 0x4000000000000000) := ⟨ok_of (by decide +kernel), ok_of (by decide +kernel)⟩
theorem wit_CommandResults_wait : ∃ s1, readProgress (queueState []) (trowelCtx ((queueState []).queue 1)) 0x20000 = (s1, .ok 0) := ok_of (by decide +kernel)
theorem wit_CommandResults_depend : let s := { queueState [] with queues := [(1, { labQueue [] with qseq := 1 })], trowel := { Trowel.empty with qdtcount := 2 } }
    (∃ e ∈ (command 5 .started [0, 0x10011, 0, 0, 0, 0, 0, 0]).entries s, depFailed s e = true)
      ∧ (∀ e ∈ (command 5 .started [0, 0x00011, 0, 0, 0, 0, 0, 0]).entries s, depFailed s e = false ∧ depHolds s e = true) := by decide +kernel
theorem wit_CommandResults_copy : let c := command 2 .started [2, 96, 0, 0x20000, 0x30000, 0x8000, 0, 0]
    c.copyArgs.isSome = true ∧ (c.copyArgs.map fun a => let rows := a.rowSpans (queueState []) (trowelCtx (labQueue []))
      (a.refused (srcSpans rows) (dstSpans rows)).isSome) = some false := by decide +kernel
theorem wit_CommandResults_copyRefused : let c := command 2 .started [2, 96, 0, 0x20000, 0x7FFF00000000, 0x8000, 0, 0]
    (c.copyArgs.map fun a => let rows := a.rowSpans (queueState []) (trowelCtx (labQueue []))
      (a.refused (srcSpans rows) (dstSpans rows)).isSome) = some true := by decide +kernel

theorem wit_CommandLifetime_accept : let s := queueState []
    (s.queue 1).pendingBit = true ∧ (s.queue 1).commands.length < 16 ∧ journalFull s = false
      ∧ (let m := readMem s (trowelCtx (s.queue 1)) 4 2 true ((s.queue 1).ringbase + BitVec.ofNat 64 (64 * (s.queue 1).qhead)) 64
         m.fault.isNone && m.stall.isNone) = true := by decide +kernel
theorem wit_CommandLifetime_refuse : let s := { queueState [] with queues := [(1, { labQueue [] with ringbase := 0xFFFF_0000_0000_0000 })] }
    (readMem s (trowelCtx (s.queue 1)) 4 2 true ((s.queue 1).ringbase + BitVec.ofNat 64 (64 * (s.queue 1).qhead)) 64).fault.isSome = true := by decide +kernel
theorem wit_CommandLifetime_open : selectionOpen (queueState [command 8 .accepted []]) = false := by decide +kernel
theorem wit_CommandLifetime_select : (scanPriorities (queueState [command 8 .accepted []]) 0 16).map (fun x => (x.1, x.2.1, x.2.2.kind)) = some (2, 1, 8)
    ∧ (scanPriorities (queueState [command 1 .accepted []]) 0 16).map (fun x => (x.1, x.2.1, x.2.2.kind)) = some (2, 1, 1) := by decide +kernel
/-- A task of one cluster whose LAUNCH has been selected and is still to be placed. -/
def newTask : Task := { labTask none with next := 0, live := [], placing := true }
/-- The machine with nothing on its cores, of which the map has core 1 in service, or none. -/
def launchState (k : Task) (c : Command) (removed : Bool) : State :=
  { queueState [c] with
    cores := [], tasks := [(1, some k)]
    mem := (if removed then (List.range 288).flatMap fun n => cellsAt (Config.cmapBase + 8 * n) (toBytes 8 (3 * 2 ^ 21)) else mapCells 1) ++ (queueState []).mem
    trowel := { (queueState []).trowel with weeder := [{ due := 0x60000, occ := 0x61000, lpend := 0x62000, pri := 0x64000, door := 0x63000, thr := 15 }] } }
def launchCommand (st : CmdState) : Command := { command 1 st [] with task := 1, jidx := 0 }
theorem wit_CommandLifetime_launch : let s := launchState newTask (launchCommand .accepted) false
    (s.queue 1).waiting = some (launchCommand .accepted) ∧ s.task 1 = some newTask ∧ newTask.placing = true := by decide +kernel
/-- The first wave of the task in that machine. -/
def labWave (k : Task) (s : State) : Option State :=
  firstWave (startCommand (s.setTask 1 (some { k with placing := false })) 1 (launchCommand .accepted)) 1 k k.pri
theorem wit_CommandLifetime_claims :
    (labWave newTask (launchState newTask (launchCommand .accepted) false)).map (fun s1 => (s1.task 1).map fun k => (k.next, k.claim)) = some (some (0, [1]))
      ∧ newTask.claim = [] := by decide +kernel
theorem wit_CommandLifetime_wave : let k := { newTask with claim := [1] }
    (labWave k (launchState k (launchCommand .accepted) false)).map (fun s1 => (s1.task 1).map fun k => k.next) = some (some 1) := by decide +kernel
/-- One that needs banks in which a resilient team has dirty sectors. -/
def cutTask : Task := { newTask with descr := { newTask.descr with vlmax := 1024, slices := 768, groups := 2 }, claim := [1] }
def cutState : State :=
  { launchState cutTask (launchCommand .accepted) false with
    cores := [(1, { Core.empty with l1 := [{ sector := 5, way := 20, data := 0, delta := 0, bad := false, dirty := 7 }] })]
    teams := [(7, some { labTeam with task := 2, resilient := some (labResilient false) })] }
theorem wit_CommandLifetime_cuts : (labWave cutTask cutState).map (fun s1 => (s1.task 1).map fun k => (k.next, k.claim)) = some (some (0, [1]))
    ∧ cutTask.claim = [1] := by decide +kernel
theorem wit_CommandLifetime_unplaced : let s := launchState { newTask with descr := { newTask.descr with width := 12, height := 12 } } (launchCommand .accepted) true
    (firstWave (startCommand (s.setTask 1 (some { newTask with placing := false, descr := { newTask.descr with width := 12, height := 12 } })) 1
      (launchCommand .accepted)) 1 { newTask with descr := { newTask.descr with width := 12, height := 12 } } 2).isNone = true := by decide +kernel
theorem wit_CommandLifetime_pass : let k := { newTask with placing := false, due := true }
    let s := launchState k (launchCommand .started) false
    s.task 1 = some k ∧ launched s k = true ∧ mayPlace s k (s.queue k.queue).priority = true ∧ (∀ v ∈ s.saved, v.task ≠ 1)
      ∧ (placeWave 1 (k.descr.clusters - k.next) (s.setTask 1 (some { k with due := false }))).isSome = true
      ∧ (labTask none).descr.clusters ≤ (labTask none).next := by decide +kernel
theorem wit_CommandLifetime_final : let s := queueState [{ command 8 .started [] with result := some (.done, 0, 5) }]
    (s.queue 1).commands.head?.map (fun c => (c.result, c.kind, c.jidx)) = some (some (.done, 0, 5), 8, 3) ∧ Safe s ∧ 3 < 2 ^ s.trowel.jlog
      ∧ FMap.wf CmdQueue.empty s.queues = true := ⟨by decide +kernel, safe_lab (lab labX), by decide +kernel, by decide +kernel⟩
theorem wit_CommandLifetime_failed : CmdState.failed ≠ .done ∧ CmdState.cancelled ≠ .failed := by decide
theorem wit_CommandLifetime_message : ((queueState []).queue 1).msgHeld = true ∧ ((queueState []).queue 1).msgAt ≤ (queueState []).refTicks := by decide +kernel
theorem wit_CommandLifetime_event : let s := { queueState [] with trowel := { Trowel.empty with events := [(17, 3)] } }
    journalFull s = false ∧ s.trowel.events.contains (17, 3) = true := by decide +kernel
theorem wit_CommandLifetime_charge : let s := { queueState [] with now := 3000000, queues := [(1, { labQueue [] with period := 5 })] }
    s.trowel.lastCharge + 1000 ≤ s.refTicks ∧ (s.queue 1).period ≠ 0 ∧ (s.queue 1).periodStart + (s.queue 1).period ≤ s.refTicks := by decide +kernel

/-! ### Power, the host, the mailbox, the fabric -/

theorem wit_PowerSteps : let s := { State.reset with now := 3000000 }
    s.powered = true ∧ s.trowel.lastSample + 1000 ≤ s.refTicks ∧ s.powerLimit < 3001 ∧ 3000 ≤ s.powerLimit ∧ FMap.wf Die.empty s.dies = true := by decide +kernel
theorem wit_PowerSteps_low : let s := { State.reset with now := 3000000, belowCount := 9 }
    2849 * 100 < s.powerLimit * 95 ∧ Min.min 10 (s.belowCount + 1) = 10 := by decide +kernel
theorem wit_PowerSteps_dies : let d : Die := { level := 3, hold := true, droopEnd := some 5, untrained := true }
    let s := { State.reset with now := 5, dies := [(0, d)] }
    (s.die 0).hold = true ∧ (s.die 0).droopEnd = some 5 ∧ 5 ≤ s.now ∧ (s.die 0).untrained = true := by decide +kernel

/-- The machine with queue 1 loaded, idle or not. -/
def hostState (e : Bool) : State :=
  { State.reset with queues := [(1, { labQueue [] with enable := e })], trowel := { Trowel.empty with qdtcount := 2, qdtbase := 0x10000 } }
theorem wit_HostAccesses_doorbell : let s := hostState true
    1 < Min.min 4096 s.trowel.qdtcount.toNat ∧ (s.queue 1).loaded = true ∧ (63 : BitVec 64).toNat < 2 ^ (s.queue 1).ringlog
      ∧ ¬ (64 : BitVec 64).toNat < 2 ^ (s.queue 1).ringlog := by decide +kernel
theorem wit_HostAccesses_registers : (0x7F_FFFF_F000 : BitVec 64).toNat < 2 ^ 39 ∧ (0x7F_FFFF_F000 : BitVec 64).toNat % 4096 = 0 ∧ anyEnabled (hostState false) = false
    ∧ anyEnabled (hostState true) = true := by decide +kernel
theorem wit_HostAccesses_pages : (0x100_0000 + 4096 * 4095 + 0xFFF) % 8 ≠ 0 ∧ 0x100_0000 + 4096 * 4095 + 0xFFF < 0x200_0000 ∧ 0x0FF_FFFF % 8 ≠ 0
    ∧ 0x200_0001 % 8 ≠ 0 := by decide
theorem wit_HostAccesses_memory : maskKeys 48 [true, false, true] = [48, 50] ∧ (∀ k ∈ maskKeys 48 [true, false, true], ∀ q ∈ maskKeys 48 [true, false, true], k / 192 = q / 192)
    ∧ hostReaches State.reset [48, 50] ∧ maskCells 48 [some 7, none, some 8] = [(48, 7), (50, 8)] ∧ Safe State.reset := by
  unfold hostReaches; exact ⟨by decide, by decide, by decide +kernel, by decide, rfl⟩
theorem wit_HostAccesses_shut : ¬hostReaches { State.reset with trowel := { Trowel.empty with hostctl := 0 } } [48, 50] := by
  unfold hostReaches; intro h; exact absurd h.2 (by decide)
/-- The machine whose memory holds a descriptor of queue 1. -/
def descrState : State :=
  { hostState false with mem := memWrite [] (cellsAt 0x10040 (toBytes 64
      (0x40000 + 0x4000 * 2 ^ 64 + 3 * 2 ^ 128 + 2 * 2 ^ 144 + 2 ^ 152 + 6 * 2 ^ 168 + 2 ^ 176 + 1000 * 2 ^ 224))) }
theorem wit_HostAccesses_qload : queueExists descrState 1 = true ∧ queueReserved (readDescr descrState 1) = true ∧ (readDescr descrState 1 / 2 ^ 176) % 2 = 1
    ∧ (descrState.queue 1).enable = false ∧ queueLimits descrState (readDescr descrState 1) = true ∧ descrState.trowel.owner.owned = true := by decide +kernel
theorem wit_HostAccesses_qloadEnds : (readDescr (hostState true) 1 / 2 ^ 176) % 2 ≠ 1 ∧ queueReserved (readDescr (hostState true) 1) = true
    ∧ queueExists (hostState true) 1 = true ∧ ((hostState true).queue 1).enable = true ∧ ((hostState false).queue 1).enable = false := by decide +kernel
theorem wit_HostAccesses_partition : (3 : BitVec 64).toNat < 2 ^ 25 ∧ (∀ j, j < 8 → j ≠ 0 → partColumns (FMap.get 0 State.reset.trowel.parts j) &&& partColumns 3 = 0)
    ∧ teamInColumns State.reset (partColumns (FMap.get 0 State.reset.trowel.parts 0) ^^^ partColumns 3) = false
    ∧ partColumns (FMap.get 0 State.reset.trowel.parts 0) &&& partColumns 3 ≠ 0 ∧ (1 : BitVec 64).toNat < 2 := by decide +kernel
theorem wit_HostAccesses_refused : queueExists (hostState false) 1 = true ∧ queueExists (hostState false) 2 = false ∧ (8 : Nat) < 9 ∧ 2 ^ 25 ≤ (BitVec.allOnes 64).toNat := by
  decide +kernel

/-- The machine with a request in the mailbox. -/
def mailState (owned acted : Bool) (req : FMap Word) : State :=
  { State.reset with trowel := { Trowel.empty with mail := { Mailbox.empty with req := req, busy := true, acted := acted }, owner := { Owner.empty with owned := owned } } }
theorem wit_MailboxSteps_unowned : ∀ k ∈ [1, 2, 3, 4, 5, 7, 8], asks (mailState false false [(0, BitVec.ofNat 64 k)]) k := by
  unfold asks; decide +kernel
theorem wit_MailboxSteps_owned : (mailState true false [(0, 4), (1, 3000)]).trowel.owner.owned = true ∧ asks (mailState true false [(0, 4), (1, 3000)]) 4
    ∧ 1800 ≤ ((mailState true false [(0, 4), (1, 3000)]).req 1).toNat ∧ ((mailState true false [(0, 4), (1, 3000)]).req 1).toNat ≤ 3000
    ∧ ((mailState true false [(0, 4), (1, 1799)]).req 1).toNat < 1800 := by unfold asks; decide +kernel
theorem wit_MailboxSteps_invalidation : ((mailState true false [(0, 2), (1, 49152), (2, 49152)]).req 1).toNat % 49152 = 0
    ∧ ((mailState true false [(0, 2), (1, 1)]).req 1).toNat % 49152 ≠ 0 := by decide +kernel
theorem wit_MailboxSteps_extend : ((mailState true false [(0, 0x307)]).req 0).toNat / 2 ^ 8 % 2 ^ 3 = 3 ∧ ((mailState true false [(0, 0x207)]).req 0).toNat / 2 ^ 8 % 2 ^ 3 < 3
    ∧ asks (mailState true false [(0, 0x307)]) 7 := by unfold asks; decide +kernel
theorem wit_MailboxSteps_always : asks (mailState false false [(0, 6)]) 6 ∧ asks (mailState true false [(0, 9)]) 9 := by unfold asks; decide +kernel
theorem wit_MailboxSteps_acknowledged : let s := mailState true true [(0, 2)]
    s.trowel.mail.acked = false ∧ s.trowel.mail.result = 0 ∧ (s.req 0).toNat % 2 ^ 8 = 2 ∧ translatedLeft s = false
      ∧ (requestOver { mailState true true [(0, 4)] with powered := true }).isSome = true := by decide +kernel

/-- A flit that writes a line of the device numbered 0. -/
def flit (good : Bool) (dst : Nat) : Flit :=
  { port := 63, dst := dst, src := 1, kind := .write, sectorMask := 15, addr := 0, comm := 0, attempt := 0, seq := 0, chunk := 0, data := List.replicate 192 0,
    head := { fn := 3, op := 0, fmt := 0, count := 0, root := 0 }, checks := [], crcGood := good }
theorem wit_FabricSteps_flit : (flit true 0).port < 64 ∧ State.reset.fabric.ports.getLsbD (flit true 0).port = true ∧ (flit true 0).dst = State.reset.trowel.osid.toNat
    ∧ (flit true 1).dst ≠ State.reset.trowel.osid.toNat ∧ (exportAddress State.reset ((flit true 0).addr / 192 * 192) 192 true).isNone = true := by decide +kernel
theorem wit_FabricSteps_module : State.reset.ucie.getLsbD 3 = true ∧ State.reset.fabric.ports.getLsbD 63 = true := by decide
theorem wit_FabricSteps_down : let s := { State.reset with fabric := { Fabric.empty with replays := [(5, 64)] } }
    64 ≤ FMap.get 0 s.fabric.replays 5 ∧ s.fabric.runs = [] ∧ s.fabric.ports.getLsbD 5 = true := by decide
theorem wit_FabricSteps_tokens : ((0 : BitVec 32) - attemptOf State.reset 0).toInt ≤ 0 ∧ 0 < ((1 : BitVec 32) - attemptOf State.reset 0).toInt := by decide +kernel

/-! ### Clusters that nothing holds up -/

theorem rests_lab : labWorker.Rests := ⟨rfl, rfl, rfl, rfl, rfl, rfl, rfl, rfl, rfl⟩
/-- The machine with one resting group and a pool for images. -/
def restState (r : Option Resilient) (cut : Bool) : State :=
  { taskState labWorker (smallTeam r cut none) none with trowel := { Trowel.empty with ctxbase := 0x300000, ctxsize := 0x100000 } }
theorem resting_state (r : Option Resilient) (cut : Bool) : Resting (restState r cut) :=
  ⟨rfl, rfl, rfl, fun e h => by
    have : e = (0, 0, labWorker) := by simpa [restState, taskState, labState, State.liveGroups] using h
    exact this ▸ rests_lab⟩
theorem wit_QuietClusters_checkpoint : let s := restState (some (labResilient false)) true
    s.team 1 = some (smallTeam (some (labResilient false)) true none) ∧ verified s 1 = true ∧ (∀ j, s.task 1 = some j → j.kill = none) :=
  ⟨rfl, by decide +kernel, fun j h => by cases h; rfl⟩
theorem wit_QuietClusters_preemption : let s := restState none false
    s.task 1 = some (labTask none) ∧ FMap.wf none s.teams = true ∧ teamsOf s 1 0 = [(1, smallTeam none false none)]
      ∧ teamGroups s 1 = [(0, 0, labWorker)] ∧ s.group? 0 0 = some labWorker
      ∧ (let s1 := (stopGroup s 0 0).getD s
         poolRoom s1 (teamImage s1 (smallTeam none false none) (labTask none) (teamGroups s1 1)).length = some 0x300000) := by decide +kernel
theorem wit_QuietClusters_resume : let s0 := { imageState with saved := imageState.saved.filter fun x => !(x.task == 1 && x.cluster == 0) }
    let l : Loaded := { saved := imageTeam, bytes := memBytes imageState.mem imageTeam.addr imageTeam.size, groups := [] }
    imageState.saved.filter (fun v => v.task == 1 && v.cluster == 0) = [imageTeam] ∧ mayPlace imageState (labTask none) (imageState.queue 1).priority = true
      ∧ readTeam (memBytes imageState.mem imageTeam.addr imageTeam.size) imageTeam.size imageTeam.groups = some []
      ∧ searchRect s0 (imageState.queue 1).part 1 1 [0] (fun i x => coreFits s0 x (resumeDemand 1 (labTask none).descr [l] i)) = some [1]
      ∧ (padPlan s0 1 (resumeDemand 1 (labTask none).descr [l] 0)).isSome = true ∧ (imageState.core 1).l1 = [] := by decide +kernel
/-- The machine of a LAUNCH without an area of a Weeder. -/
def quietState (k : Task) (c : Command) : State :=
  { launchState k c false with trowel := { (launchState k c false).trowel with weeder := [] } }
theorem wit_QuietClusters_launch : let s := quietState newTask (launchCommand .accepted)
    let k0 := { newTask with placing := false }
    let s0 := startCommand (s.setTask 1 (some k0)) 1 (launchCommand .accepted)
    mayPlace s0 newTask newTask.pri = true ∧ newTask.next = 0
      ∧ searchRect s0 (s0.queue 1).part 1 1 (classOrder 0) (fun _ c => coreFits s0 c (startDemand 1 k0.descr)) = some [1]
      ∧ (padPlan s0 1 (startDemand 1 k0.descr)).isSome = true ∧ (s0.core 1).l1 = [] := by decide +kernel
theorem wit_QuietClusters_held : testHold (startCommand ((quietState newTask (launchCommand .accepted)).setTask 1 (some { newTask with placing := false })) 1
    (launchCommand .accepted)) newTask.pri = false := by
  unfold testHold; rw [Bool.and_eq_false_iff]; right; decide +kernel
theorem wit_QuietClusters_pass : let k0 := { newTask with placing := false }
    let s := quietState { k0 with due := true } (launchCommand .started)
    let s0 := s.setTask 1 (some k0)
    searchRect s0 (s0.queue 1).part 1 1 (classOrder 0) (fun _ c => coreFits s0 c (startDemand 1 k0.descr)) = some [1]
      ∧ (padPlan s0 1 (startDemand 1 k0.descr)).isSome = true ∧ (s0.core 1).l1 = [] := by decide +kernel

/-! ### Results of the vector and matrix units -/

/-- The vector unit of a state picks the one convoy of a group; `q` is something more that holds of what is picked. -/
theorem one_word_and {g : Group} {e : VEntry} {rest : List VEntry} {i : Instr} {caps : List Word} (q : State → Nat → Bool)
    (h : ((decide21 (labState g) 0 .vector).any fun x =>
      decide (x.1.group? 0 x.2 = some g) && decide (vectorHead x.1 0 x.2 g = some (e, rest)) && q x.1 x.2) = true)
    (h1 : e.members = [i] ∧ e.caps = [caps]) (h2 : g.vec.vst = 0 ∧ e.vl ≤ g.vec.vlmax ∧ g.vec.vlmax ≤ 1024)
    (h3 : g.que.bad.contains e.serial = false ∧ g.fil.badSlices = [] ∧ g.fil.badMasks = [])
    (h4 : FMap.wf 0 g.fil.slices = true ∧ FMap.wf 0 g.fil.masks = true)
    (hf : i.WellFormed) (h5 : e.prog = .fresh) : ∃ s1 k, OneWord (labState g) s1 0 k g e rest i caps ∧ q s1 k = true := by
  obtain ⟨s1, k, hs, hp⟩ := picked (fun s1 k => decide (s1.group? 0 k = some g) && decide (vectorHead s1 0 k g = some (e, rest)) && q s1 k) h
  simp only [Bool.and_eq_true, decide_eq_true_eq] at hp
  exact ⟨s1, k, ⟨rfl, hs, hp.1.1, hp.1.2, h1, hf, h2, h5, h3, h4⟩, hp.2⟩

def labSlices : FMap (BitVec 3072) := [(0, 0x123456789ABCDEF0123456), (3, 0xFF)]
def labMasks : FMap (BitVec 1024) := [(0, 5)]
theorem canonical_lab : FMap.wf 0 labSlices = true ∧ FMap.wf 0 labMasks = true := by decide +kernel
/-- A group whose vector queue holds a convoy of one word under a vector type, with slices, masks, two ports and x 1 to x 4. -/
def labTyped (i : Instr) (caps : List Word) (vt : Word) : Group :=
  let g := lab labX
  { g with
    que := { g.que with vq := [{ entry i caps with vt := vt }] }
    fil := { g.fil with
      slices := labSlices, masks := labMasks
      ports := [(1, { Port.empty with kind := .fifo, fifo := (List.range 4).map fun n => (n + 1, vtEws vt) })] } }
def labVector (i : Instr) (caps : List Word) : Group := labTyped i caps 0x3B8
/-- The word runs in that group, under the vector type. -/
def Runs (i : Instr) (caps : List Word) (vt : Word) (q : State → Nat → Bool) : Prop :=
  ∃ s1 k, OneWord (labState (labTyped i caps vt)) s1 0 k (labTyped i caps vt) { entry i caps with vt := vt } [] i caps ∧ q s1 k = true
theorem runs {i : Instr} {caps : List Word} {vt : Word} (q : State → Nat → Bool)
    (h : ((decide21 (labState (labTyped i caps vt)) 0 .vector).any fun x => decide (x.1.group? 0 x.2 = some (labTyped i caps vt))
      && decide (vectorHead x.1 0 x.2 (labTyped i caps vt) = some ({ entry i caps with vt := vt }, [])) && q x.1 x.2) = true)
    (hf : i.WellFormed) : Runs i caps vt q :=
  one_word_and q h ⟨rfl, rfl⟩ ⟨rfl, (by decide : 4 ≤ 128), (by decide : 128 ≤ 1024)⟩ ⟨rfl, rfl, rfl⟩
    canonical_lab hf rfl
/-- fs enables no exception in it. -/
theorem no_stops (i : Instr) (caps : List Word) (vt : Word) (fl : FlagSet) : (labTyped i caps vt).stops fl = false := by
  simp [Group.stops, labTyped, lab, enabledFlags]

theorem wit_VectorArithmeticResults : Runs (.vadd 0 2 0 1 1 0) [] 0x3B8 fun _ _ => true := runs _ (by decide +kernel) (by decide)
theorem wit_VectorArithmeticResults_scalar : Runs (.vmul 1 2 0 1 0 0) [7] 0x3B8 fun _ _ => true := runs _ (by decide +kernel) (by decide)
theorem wit_VectorArithmeticResults_types : integerTypes (entry (.vadd 0 2 0 1 1 0) []) ∧ vtSat (entry (.vadd 0 2 0 1 1 0) []).vt = false
    ∧ (integerResult (4 * vtEwd (0x3B8 : BitVec 64)) 0 0 0 (.vadd 0 2 0 1 1 0)).isSome = true
    ∧ (nameRange 0x3B8 8 2).1 + (nameRange 0x3B8 8 2).2 ≤ (lab labX).idn.alloc ∧ performs (labVector (.vadd 0 2 0 1 1 0) []) (entry (.vadd 0 2 0 1 1 0) []) 1 2
    ∧ ¬ performs (labVector (.vadd 0 2 0 1 1 0) []) (entry (.vadd 0 2 0 1 1 0) []) 1 3
    ∧ ¬ performs (labVector (.vadd 0 2 0 1 1 0) []) (entry (.vadd 0 2 0 1 1 0) []) 0 4 := by
  unfold integerTypes performs; decide +kernel

/-- The work of a member after it has taken the values of its port for j elements, n for each. -/
def taken (me : MemberEnv) (q n : Nat) (w : Work) : Nat → Work
  | 0 => w
  | j + 1 => match takeMany me q n (taken me q n w j) with
    | .ok p => p.2.2
    | .error _ => taken me q n w j
/-- The port has them all. -/
def supplies (me : MemberEnv) (q n : Nat) (w : Work) : Bool :=
  (List.range me.e.vl).all fun j => (takeMany me q n (taken me q n w j)).toOption.isSome
theorem gives {me : MemberEnv} {b : BitVec 6} {n : Nat} {w : Work} (h : supplies me (b.toNat % 8) n w = true) :
    ∃ σ vs fl, portGives me w b n σ vs fl := by
  refine ⟨taken me (b.toNat % 8) n w, fun j => ((takeMany me (b.toNat % 8) n (taken me (b.toNat % 8) n w j)).toOption.map (·.1)).getD [],
    fun j => ((takeMany me (b.toNat % 8) n (taken me (b.toNat % 8) n w j)).toOption.map (·.2.1)).getD 0, rfl, fun j hj => ?_⟩
  have hs := List.all_eq_true.mp h j (List.mem_range.mpr hj)
  cases hr : takeMany me (b.toNat % 8) n (taken me (b.toNat % 8) n w j) with
  | error x => simp [hr, Except.toOption] at hs
  | ok p => simp [taken, hr, Except.toOption]
/-- The member `i` of a state that is picked, alone in its convoy. -/
def lone (i : Instr) (caps : List Word) (vt : Word) (s1 : State) (k : Nat) : MemberEnv × Work :=
  loneMember s1 0 k (labTyped i caps vt) { entry i caps with vt := vt } caps

/-- The numbers of the vector types: destination and source class and width. -/
def vtWith (ds wd ss ws : Nat) : Word := BitVec.ofNat 64 (ds + (wd - 1) * 8 + (ws - 1) * 128 + ss * 2048)
theorem wit_VectorArithmeticResults_elements : Runs (.vadd 0 2 0 1 1 0) [] (vtWith 3 4 2 8) (fun _ _ => true)
    ∧ elementForm (.vadd 0 2 0 1 1 0) = some (0, 2, some 0, 1, 1) ∧ permits { entry (.vadd 0 2 0 1 1 0) [] with vt := vtWith 3 4 2 8 } (.vadd 0 2 0 1 1 0) = true
    ∧ (nameRange (vtWith 3 4 2 8) 8 1).1 + 8 ≤ (lab labX).idn.alloc := ⟨runs _ (by decide +kernel) (by decide), by decide, by decide, by decide⟩
theorem wit_VectorArithmeticResults_port : (Runs (.vsub 3 2 0 1 1 0) [] 0x3B8 fun s1 k =>
      let m := lone (.vsub 3 2 0 1 1 0) [] 0x3B8 s1 k
      supplies m.1 ((1 : BitVec 6).toNat % 8) 1 m.2) ∧ permits (entry (.vsub 3 2 0 1 1 0) []) (.vsub 3 2 0 1 1 0) = true :=
  ⟨runs _ (by decide +kernel) (by decide), by decide⟩
theorem wit_VectorArithmeticResults_carry : Runs (.vadc 0 2 0 1 1 0) [] 0x3B8 (fun _ _ => true)
    ∧ permits (entry (.vadc 0 2 0 1 1 0) []) (.vadc 0 2 0 1 1 0) = true := ⟨runs _ (by decide +kernel) (by decide), by decide⟩
theorem wit_VectorArithmeticResults_untyped : Runs (.vand 0 2 0 1 0 0) [] (vtWith 2 8 2 8) (fun _ _ => true)
    ∧ permits { entry (.vand 0 2 0 1 0 0) [] with vt := vtWith 2 8 2 8 } (.vand 0 2 0 1 0 0) = false
    ∧ ¬ droppedBy (labTyped (.vand 0 2 0 1 0 0) [] (vtWith 2 8 2 8)) 0 := by
  unfold droppedBy; exact ⟨runs _ (by decide +kernel) (by decide), by decide, by decide⟩
theorem wit_VectorArithmeticResults_past : Runs (.vmv 0 63 1 1 0) [] 0x3B8 (fun _ _ => true) ∧ elementForm (.vmv 0 63 1 1 0) = some (0, 63, none, 1, 1)
    ∧ permits (entry (.vmv 0 63 1 1 0) []) (.vmv 0 63 1 1 0) = true ∧ (lab labX).idn.alloc < (nameRange 0x3B8 8 63).1 + 8
    ∧ ¬ droppedBy (labVector (.vmv 0 63 1 1 0) []) 1 := by
  unfold droppedBy; exact ⟨runs _ (by decide +kernel) (by decide), by decide, by decide, by decide, by decide +kernel⟩

theorem wit_MaskOperations : Runs (.mshl1 3 0 0) [] 0x3B8 fun _ _ => true := runs _ (by decide +kernel) (by decide)
theorem wit_CompareMasks : Runs (.vcmplt 0 2 0 1 1 0) [] 0x3B8 (fun _ _ => true) ∧ compareForm (.vcmplt 0 2 0 1 1 0) = some (0, 2, 0, 1, 1, .lt)
    ∧ permits (entry (.vcmplt 0 2 0 1 1 0) []) (.vcmplt 0 2 0 1 1 0) = true ∧ ¬ droppedBy (labVector (.vcmplt 0 2 0 1 1 0) []) 1 := by
  unfold droppedBy; exact ⟨runs _ (by decide +kernel) (by decide), by decide, by decide, by decide +kernel⟩
theorem wit_CompareMasks_port : (Runs (.vcmpun 3 2 0 1 0 0) [] (vtWith 2 8 2 8) fun s1 k =>
      let m := lone (.vcmpun 3 2 0 1 0 0) [] (vtWith 2 8 2 8) s1 k
      supplies m.1 ((1 : BitVec 6).toNat % 8) 1 m.2)
    ∧ permits { entry (.vcmpun 3 2 0 1 0 0) [] with vt := vtWith 2 8 2 8 } (.vcmpun 3 2 0 1 0 0) = true := ⟨runs _ (by decide +kernel) (by decide), by decide⟩
theorem wit_CompareMasks_counts : Runs (.vmpop 3 0 2 0) [] 0x3B8 fun _ _ => true := runs _ (by decide +kernel) (by decide)
theorem wit_CompareMasks_masks : (labVector (.vmpop 3 0 2 0) []).allFalse 1 = true ∧ (labVector (.vmpop 3 0 2 0) []).allFalse 0 = false
    ∧ countedBits (labVector (.vmpop 3 0 2 0) []) (entry (.vmpop 3 0 2 0) []) 0 0 = [0, 2]
    ∧ countedBits (labVector (.vmpop 3 0 2 0) []) (entry (.vmpop 3 0 2 0) []) 1 0 = [] := by decide +kernel

theorem wit_MoveReduceResults_moves : Runs (.vperm 2 0 1 1 0) [] 0x3B8 (fun _ _ => true) ∧ movingForm (.vperm 2 0 1 1 0) = some (2, [0], 1)
    ∧ permits (entry (.vperm 2 0 1 1 0) []) (.vperm 2 0 1 1 0) = true ∧ (nameRange 0x3B8 8 1).1 + 8 ≤ (lab labX).idn.alloc :=
  ⟨runs _ (by decide +kernel) (by decide), by decide, by decide, by decide⟩
theorem wit_MoveReduceResults_reduces : Runs (.vredmax 0 2 0 1 1 0) [] (vtWith 2 8 2 8) (fun _ _ => true)
    ∧ permits { entry (.vredmax 0 2 0 1 1 0) [] with vt := vtWith 2 8 2 8 } (.vredmax 0 2 0 1 1 0) = true
    ∧ ¬ droppedBy (labTyped (.vredmax 0 2 0 1 1 0) [] (vtWith 2 8 2 8)) 1 ∧ droppedBy (labTyped (.vredmax 0 2 0 1 2 0) [] (vtWith 2 8 2 8)) 2 := by
  unfold droppedBy; exact ⟨runs _ (by decide +kernel) (by decide), by decide, by decide +kernel, by decide +kernel⟩
theorem wit_MoveReduceResults_dots : Runs (.vdot4 0 5 1 2 1 0) [] (vtWith 0 8 0 2) (fun _ _ => true)
    ∧ permits { entry (.vdot4 0 5 1 2 1 0) [] with vt := vtWith 0 8 0 2 } (.vdot4 0 5 1 2 1 0) = true
    ∧ (nameRange (vtWith 0 8 0 2) 2 2).1 + 4 * 2 ≤ (lab labX).idn.alloc := ⟨runs _ (by decide +kernel) (by decide), by decide, by decide⟩
/-- A port that holds the four values of each of four elements. -/
def labDots : Group :=
  let g := labTyped (.vdot4 3 5 1 2 0 0) [] (vtWith 0 8 0 2)
  { g with fil := { g.fil with ports := [(2, { Port.empty with kind := .fifo, fifo := (List.range 16).map fun n => (n, 2) })] } }
theorem wit_MoveReduceResults_dotsPort : ∃ s1 k,
    OneWord (labState labDots) s1 0 k labDots { entry (.vdot4 3 5 1 2 0 0) [] with vt := vtWith 0 8 0 2 } [] (.vdot4 3 5 1 2 0 0) []
      ∧ (let m := loneMember s1 0 k labDots { entry (.vdot4 3 5 1 2 0 0) [] with vt := vtWith 0 8 0 2 } []
         supplies m.1 ((2 : BitVec 6).toNat % 8) 4 m.2) = true :=
  one_word_and (fun s1 k => let m := loneMember s1 0 k labDots { entry (.vdot4 3 5 1 2 0 0) [] with vt := vtWith 0 8 0 2 } []
    supplies m.1 ((2 : BitVec 6).toNat % 8) 4 m.2) (by decide +kernel) ⟨rfl, rfl⟩ (by decide) ⟨by decide, rfl, rfl⟩
    ⟨by decide +kernel, by decide +kernel⟩ (by decide) rfl
theorem wit_MoveReduceResults_selects : Runs (.vtopm 2 1 2 16 1 0) [] 0x3B8 (fun _ _ => true) ∧ Runs (.vpickMax 10 3 1 0) [] 0x3B8 (fun _ _ => true)
    ∧ Runs (.vext 2 4 1 3 0) [] 0x3B8 (fun _ _ => true) := by
  exact ⟨runs _ (by decide +kernel) (by decide), runs _ (by decide +kernel) (by decide), runs _ (by decide +kernel) (by decide)⟩
theorem wit_MoveReduceResults_candidates : let g := labVector (.vpickMax 10 0 1 0) []
    let among := (activeList g (entry (.vpickMax 10 0 1 0) []) 1).map fun j => (j, extend (envOf 0x3B8) 0 8 (sourceBits g (entry (.vpickMax 10 0 1 0) []) 0 j))
    (among.any fun x => among.all fun y => !ranksBefore true y x) = true ∧ ¬ droppedBy g 1
      ∧ activeList g (entry (.vpickMax 10 0 2 0) []) 2 = [] := by
  unfold droppedBy; decide +kernel
theorem wit_MoveReduceResults_push : Runs (.vpushq 1 0 1 0) [] 0x3B8 (fun _ _ => true) ∧ Runs (.vpushq 2 0 1 0) [] 0x3B8 (fun _ _ => true)
    ∧ (let g := labVector (.vpushq 1 0 1 0) []
       (g.port 1).kind = .fifo ∧ (g.port 1).fifo.length + 2 ≤ 4 * g.vec.vlmax ∧ (g.port 2).kind ≠ .fifo ∧ FMap.wf Port.empty g.fil.ports = true
         ∧ (activeList g (entry (.vpushq 1 0 1 0) []) 1).length = 2) :=
  ⟨runs _ (by decide +kernel) (by decide), runs _ (by decide +kernel) (by decide), by decide +kernel⟩

/-! ### Vector words at memory -/

/-- The device as each element finds it, where an element's access leaves it as `act` says. -/
def afterEach (act : Nat → State → State) (s : State) : Nat → State
  | 0 => s
  | j + 1 => act j (afterEach act s j)
/-- The elements below vl of the word in `labTyped` that are active under mask 1, at each of which `p` holds of the device as found. -/
def atEach (i : Instr) (caps : List Word) (act : Nat → State → State) (p : Nat → State → Bool) (s1 : State) : Bool :=
  (List.range 4).all fun j => !activeAt (labVector i caps) (entry i caps) 1 j || p j (afterEach act s1 j)
def labCtx (i : Instr) (caps : List Word) (s1 : State) (k : Nat) : Ctx := ctxOf s1 0 k (labVector i caps)

theorem wit_VectorMemoryResults_loads : let i : Instr := .vld 2 3 0 0 1 0
    let caps : List Word := [0x20000, 0]
    (Runs i caps 0x3B8 fun s1 k =>
      let read (j : Nat) (s : State) : ReadOut := readMem s (labCtx i caps s1 k) 1 0 false (packedAt caps (32 * j)).1 4
      atEach i caps (fun j s => if activeAt (labVector i caps) (entry i caps) 1 j then (read j s).s else s)
        (fun j s => (read j s).fault.isNone && (read j s).stall.isNone) s1)
      ∧ (loadForm (labVector i caps) (entry i caps) caps i).map (fun f => (f.1, f.2.1, f.2.2.1, f.2.2.2.1, f.2.2.2.2.1)) = some (2, 1, 0, 1, 1)
      ∧ indexBelow (labVector i caps) (entry i caps) i := ⟨runs _ (by decide +kernel) (by decide), by decide, trivial⟩
theorem wit_VectorMemoryResults_witnesses : let i : Instr := .vlds 2 3 0 0 1 0
    let caps : List Word := [0x20000, 4, witnessOf 0 0 0 4]
    Runs i caps 0x3B8 fun s1 k => (checkWitness s1 (witnessOf 0 0 0 4)).isNone && waitOver (s1.setGroup 0 k (labVector i caps)) (witnessOf 0 0 0 4) :=
  runs _ (by decide +kernel) (by decide)
theorem wit_VectorMemoryResults_fills : let i : Instr := .vfill 3 16 15
    let caps : List Word := [0x20000]
    Runs i caps 0x3B8 fun s1 k =>
      let read (j : Nat) (s : State) : ReadOut := readMem s (labCtx i caps s1 k) 1 0 false (0x20000 + BitVec.ofNat 64 (8 * j)) 8
      let σ := afterEach (fun j s => (read j s).s) s1
      ((translate (σ 4) (labCtx i caps s1 k) .load (0x20000 + 31)).toOption.any fun r => decide ((47 - r.key % 48) / 8 = 4))
        && (List.range 8).all fun j => (read j (σ j)).fault.isNone && (read j (σ j)).stall.isNone := runs _ (by decide +kernel) (by decide)
theorem wit_VectorMemoryResults_stores : let i : Instr := .vst 2 3 0 0 0 1 0
    let caps : List Word := [0x20000]
    (Runs i caps 0x3B8 fun s1 k =>
      let ctx := labCtx i caps s1 k
      let sps (j : Nat) (s : State) : List Span := spans s ctx .store (packedAt caps (32 * j)).1 4
      let bits (j : Nat) : Nat := (storeForm.value (labVector i caps) (entry i caps) (packedAt caps (32 * j)) 2 0 j).1.2.2.2
      atEach i caps (fun j s => if activeAt (labVector i caps) (entry i caps) 1 j then
          sendBits s { ctx := ctx, path := 1, seq := 0, serial := 1, l1 := true } (sps j s) 0 32 (bits j) else s)
        (fun j s => (accessFault (sps j s)).isNone) s1)
      ∧ (storeForm (labVector i caps) (entry i caps) caps i).map (fun f => (f.1, f.2.1, f.2.2.1)) = some (1, true, 16, 8)
      ∧ (labState (labVector i caps)).pace = .prompt := ⟨runs _ (by decide +kernel) (by decide), by decide, by decide⟩

/-- No leaf entry of the spans holds the key. -/
def away (sps : List Span) (k : Nat) : Bool :=
  sps.all fun sp => match sp.ref with
    | .ok r => r.entry.all fun e => decide (k < e.pte ∨ e.pte + 8 ≤ k)
    | .error _ => true
theorem away_from {sps : List Span} {k : Nat} (h : away sps k = true) : awayFromLeaves sps k := fun sp hs r hr e he => by
  have := List.all_eq_true.mp h sp hs
  simpa [hr, he] using this
/-- The place of the first byte of a span, and the page that it lies in. -/
def firstKey (sps : List Span) : Nat := ((spanRefs sps).head?.map (·.1)).getD 0
def firstPage (r0 : Ref) (sps : List Span) : Ref := ((spanRefs sps).head?.map (·.2.2.1)).getD r0
/-- A location of a word at memory passes the checks of its type. -/
def placeOk (m : Nat) (s : State) (a : Word) (sps : List Span) : Bool :=
  match spanRefs sps with
  | [] => false
  | q :: _ => (accessFault sps).isNone && decide (a.toNat % m = 0) && (q.2.2.1.local_ || decide (q.2.2.1.tier ≤ 1)) && decide (q.1 + m ≤ remoteKey 0 0)
      && away sps q.1 && away sps (q.1 + (m - 1)) && !poisoned s (q.1 / 48) && (!q.2.2.1.chk || !mismatched s (q.1 / 48))
theorem place_ok {m : Nat} {s : State} {a : Word} {sps : List Span} (r0 : Ref) (h : placeOk m s a sps = true) :
    accessFault sps = none ∧ (∃ len ad, (spanRefs sps).head? = some (firstKey sps, len, firstPage r0 sps, ad)) ∧ a.toNat % m = 0
      ∧ ((firstPage r0 sps).local_ = true ∨ (firstPage r0 sps).tier ≤ 1) ∧ firstKey sps + m ≤ remoteKey 0 0
      ∧ awayFromLeaves sps (firstKey sps) ∧ awayFromLeaves sps (firstKey sps + (m - 1))
      ∧ poisoned s (firstKey sps / 48) = false ∧ ((firstPage r0 sps).chk = true → mismatched s (firstKey sps / 48) = false) := by
  unfold placeOk at h
  split at h
  next => simp at h
  next q rest hq =>
    obtain ⟨key, len, r, ad⟩ := q
    simp only [Bool.and_eq_true, decide_eq_true_eq, Bool.or_eq_true, Option.isNone_iff_eq_none, Bool.not_eq_true'] at h
    simp only [firstKey, firstPage, hq, List.head?_cons, Option.map_some, Option.getD_some]
    obtain ⟨⟨⟨⟨⟨⟨⟨h1, h2⟩, h3⟩, h4⟩, h5⟩, h6⟩, h7⟩, h8⟩ := h
    exact ⟨h1, ⟨len, ad, rfl⟩, h2, h3, h4, away_from h5, away_from h6, h7, fun hc => h8.resolve_left (by simp [hc])⟩

/-- The device after each element of a word at memory whose active elements `act` on it at their spans. -/
def atomicStates (i : Instr) (n : BitVec 6) (act : Nat → State → List Span → State) (s1 : State) (k : Nat) : Nat → State :=
  afterEach (fun j s => if activeAt (labVector i [0x20000]) (entry i [0x20000]) 1 j then
    act j s (spans s (labCtx i [0x20000] s1 k) .atomic (indexedAddr (labVector i [0x20000]) (entry i [0x20000]) [0x20000] j n) (vtEwd 0x3B8 / 2)) else s) s1
def atomicSpans (i : Instr) (n : BitVec 6) (σ : Nat → State) (s1 : State) (k j : Nat) : List Span :=
  spans (σ j) (labCtx i [0x20000] s1 k) .atomic (indexedAddr (labVector i [0x20000]) (entry i [0x20000]) [0x20000] j n) (vtEwd 0x3B8 / 2)
def atomicOk (i : Instr) (n : BitVec 6) (act : Nat → State → List Span → State) (s1 : State) (k : Nat) : Bool :=
  (List.range 4).all fun j => !activeAt (labVector i [0x20000]) (entry i [0x20000]) 1 j ||
    placeOk (vtEwd 0x3B8 / 2) (atomicStates i n act s1 k j) (indexedAddr (labVector i [0x20000]) (entry i [0x20000]) [0x20000] j n) (atomicSpans i n (atomicStates i n act s1 k) s1 k j)
def anyPage : Ref := { key := 0, room := 0, local_ := false, tier := 0, chk := false, cache := 0, entry := none }
theorem atomic_run {i : Instr} {fn : AtomicFn} {v n : BitVec 6} {act : Nat → State → List Span → State} {s1 : State} {k : Nat}
    (hv : (nameRange 0x3B8 (vtEwd 0x3B8) v).1 + vtEwd 0x3B8 ≤ 128 ∧ (nameRange 0x3B8 8 n).1 + 8 ≤ 128) (h : atomicOk i n act s1 k = true) :
    AtomicRun s1 0 k (labVector i [0x20000]) (entry i [0x20000]) [0x20000] fn v n 1 (atomicStates i n act s1 k)
      (fun j => firstKey (atomicSpans i n (atomicStates i n act s1 k) s1 k j)) (fun j => firstPage anyPage (atomicSpans i n (atomicStates i n act s1 k) s1 k j)) where
  type := ⟨(by decide : vtScls 0x3B8 = vtDcls 0x3B8), (by decide : vtEws 0x3B8 = vtEwd 0x3B8), .inl (by decide : vtEwd 0x3B8 = 8), .inl (by decide : vtDcls 0x3B8 ≤ 1)⟩
  names := ⟨hv.1, hv.2, (by decide : 128 ≤ 768)⟩
  begins := rfl
  idle j _ hj := by
    show (if _ then _ else _) = _
    rw [if_neg (by rw [hj]; decide)]; rfl
  placed j hj := by
    have hl : j < 4 := by
      have : (decide (j < 4) && _) = true := hj
      simp at this; exact this.1
    have := List.all_eq_true.mp h j (List.mem_range.mpr hl)
    rw [hj] at this
    rw [Bool.not_true, Bool.false_or] at this
    exact place_ok anyPage this
theorem wit_VectorMemoryResults_atomics : let i : Instr := .vamoAdd 2 3 8 1 0
    (∃ s1 k act, OneWord (labState (labVector i [0x20000])) s1 0 k (labVector i [0x20000]) (entry i [0x20000]) [] i [0x20000]
      ∧ AtomicRun s1 0 k (labVector i [0x20000]) (entry i [0x20000]) [0x20000] .add 2 8 1 (atomicStates i 8 act s1 k)
        (fun j => firstKey (atomicSpans i 8 (atomicStates i 8 act s1 k) s1 k j)) (fun j => firstPage anyPage (atomicSpans i 8 (atomicStates i 8 act s1 k) s1 k j))
      ∧ ∀ j, activeAt (labVector i [0x20000]) (entry i [0x20000]) 1 j = true → atomicStates i 8 act s1 k (j + 1)
          = act j (atomicStates i 8 act s1 k j) (atomicSpans i 8 (atomicStates i 8 act s1 k) s1 k j)) ∧ atomicForm i = some (.add, 2, 8, 1, true) := by
  intro i
  let act (k : Nat) (s1 : State) (j : Nat) (s : State) (sps : List Span) : State :=
    dropSectors (writeNat (touchSpans s (labCtx i [0x20000] s1 k) true sps) (firstKey sps) 4
      (atomicClass .add 0 8 (envOf 0x3B8) (memNat s.mem (firstKey sps) 4) ((labVector i [0x20000]).slices j 16 8)).1) 0 [firstKey sps / 48]
  obtain ⟨s1, k, h, ho⟩ := runs (i := i) (caps := [0x20000]) (vt := 0x3B8) (fun s1 k => atomicOk i 8 (act k s1) s1 k) (by decide +kernel) (by decide)
  exact ⟨⟨s1, k, act k s1, h, atomic_run ⟨by decide, by decide⟩ ho, fun j hj => by
    show (if _ then _ else _) = _
    rw [if_pos hj]; rfl⟩, rfl⟩
theorem wit_VectorMemoryResults_reductions : let i : Instr := .vredmSum 2 3 8 1 0
    (∃ s1 k, let act (_ : Nat) (s : State) (sps : List Span) : State := touchSpans s (labCtx i [0x20000] s1 k) true sps
      OneWord (labState (labVector i [0x20000])) s1 0 k (labVector i [0x20000]) (entry i [0x20000]) [] i [0x20000]
      ∧ AtomicRun s1 0 k (labVector i [0x20000]) (entry i [0x20000]) [0x20000] .add 2 8 1 (atomicStates i 8 act s1 k)
        (fun j => firstKey (atomicSpans i 8 (atomicStates i 8 act s1 k) s1 k j)) (fun j => firstPage anyPage (atomicSpans i 8 (atomicStates i 8 act s1 k) s1 k j))
      ∧ ∀ j j', j < 4 → j' < 4 → indexedAddr (labVector i [0x20000]) (entry i [0x20000]) [0x20000] j 8
          = indexedAddr (labVector i [0x20000]) (entry i [0x20000]) [0x20000] j' 8) ∧ atomicForm i = some (.add, 2, 8, 1, false) := by
  intro i
  obtain ⟨s1, k, h, ho⟩ := runs (i := i) (caps := [0x20000]) (vt := 0x3B8)
    (fun s1 k => atomicOk i 8 (fun _ s sps => touchSpans s (labCtx i [0x20000] s1 k) true sps) s1 k) (by decide +kernel) (by decide)
  exact ⟨⟨s1, k, h, atomic_run ⟨by decide, by decide⟩ ho, by
    intro j j' hj hj'; interval_cases j <;> interval_cases j' <;> decide +kernel⟩, rfl⟩

/-! ### Tiles -/

/-- A matrix entry with a grant of 2 by 2 by 2, all of it valid, of int8 inputs and int32 accumulators. -/
def tileEntry (i : Instr) (x : Word) : MEntry :=
  { mentry i with x := x, gm := 0x20002, gn := 0x20002, gk := 0x20002, gf := 39 }
def tileGroup (i : Instr) : Group :=
  let g := labMember .running 1
  { g with que := { g.que with mq := [tileEntry i 0xFFFF_0000_0078_0000] }, fil := { g.fil with slices := [(0, 0x0203)], tiles := [(tileKey 1 0 0, 5)] } }
/-- The machine with that entry queued, and with the header of a tile of 2 by 2, or another, and its elements in the scratchpad. -/
def tileState (i : Instr) (header : Bool) : State :=
  let bytes : List Byte := if header then toBytes 2 2 ++ toBytes 2 2 ++ toBytes 2 2 ++ toBytes 2 2 ++ toBytes 2 2 ++ toBytes 2 2 ++ [7, 2, 0, 1]
    ++ toBytes 4 4 ++ toBytes 4 16 ++ toBytes 40 0 ++ toBytes 16 9 else [1, 2, 3, 4]
  { labState (tileGroup i) with teams := [(1, some labTeam)], mem := memWrite (labState (tileGroup i)).mem (cellsAt (padKey 0 0) bytes) }
/-- What the box that an entry reads holds, where it may be read. -/
def boxOf (i : Instr) (s1 : State) (k : Nat) (direct : Bool) (rows : MatrixEnv → List BoxRow) : Option (List Nat) :=
  let m := loneEntry s1 0 k (tileGroup i) (tileEntry i 0xFFFF_0000_0078_0000)
  (readBox m.1 m.2 direct (rows m.1) false).toOption.map (·.1)
theorem matrix_run (i : Instr) (header : Bool) (q : State → Nat → Bool)
    (h : ((decide21 (tileState i header) 0 .matrixWhole).any fun x => decide (x.1.group? 0 x.2 = some (tileGroup i))
      && decide (matrixHead x.1 0 x.2 (tileGroup i) = some (tileEntry i 0xFFFF_0000_0078_0000, [])) && q x.1 x.2) = true) :
    ∃ s1 k, MatrixRun (tileState i header) s1 .matrixWhole 0 k (tileGroup i) (tileEntry i 0xFFFF_0000_0078_0000) [] ∧ q s1 k = true := by
  obtain ⟨s1, k, hs, hp⟩ := picked (fun s1 k => decide (s1.group? 0 k = some (tileGroup i))
      && decide (matrixHead s1 0 k (tileGroup i) = some (tileEntry i 0xFFFF_0000_0078_0000, [])) && q s1 k) h
  simp only [Bool.and_eq_true, decide_eq_true_eq] at hp
  exact ⟨s1, k, ⟨⟨rfl, ⟨by simp, by simp⟩, hs, hp.1.1, hp.1.2, ⟨rfl, rfl, rfl⟩,
      by show FMap.wf 0 [(tileKey 1 0 0, 5)] = true ∧ FMap.wf 0 [(0, 0x0203)] = true; decide +kernel⟩,
    by show grantOf 0x20002 ≠ 0 ∧ grantOf 0x20002 ≠ 0 ∧ validOf 0x20002 ≤ grantOf 0x20002 ∧ validOf 0x20002 ≤ grantOf 0x20002; decide,
    by show pairOk (gfIfmt 39) (gfAcc 39) = true; decide⟩, hp.2⟩
theorem wit_MatrixResults_zero : ∃ s1 k, MatrixRun (tileState (.tzero 1) false) s1 .matrixWhole 0 k (tileGroup (.tzero 1))
    (tileEntry (.tzero 1) 0xFFFF_0000_0078_0000) [] ∧ true = true := matrix_run _ _ (fun _ _ => true) (by decide +kernel)
theorem wit_MatrixResults : (∃ s1 k, MatrixRun (tileState (.tmma 0 1 1 0) false) s1 .matrixWhole 0 k (tileGroup (.tmma 0 1 1 0))
      (tileEntry (.tmma 0 1 1 0) 0xFFFF_0000_0078_0000) [] ∧ ((boxOf (.tmma 0 1 1 0) s1 k true fun m => inputRows m m.kv m.n m.nv).isSome) = true)
    ∧ gfAcc 39 = 2 ∧ vtSat 0x3B8 = false ∧ 0 + grantOf 0x20002 * (formatClass 7).2 ≤ 128 ∧ (tileGroup (.tmma 0 1 1 0)).fil.latch = none
    ∧ (tileGroup (.tmma 0 1 1 0)).fil.badLatch = [] :=
  ⟨matrix_run _ _ _ (by decide +kernel), by decide, by decide, by decide, rfl, rfl⟩
theorem wit_MatrixResults_loads : (∃ s1 k, MatrixRun (tileState (.tlda 2 1) false) s1 .matrixWhole 0 k (tileGroup (.tlda 2 1)) (tileEntry (.tlda 2 1) 0xFFFF_0000_0078_0000) []
      ∧ ((boxOf (.tlda 2 1) s1 k true fun m => inputRows m m.mv m.k m.kv).isSome) = true)
    ∧ ∃ s1 k, MatrixRun (tileState (.tldacc 1 1 0) false) s1 .matrixWhole 0 k (tileGroup (.tldacc 1 1 0)) (tileEntry (.tldacc 1 1 0) 0xFFFF_0000_0078_0000) []
      ∧ ((boxOf (.tldacc 1 1 0) s1 k false fun m => cRows m ((0 : BitVec 5).toNat != 0) 32).isSome) = true :=
  ⟨matrix_run _ _ _ (by decide +kernel), matrix_run _ _ _ (by decide +kernel)⟩
theorem wit_MatrixResults_restores : (∃ s1 k, MatrixRun (tileState (.trestore 1 1) true) s1 .matrixWhole 0 k (tileGroup (.trestore 1 1)) (tileEntry (.trestore 1 1) 0xFFFF_0000_0078_0000) []
      ∧ (boxOf (.trestore 1 1) s1 k false fun _ => [{ addr := 0xFFFF_0000_0078_0000, off := 0, len := 512 }]).map (fun p => headerOk (p.getD 0 0) 2 2 2) = some (some (2, 2, 2))
      ∧ ((boxOf (.trestore 1 1) s1 k false fun _ => boxRows (0xFFFF_0000_0078_0000 + 64) (fun i => (BitVec.ofNat 64 (i * 2 * (32 / 8)), 0)) 2 (2 * 32)).isSome) = true)
    ∧ ∃ s1 k, MatrixRun (tileState (.trestore 1 1) false) s1 .matrixWhole 0 k (tileGroup (.trestore 1 1)) (tileEntry (.trestore 1 1) 0xFFFF_0000_0078_0000) []
      ∧ (boxOf (.trestore 1 1) s1 k false fun _ => [{ addr := 0xFFFF_0000_0078_0000, off := 0, len := 512 }]).map (fun p => headerOk (p.getD 0 0) 2 2 2) = some none := by
  constructor
  · obtain ⟨s1, k, h, hq⟩ := matrix_run (.trestore 1 1) true (fun s1 k =>
      decide ((boxOf (.trestore 1 1) s1 k false fun _ => [{ addr := 0xFFFF_0000_0078_0000, off := 0, len := 512 }]).map (fun p => headerOk (p.getD 0 0) 2 2 2) = some (some (2, 2, 2)))
        && (boxOf (.trestore 1 1) s1 k false fun _ => boxRows (0xFFFF_0000_0078_0000 + 64) (fun i => (BitVec.ofNat 64 (i * 2 * (32 / 8)), 0)) 2 (2 * 32)).isSome)
      (by decide +kernel)
    simp only [Bool.and_eq_true, decide_eq_true_eq] at hq
    exact ⟨s1, k, h, hq⟩
  · obtain ⟨s1, k, h, hq⟩ := matrix_run (.trestore 1 1) false (fun s1 k =>
      decide ((boxOf (.trestore 1 1) s1 k false fun _ => [{ addr := 0xFFFF_0000_0078_0000, off := 0, len := 512 }]).map (fun p => headerOk (p.getD 0 0) 2 2 2) = some none))
      (by decide +kernel)
    exact ⟨s1, k, h, of_decide_eq_true hq⟩
theorem wit_MatrixResults_stores : (∃ s1 k, MatrixRun (tileState (.tstacc 1 1 0 8) false) s1 .matrixWhole 0 k (tileGroup (.tstacc 1 1 0 8))
      (tileEntry (.tstacc 1 1 0 8) 0xFFFF_0000_0078_0000) []
      ∧ ((List.range 4).all fun n => (accessFault (spans s1 (ctxOf s1 0 k (tileGroup (.tstacc 1 1 0 8))) .store (0xFFFF_0000_0078_0000 + BitVec.ofNat 64 n) 1)).isNone) = true)
    ∧ (formatClass 8).2 = 2 ∧ Safe (tileState (.tstacc 1 1 0 8) false) ∧ Settled (tileState (.tstacc 1 1 0 8) false) ∧ (tileState (.tstacc 1 1 0 8) false).pace = .prompt := by
  refine ⟨matrix_run _ _ _ (by decide +kernel), by decide, ?_, ⟨rfl, fun e h t ht => ?_⟩, by decide⟩
  · show Memory.wf (tileState (.tstacc 1 1 0 8) false).mem = true; decide +kernel
  · simp [tileState] at h; subst h; simp at ht; subst ht; rfl
theorem wit_MatrixResults_saves : ∃ s1 k, MatrixRun (tileState (.tsave 1 1) false) s1 .matrixWhole 0 k (tileGroup (.tsave 1 1)) (tileEntry (.tsave 1 1) 0xFFFF_0000_0078_0000) []
      ∧ (accessFault (spans s1 (ctxOf s1 0 k (tileGroup (.tsave 1 1))) .store 0xFFFF_0000_0078_0000 80)).isNone = true := matrix_run _ _ _ (by decide +kernel)
theorem wit_MatrixResults_moves : (∃ s1 k, MatrixRun (tileState (.ttov 1 2) false) s1 .matrixWhole 0 k (tileGroup (.ttov 1 2)) (tileEntry (.ttov 1 2) 0xFFFF_0000_0078_0000) [] ∧ true = true)
    ∧ (∃ s1 k, MatrixRun (tileState (.tfromv 1 0) false) s1 .matrixWhole 0 k (tileGroup (.tfromv 1 0)) (tileEntry (.tfromv 1 0) 0xFFFF_0000_0078_0000) [] ∧ true = true)
    ∧ (∃ s1 k, MatrixRun (tileState .trel false) s1 .matrixWhole 0 k (tileGroup .trel) (tileEntry .trel 0xFFFF_0000_0078_0000) [] ∧ true = true)
    ∧ vtDcls 0x3B8 ≤ 1 ∧ vtScls 0x3B8 ≤ 1 ∧ 2 * vtEwd 0x3B8 + 2 * vtEwd 0x3B8 ≤ 128 :=
  ⟨matrix_run _ _ (fun _ _ => true) (by decide +kernel), matrix_run _ _ (fun _ _ => true) (by decide +kernel), matrix_run _ _ (fun _ _ => true) (by decide +kernel),
    by decide, by decide, by decide⟩

/-! ### The copy queue: ports and collectives -/

/-- A group with an entry at the head of its copy queue, with ports 0 to 3 bound in each way. -/
def portGroup (e : CEntry) : Group :=
  { lab labX with
    que := { (lab labX).que with cq := [e] }
    fil := { (lab labX).fil with ports := [
      (0, { Port.empty with kind := .record, bind := { base := 0x20000, stride := 0, sbase := 0, count := 4, fmt := 7, sfmt := 0, sblock := 0 } }),
      (1, { Port.empty with kind := .copy }), (2, { Port.empty with kind := .fifo, fifo := [(5, 8)] })] } }
/-- A binding record at 0x20000, a descriptor of a collective at 0x20040, its source at 0x20100, and communicator 1 of two ranks; and the
machine with them. -/
def portCells : List Host.Cell :=
  let record : Nat := 0x30000 + 4 * 2 ^ 192 + 7 * 2 ^ 232
  let desc : Nat := 0x20100 + 0x20200 * 2 ^ 64 + 4 * 2 ^ 128 + 9 * 2 ^ 160
  let comm : Nat := 1 + 2 * 2 ^ 80 + 3 * 2 ^ 112 + 0x50000 * 2 ^ 128
  cellsAt 0x20000 (toBytes 64 record ++ toBytes 64 desc) ++ cellsAt 0x20100 [1, 2, 3, 4] ++ cellsAt 0x40040 (toBytes 64 comm)
def portMem (e : CEntry) : List Host.Cell := memWrite (labState (portGroup e)).mem portCells
def portState (e : CEntry) : State :=
  { labState (portGroup e) with
    mem := portMem e
    trowel := { Trowel.empty with commbase := 0x40000, commcount := 2 } }
theorem port_safe (e : CEntry) : Memory.wf (portMem e) = true := by
  unfold portMem
  exact memWrite_wf _ _ (safe_lab _)
theorem copy_run (e : CEntry) (q : State → Nat → Bool)
    (h : ((decide21 (portState e) 0 .copy).any fun x =>
      decide (x.1.group? 0 x.2 = some (portGroup e)) && decide (copyHead x.1 0 x.2 (portGroup e) = some e) && q x.1 x.2) = true)
    (hu : (portGroup e).que.bad.contains e.serial = false) : ∃ s1 k, CopyRun (portState e) s1 0 k (portGroup e) e ∧ q s1 k = true := by
  obtain ⟨s1, k, hs, hp⟩ := picked (fun s1 k => decide (s1.group? 0 k = some (portGroup e)) && decide (copyHead s1 0 k (portGroup e) = some e) && q s1 k) h
  simp only [Bool.and_eq_true, decide_eq_true_eq] at hp
  exact ⟨s1, k, ⟨rfl, hs, hp.1.1, hp.1.2, hu, (by decide +kernel : FMap.wf Port.empty (portGroup (copyEntry .kick 0 0 0 0 false)).fil.ports = true)⟩, hp.2⟩
theorem wit_CopyQueueWork_ports : (∃ s1 k, CopyRun (portState (copyEntry (.stat 3 0) 0 0 0 0 false)) s1 0 k (portGroup (copyEntry (.stat 3 0) 0 0 0 0 false))
      (copyEntry (.stat 3 0) 0 0 0 0 false) ∧ true = true)
    ∧ (∃ s1 k, CopyRun (portState (copyEntry (.drain 2) 0 0 0 0 false)) s1 0 k (portGroup (copyEntry (.drain 2) 0 0 0 0 false)) (copyEntry (.drain 2) 0 0 0 0 false) ∧ true = true)
    ∧ [0, 1, 2, 3].map (fun n => ((portGroup (copyEntry (.drain 2) 0 0 0 0 false)).port n).kind) = [.record, .copy, .fifo, .unbound] :=
  ⟨copy_run _ (fun _ _ => true) (by decide +kernel) rfl, copy_run _ (fun _ _ => true) (by decide +kernel) rfl, by decide +kernel⟩
/-- What a copy-queue entry's group reads at an address. -/
def readAt (e : CEntry) (u : State) (k : Nat) (a : Word) : ReadOut := readMem u (ctxOf u 0 k (portGroup e)) 3 2 true a 64
theorem wit_CopyQueueWork_binds : let e := copyEntry (.bindMem 2) 0 0x20000 0 0 false
    ∃ s1 k, CopyRun (portState e) s1 0 k (portGroup e) e
      ∧ (let u := s1.setGroup 0 k ((portGroup e).setPort 2 .empty)
         let m := readAt e u k 0x20000
         m.stall.isNone && m.fault.isNone && (bindingOf e.word 0x20000 m.val).toOption.isSome && (readAt e u k 0xFFFF_0000_0000_0000).fault.isSome
           && (readAt e u k 0x20040).fault.isNone && (bindingOf e.word 0x20040 (readAt e u k 0x20040).val).toOption.isNone) = true :=
  copy_run _ _ (by decide +kernel) rfl
theorem wit_CopyQueueWork_records : 1 ≤ 2 ^ 40 - 1 ∧ (7 : Nat) ≤ 10 ∧ (8 : Word) = 8 ∧ formatBits 7 ≠ 4 ∧ (∃ i, i ≤ 16 ∧ 65536 = 2 ^ i) ∧ (11 : Nat) < 16 :=
  ⟨by decide, by decide, rfl, by decide, ⟨16, by decide, by decide⟩, by decide⟩

/-- An entry of a collective of communicator 1, its descriptor at 0x20040. -/
def collEntry (fn : CollFn) (d : Nat) : CEntry := copyEntry (.coll fn 7 0 d) 0 0x20040 1 0 false
def collComm : Comm := { comm := 1, n := 2, rank := 0, ranks := 0x50000 }
theorem wit_CopyQueueWork_collectives : ∃ s1 k, CopyRun (portState (collEntry .allred 0)) s1 0 k (portGroup (collEntry .allred 0)) (collEntry .allred 0)
    ∧ (let e := collEntry .allred 0
       let m := readAt e s1 k 0x20040
       let r := collRun 0 k e .allred 7 0 collComm m.val
       let field (lo len : Nat) := commEntry s1 1 / 2 ^ (8 * lo) % 2 ^ (8 * len)
       let ssp := spans m.s (ctxOf m.s 0 k (portGroup e)) .load 0x20100 r.length
       let dsp := spans m.s (ctxOf m.s 0 k (portGroup e)) .store r.dst r.result ++ spans m.s (ctxOf m.s 0 k (portGroup e)) .store (e.xa + 32) 4
       let near (sps : List Span) : Bool := sps.all fun sp => match sp.ref with
         | .ok q => q.local_ || decide (q.tier ≤ 2)
         | .error _ => false
       let u := touchSpans m.s (ctxOf m.s 0 k (portGroup e)) false ssp
       decide (1 < s1.trowel.commcount.toNat) && decide (field 0 1 % 2 = 1) && decide (field 14 2 % 2 ^ 12 = 3) && decide (field 10 2 = 2 ∧ field 12 2 = 0 ∧ field 16 8 = 0x50000)
         && m.stall.isNone && m.fault.isNone && r.ok m.val && decide (r.attempt = attemptOf s1 1) && s1.fabric.runs.isEmpty && s1.fabric.inbox.isEmpty
         && FMap.wf 0 s1.fabric.attempts && decide (m.val % 2 ^ 64 = 0x20100) && decide (1 ≤ r.length) && r.gives r.rank && near ssp && near dsp
         && (sourceFault u 0 ((keyedRefs (spanRefs ssp)).map fun q => (q.1, true, q.2.2))).isNone) = true := copy_run _ _ (by decide +kernel) rfl
theorem wit_CopyQueueWork_attempts : (∃ s1 k, CopyRun (portState (collEntry .cattempt 3)) s1 0 k (portGroup (collEntry .cattempt 3)) (collEntry .cattempt 3)
      ∧ ((accessFault (spans s1 (ctxOf s1 0 k (portGroup (collEntry .cattempt 3))) .store (0x20040 + 24) 4)).isNone) = true)
    ∧ (∃ s1 k, CopyRun (portState (collEntry .cabort 0)) s1 0 k (portGroup (collEntry .cabort 0)) (collEntry .cabort 0) ∧ true = true)
    ∧ (portState (collEntry .cattempt 3)).pace = .prompt ∧ (portState (collEntry .cattempt 3)).teamOf (portGroup (collEntry .cattempt 3)) = none :=
  ⟨copy_run _ _ (by decide +kernel) rfl, copy_run _ (fun _ _ => true) (by decide +kernel) rfl, by decide, by decide +kernel⟩
theorem wit_CopyQueueWork_refuses : let e := copyEntry (.coll .bcast 0 0 0) 0 0x20040 0x1001 0 false
    let f := copyEntry (.coll .bcast 0 0 0) 0 0x20040 0 0 false
    (∃ s1 k, CopyRun (portState e) s1 0 k (portGroup e) e ∧ true = true) ∧ 2 ^ 12 ≤ e.xb.toNat
      ∧ ∃ s1 k, CopyRun (portState f) s1 0 k (portGroup f) f ∧ (decide (commEntry s1 0 % 2 ≠ 1)) = true :=
  ⟨copy_run _ (fun _ _ => true) (by decide +kernel) rfl, by decide, copy_run _ _ (by decide +kernel) rfl⟩

/-- A begun reduction of four bytes by two ranks, and the machine that runs it with both contributions there. -/
def labRun (attempt : BitVec 32) : CollRun :=
  { core := 0, slot := 0, serial := 1, fn := .allred, fmt := 7, op := 0, comm := 1, n := 2, rank := 0, attempt := attempt, seq := 9, root := 0, count := 4,
    dst := 0x20200, desc := 0x20040, writes := [] }
def runState (r : CollRun) (sent : List SentFlit) : State :=
  let give (rank : Nat) (bs : List Byte) : Contribution :=
    { comm := 1, attempt := 0, seq := 9, rank := rank, offset := 0, head := { fn := 0, op := 0, fmt := 7, count := 4, root := 0 }, data := bs, port := 64 }
  { portState { collEntry .allred 0 with begun := true } with
    fabric := { Fabric.empty with runs := [r], sent := sent, inbox := [give 0 [1, 2, 3, 4], give 1 [5, 6, 7, 8]] } }
def labSent : SentFlit := { comm := 1, attempt := 0, seq := 9, dev := 3, offset := 0, port := 2 }
theorem wit_CopyQueueWork_ends : (runState (labRun 0) []).group? 0 0 = some (portGroup { collEntry .allred 0 with begun := true })
    ∧ (runState (labRun 0) []).pace = .prompt ∧ (labRun 0).attempt = attemptOf (runState (labRun 0) []) 1
    ∧ ((List.range 2).filter (labRun 0).gives).mapM (arrivedAll (runState (labRun 0) []).fabric.inbox (labRun 0)) = some [[1, 2, 3, 4], [5, 6, 7, 8]]
    ∧ ((labRun 0).output [[1, 2, 3, 4], [5, 6, 7, 8]]).length = (labRun 0).result := by decide +kernel
theorem wit_CopyQueueWork_settled : Safe (runState (labRun 0) []) ∧ Settled (runState (labRun 0) []) := by
  refine ⟨?_, rfl, fun _ h => by cases h⟩
  unfold Safe runState portState
  dsimp only
  exact port_safe _
theorem wit_CopyQueueWork_stays : (runState (labRun 0) [labSent]).fabric.sent = [labSent] ∧ labSent.of (labRun 0) = true
    ∧ (labRun 1).attempt ≠ attemptOf (runState (labRun 1) []) 1 := by decide +kernel

/-! ### More clauses, each with a state that meets its hypotheses -/

/-- Firmware core 0's group, which asks for something of its test block. -/
def labFirmware (v : Word) : Group := { lab [(1, v)] with sca := { (lab [(1, v)]).sca with level := .f } }
/-- That core with its test block. -/
def testerState (v : Word) (b : TestBlock) : State :=
  { labState (labFirmware v) with
    curCore := 288, cores := [(288, { Core.empty with slots := [(0, { Slot.empty with group := some (labFirmware v) })], test := b })] }
theorem wit_ControlReads_test : Ready (testerState 0 .empty) (labFirmware 0) [] ∧ (testerState 0 .empty).curCore = 288 ∧ (labFirmware 0).sca.level ≠ .u
    ∧ ((testerState 0 .empty).test 0).stat ≠ 2 := ⟨⟨rfl, rfl, rfl, by decide⟩, rfl, by decide, by decide +kernel⟩
theorem wit_ControlWrites_test : Ready (testerState 1 .empty) (labFirmware 1) [1] ∧ (labFirmware 1).sca.level = .f ∧ ((testerState 1 .empty).test 0).stat = 0
    ∧ ((labFirmware 1).x 1).toNat < 288 ∧ (testerState 1 .empty).occupied 0 = false ∧ testedElsewhere (testerState 1 .empty) 0 0 = false
    ∧ (labFirmware 1).x 1 &&& ~~~0xF0F#64 = 0 ∧ ((labFirmware 1).x 1).getLsbD 0 = true ∧ ((labFirmware 1).x 1).getLsbD 3 = false :=
  ⟨⟨rfl, rfl, rfl, by decide⟩, rfl, by decide +kernel, by decide, by decide +kernel, by decide +kernel, by decide, by decide, by decide⟩
theorem wit_ControlWrites_locked : let s := testerState 7 { TestBlock.empty with stat := 2, sel := 5, started := 0 }
    (s.test 0).stat = 2 ∧ (s.test 0).stopAt = none ∧ s.now - (s.test 0).started < 250000 ∧ ((labFirmware 7).x 1).toNat ≠ (s.test 0).sel
      ∧ ((labFirmware 2).x 1).getLsbD 1 = true ∧ ((labFirmware 2).x 1).getLsbD 0 = false ∧ ((labFirmware 8).x 1).getLsbD 3 = true
      ∧ ((labFirmware 9).x 1).getLsbD 0 = true ∧ (labFirmware 16).x 1 &&& ~~~0xF0F#64 ≠ 0 ∧ 288 ≤ ((labFirmware 288).x 1).toNat := by decide +kernel
theorem wit_ControlWrites_readonlyTest : (5 : Word) = readControl (testerState 5 { TestBlock.empty with stat := 5 }) 288 0 (labFirmware 5) 0x302
    ∧ (5 : Word) ≠ readControl (testerState 5 { TestBlock.empty with stat := 4 }) 288 0 (labFirmware 5) 0x302 := by decide +kernel
/-- A group at level S that writes cls with its own epoch and another SHARE. -/
def labShare : Group := labWrites 0x80000300200108
theorem wit_ControlWrites_share : writableValue (labState labShare) labShare 0x124 (labShare.x 1)
    ∧ ((labShare.x 1).extractLsb' 37 11).toNat = ((labState labShare).slot 0 0).epoch % 2048 ∧ ((labShare.x 1).extractLsb' 32 5).toNat = 3 := by
  unfold writableValue; decide +kernel

/-! Strips that grow, and gates met after a negotiation. -/
theorem wit_StripResults_grows : let g := lab [(1, 600), (2, 5)]
    Ready (labState g) g [2, 1] ∧ vlmaxTarget g.protected_ (g.x 1) = 512 ∧ g.que.vq = [] ∧ g.que.mq = [] ∧ negotiationFirst (labState g) 0 0 = false
      ∧ sliceUnits g.idn.alloc 512 g.protected_ - g.unitsHeld ≤ unitsAvailable (labState g) 0 ∧ ((labState g).core 0).l1 = [] :=
  ⟨ready_lab _ _ rfl (by decide), by decide, rfl, rfl, by decide +kernel, by decide +kernel, rfl⟩
/-- A group that holds every unit of its core, with some of them beyond its own need. -/
def labFull : Group := { lab [(1, 256), (2, 5)] with
  idn := { (lab labX).idn with alloc := 768 }, sto := { baseUnits := 48, swing := [], accUnits := 0, honoured := none } }
def fullState : State :=
  let other := { labFull with sto := { baseUnits := 336, swing := (List.range 8).map fun b => (b, 48), accUnits := 0, honoured := none } }
  (labState labFull).setSlot 0 1 { Slot.empty with group := some other }
theorem wit_StripResults_noRoom : Ready fullState labFull [2, 1] ∧ labFull.vec.vlmax < vlmaxTarget labFull.protected_ (labFull.x 1)
    ∧ vlmaxTarget labFull.protected_ (labFull.x 1) = 256 ∧ unitsAvailable fullState 0 < sliceUnits 768 256 false - labFull.unitsHeld
    ∧ negotiationFirst fullState 0 0 = false := ⟨⟨rfl, by decide +kernel, rfl, by decide⟩, by decide, by decide, by decide +kernel, by decide +kernel⟩
theorem wit_StripResults_gateKept : meetsGate (gateState 2) (gateState 2) labGate labGate 0 := by
  unfold meetsGate; exact ⟨fun _ => ⟨rfl, rfl⟩, fun h => absurd (.inl rfl) h⟩
theorem wit_StripResults_gateGrown : let g := { labGate with sca := { labGate.sca with x := [(1, 512), (2, 2)] } }
    let s := { labState g with mem := memWrite (labState g).mem (cellsAt 0x20000 (toBytes 8 2)) }
    ((match negotiate s 0 0 g.run (g.x 1) with
      | .done s2 => (s2.group? 0 0).map fun g2 => (g2.vec.vlmax, (readProgress (s2.setGroup 0 0 g2.run) (ctxOf (s2.setGroup 0 0 g2.run) 0 0 g2.run) 0x20000).2.toOption)
      | .blocked _ _ _ => none) = some (512, some 2)) ∧ negotiationFirst s 0 0 = false ∧ vlmaxTarget g.protected_ (g.x 1) ≠ g.vec.vlmax := by decide +kernel

/-! Reads and writes that no window takes. -/
theorem wit_ScalarLoads_near : ∃ r, spans (labState (lab labY)) (ctxOf (labState (lab labY)) 0 0 (lab labY)) .store 0x20000 8
    = [{ addr := 0x20000, len := 8, ref := .ok r }] ∧ (decide (r.tier ≠ 3) && decide (r.key + 8 ≤ remoteKey 0 0) && ((labState (lab labY)).core 0).l1.isEmpty) = true :=
  one_span (fun r => decide (r.tier ≠ 3) && decide (r.key + 8 ≤ remoteKey 0 0) && ((labState (lab labY)).core 0).l1.isEmpty) (by decide +kernel)
theorem wit_WritesPerform_near : (flight false).report = none ∧ (∀ k ∈ updateKeys (flight false).upd, k < remoteKey 0 0)
    ∧ (labState (lab labX)).teams = [] := ⟨rfl, by decide +kernel, rfl⟩

/-! Entries, drains, kills. -/
/-- An executed store with its notify update to come, or made. -/
def labUpdate (made : Bool) : Group :=
  { lab labX with
    ord := { (lab labX).ord with wseq := 7, wdone := 4, entries := [{ seq := 6, kind := .notify 0x20001 4, floor := [], complete := made }] }
    que := { (lab labX).que with vq := [{ entry (.vst 2 3 9 1 0 0 0) [] with seq := 5, notify := true, begun := true, done := some { flags := 0, xreg := none } }] } }
theorem wit_EntriesLeave_notify : (∃ x ∈ (labUpdate false).ord.entries, x.seq = 5 + 1 ∧ x.complete = false)
    ∧ (∀ x ∈ (labUpdate true).ord.entries, x.seq = 5 + 1 → x.complete = true) ∧ Holds (labState (labUpdate true)) 0 0 (labUpdate true) :=
  ⟨⟨_, .head _, rfl, rfl⟩, by decide, rfl, rfl⟩
theorem wit_TrapDelivery_claims : (labFault .u 0x2000).claiming = false := by decide
/-- A group that exits with a held fault, with a list behind it or with a COPY. -/
def labHeld (op : CopyOp) : Group :=
  { labExits [] with trp := { (labExits []).trp with held := some (0x20000, 6) }, que := { (labExits []).que with cq := [copyEntry op 96 0x20000 0x30000 0 false] } }
theorem wit_GroupsAndTasks_heldList : (labHeld .kick).que.vq = [] ∧ (∀ e ∈ (labHeld .kick).que.cq, e.op = .kick ∧ e.begun = false ∧ e.done = none)
    ∧ overruled (labState (labHeld .kick)) (labHeld .kick) = false ∧ heldStops (labHeld (.copy .linear 0 0)) = false :=
  ⟨rfl, by decide, by decide +kernel, by decide +kernel⟩
theorem wit_GroupsAndTasks_killNow : negotiating (taskState labWorker (smallTeam none false none) (some 6)) 1 = false := by decide +kernel
theorem wit_GroupsAndTasks_killLater :
    let g := { labWorker with sca := { labWorker.sca with status := .waiting (.claim 3 4 512 false true) }, sto := { baseUnits := 1, swing := [(7, 48)], accUnits := 0, honoured := none } }
    let s := taskState g (smallTeam none false none) (some 6)
    let t := ({ s with teams := s.teams ++ [(2, some { smallTeam (some (labResilient false)) false none with task := 2 })] }).setL1 0
      [{ sector := 5, way := 23, data := 0, delta := 0, bad := false, dirty := 2 }]
    (labTask (some 6)).kill = some 6 ∧ negotiating t 1 = true := by decide +kernel
theorem wit_GroupsAndTasks_preemptKept : let s := taskState labWorker (smallTeam (some (labResilient false)) false none) none
    preemptWanted s 1 0 = false := by decide +kernel
theorem wit_GroupsAndTasks_resumeClaims : let s := { imageState with trowel := { imageState.trowel with weeder := [{ due := 0x60000, occ := 0x61000, lpend := 0x62000, pri := 0x64000, door := 0x63000, thr := 15 }] } }
    s.trowel.weeder ≠ [] ∧ (labTask none).claim ≠ [1] ∧ imageState.trowel.weeder = [] := by decide +kernel

/-! Errors, test blocks, commands, requests, flits. -/
theorem wit_ErrorEvents_pairRuns :
    let g := protectedGroup { labMatrix with que := { labMatrix.que with mq := [tileEntry (.tmma 0 1 1 0) 0xFFFF_0000_0078_0000] }, idn := { labMatrix.idn with team := 1 } }
    let s := { labState g with teams := [(1, some labTeam)] }
    ((nextTmma s 0 0 g).map fun e => (runMatrix s 0 0 g e).toOption.isSome) = some true := by decide +kernel
theorem wit_ErrorEvents_downCore : (State.reset.core 288).down = true := by decide +kernel
theorem wit_TestBlockSteps_idle : let s := testState { TestBlock.empty with stat := 3, sel := 5 } 0
    (s.test 0).stat = 3 ∧ s.occupied 5 = false ∧ testedElsewhere s 0 5 = false ∧ s.occupied 5 = false
      ∧ (testState { TestBlock.empty with stat := 6 } 0).occupied 0 = false := by decide +kernel
theorem wit_TestBlockSteps_aborts : let s := { testState { TestBlock.empty with stat := 2, abten := true, abtpri := 1, sel := 5 } 9 with queues := [(1, labQueue [command 1 .accepted []])] }
    (s.test 0).abten = true ∧ pendingLaunch s 1 (coreCol 5) = true ∧ (s.test 0).stopAt = none ∧ s.now - (s.test 0).started < 250000 := by decide +kernel
theorem wit_TestBlockSteps_stopped : let s := testState { TestBlock.empty with stat := 2, stopAt := some 40 } 60
    (s.core (288 + 0)).test.stopAt = some 40 ∧ 40 ≤ s.now := by decide +kernel
theorem wit_CommandResults_wait_unreadable : (match (readProgress (queueState []) (trowelCtx ((queueState []).queue 1)) 0x20004).2 with
    | .error (.fault f _) => some f
    | _ => none) = some 0x05 := by decide +kernel
theorem wit_CommandResults_launch : let s := taskState labWorker (smallTeam none false none) none
    let u := smallTeam none false none
    s.group? 0 0 = some labWorker ∧ labWorker.idn.team ≠ 0 ∧ s.team 1 = some u ∧ s.task 1 = some (labTask none) ∧ teamsOf s 1 0 = [(1, u)]
      ∧ (∀ e ∈ teamGroups s 1, e.1 = 0 ∧ e.2.1 = 0) ∧ (∀ v ∈ s.saved, v.task ≠ 1 ∨ v.cluster ≠ 0)
      ∧ (labTask none).finished + 1 = (labTask none).descr.clusters ∧ FMap.wf .empty s.cores = true ∧ FMap.wf .empty (s.core 0).slots = true
      ∧ FMap.wf none s.teams = true ∧ FMap.wf none s.tasks = true := by decide +kernel
theorem wit_MailboxSteps_settings : let s := { mailState true false [(0, 0x701 + 0x700000 - 0x600), (1, 0x500000303)] with queues := [(1, labQueue [])], trowel :=
      { (mailState true false [(0, 0x701 + 0x700000 - 0x600), (1, 0x500000303)]).trowel with qdtcount := 2 } }
    asks s 1 ∧ queueExists s ((s.req 0).toNat / 2 ^ 8 % 2 ^ 12) = true ∧ (s.req 0).toNat / 2 ^ 21 % 2 = 1 ∧ (s.req 1).toNat / 2 ^ 8 % 2 ^ 5 = 3
      ∧ FMap.wf .empty s.queues = true := by unfold asks; decide +kernel
theorem wit_MailboxSteps_images : asks (mailState true false [(0, 5), (1, 0x1000), (2, 64)]) 5 ∧ asks (mailState true false [(0, 8), (1, 0x1000)]) 8
    ∧ asks (mailState false false [(0, 9), (1, 0x1000)]) 9 ∧ ((mailState true false [(0, 5), (1, 0x1000), (2, 64)]).req 1).toNat < 2 ^ 52
    ∧ ¬ ((mailState true false [(0, 5), (1, BitVec.allOnes 64)]).req 1).toNat < 2 ^ 52 := by unfold asks; decide +kernel
theorem wit_FabricSteps_spent : let s := { State.reset with fabric := { Fabric.empty with replays := [(5, 64)] } }
    64 ≤ FMap.get 0 s.fabric.replays 5 ∧ s.fabric.ports.getLsbD 5 = true ∧ ¬ (64 ≤ FMap.get 0 s.fabric.replays 63 ∨ 64 ≤ FMap.get 0 s.fabric.replays (63 + 64)) := by
  decide
theorem wit_FabricSteps_refused : (exportAddress State.reset ((flit true 0).addr / 192 * 192) 192 false).isNone = true ∧ State.reset.fabric.runs = []
    ∧ (flit true 0).dst = State.reset.trowel.osid.toNat ∧ ({ flit true 0 with kind := .ack }).kind = .ack := by decide +kernel
theorem wit_QuietClusters_quiet : (restState none false).trowel.weeder = [] ∧ imageState.trowel.weeder = [] := by decide +kernel

end Sys2Proof.Tests
end

section
/-! SUPPORT. VLENQ: its frame is the least multiple of 48 that holds the slices, and its major has no other word (R98). -/

namespace Sys2Proof

/-! ## The words of VLENQ's major -/

/-- A word of major 0x23 is VLENQ's or none. -/
theorem decodeRaw_of_vlenqMajor {w : Nat} (h : field w 25 7 = 0x23) : decodeRaw w = decode23 w := by
  rw [decodeRaw, h]; rfl

/-- A word of VLENQ's major with a nonzero bit below its operands is no instruction (R98). -/
theorem decodeWord_of_vlenqMajor_nonzero {w : Nat} (hm : field w 25 7 = 0x23) (hz : field w 0 15 ≠ 0) :
    decodeWord w = .error .nonzeroField := by
  simp [decodeWord, decodeRaw_of_vlenqMajor hm, decode23, zeros, hz]

/-- Where the major, the operands and the low bits of VLENQ's word stand. -/
theorem vlenqWord_fields (d a : BitVec 5) {low : Nat} (hl : low < 2 ^ 15) :
    field (wordClz 0x46000000 d a + low) 25 7 = 0x23 ∧ field (wordClz 0x46000000 d a + low) 0 15 = low := by
  have hd := d.isLt
  have ha := a.isLt
  unfold field wordClz
  omega

end Sys2Proof

namespace Sys2Proof.Machine

/-! ## The frame -/

/-- The bytes of the slices that VLENQ is asked for, two slices of an element to a byte (R98). -/
def spillBytes (g : Group) (a : BitVec 5) : Nat := (min (g.x a.toNat).toNat 768 + 1) / 2 * g.vec.vlmax

/-- VLENQ, when ready: the frame of the slices, rounded up to a multiple of 48. -/
theorem exec_vlenq {s : State} {g : Group} {d a : BitVec 5} (h : Ready s g [a]) :
    exec (.vlenq d a) s = writes s g d (BitVec.ofNat 64 ((spillBytes g a + 47) / 48 * 48)) := by
  change execVlenq d a s = _
  unfold execVlenq
  rw [withRegs_ready1 h]
  rfl

/-- 768 slices are 384 bytes of each element. -/
theorem spillBytes_le {g : Group} (a : BitVec 5) (hv : g.vec.vlmax ≤ 1024) : spillBytes g a ≤ 384 * 1024 :=
  Nat.mul_le_mul (by omega) hv

/-- Rounding up to a multiple of 48 in a register gives the least one that is not smaller. -/
theorem roundUp48_toNat {n : Nat} (hn : n ≤ 384 * 1024) :
    let v : Word := BitVec.ofNat 64 ((n + 47) / 48 * 48)
    48 ∣ v.toNat ∧ n ≤ v.toNat ∧ v.toNat < n + 48 := by
  have hfits : (n + 47) / 48 * 48 < 2 ^ 64 := by omega
  simp only [BitVec.toNat_ofNat, Nat.mod_eq_of_lt hfits]
  omega

end Sys2Proof.Machine

open Sys2Proof Sys2Proof.Machine

/-- Settles O25: the rounding stays within a register, and a word of the major with other low bits fails VLENQ's zero fields. -/
theorem spillFrameSize : Obligations.SpillFrameSize := by
  unfold Obligations.SpillFrameSize
  intro s g d a hready hvlmax
  obtain ⟨hdvd, hholds, hleast⟩ := roundUp48_toNat (spillBytes_le a hvlmax)
  refine ⟨_, exec_vlenq hready, hdvd, hholds, hleast, rfl, fun low hlow hne => ?_⟩
  obtain ⟨hmajor, hzero⟩ := vlenqWord_fields d a hlow
  have hrefused := decodeWord_of_vlenqMajor_nonzero hmajor (hzero.trans_ne hne)
  exact congrArg Except.toOption hrefused

end

section
/-! SUPPORT. Division: the quotient and the remainder of two words, signed and unsigned, and the edge cases (R127). -/

namespace Sys2Proof.Machine

/-! ## Quotients and remainders of words -/

/-- R127's row for b = 0. -/
theorem division_by_zero (x : Word) :
    divS x 0 = BitVec.allOnes 64 ∧ remS x 0 = x ∧ divU x 0 = BitVec.allOnes 64 ∧ remU x 0 = x := ⟨rfl, rfl, rfl, rfl⟩

/-- R127's row for the one quotient that a register does not hold. -/
theorem division_overflow :
    divS (BitVec.intMin 64) (BitVec.allOnes 64) = BitVec.intMin 64 ∧ remS (BitVec.intMin 64) (BitVec.allOnes 64) = 0 := by decide

/-- Away from R127's two rows the register holds the whole quotient, truncated toward zero. -/
theorem toInt_divS {x y : Word} (hy : y ≠ 0) (hxy : ¬(x = BitVec.intMin 64 ∧ y = BitVec.allOnes 64)) :
    (divS x y).toInt = x.toInt.tdiv y.toInt := by
  have hfits := BitVec.toInt_sdiv_of_ne_or_ne x y (not_and_or.1 hxy)
  rw [divS, if_neg (by simpa using hy), ← hfits, BitVec.ofInt_toInt]

/-- The register always holds the whole signed remainder; a remainder by zero is the dividend. -/
theorem toInt_remS (x y : Word) : (remS x y).toInt = x.toInt.tmod y.toInt := by
  unfold remS
  split
  next hy => simp [beq_iff_eq.1 hy]
  next => rw [← BitVec.toInt_srem, BitVec.ofInt_toInt]

theorem divU_eq_udiv {x y : Word} (hy : y ≠ 0) : divU x y = x / y := by
  rw [divU, if_neg (by simpa using hy), ← BitVec.toNat_udiv, BitVec.ofNat_toNat, BitVec.setWidth_eq]

theorem remU_eq_umod (x y : Word) : remU x y = x % y := by
  unfold remU
  split
  next hy => simp [beq_iff_eq.1 hy]
  next => rw [← BitVec.toNat_umod, BitVec.ofNat_toNat, BitVec.setWidth_eq]

/-- a = q × b + r, signed. -/
theorem divS_mul_add_remS {x y : Word} (hy : y ≠ 0) (hxy : ¬(x = BitVec.intMin 64 ∧ y = BitVec.allOnes 64)) :
    x.toInt = (divS x y).toInt * y.toInt + (remS x y).toInt := by
  rw [toInt_divS hy hxy, toInt_remS, Int.tdiv_mul_add_tmod]

/-- With `divS_mul_add_remS` and the sign, this bound makes the quotient the one truncated toward zero. -/
theorem natAbs_remS_lt (x : Word) {y : Word} (hy : y ≠ 0) : (remS x y).toInt.natAbs < y.toInt.natAbs := by
  have hpos : 0 < y.toInt.natAbs := Int.natAbs_pos.2 (BitVec.toInt_ne.2 hy)
  rw [toInt_remS, Int.natAbs_tmod]
  exact Nat.mod_lt _ hpos

/-- The remainder of a dividend that is not negative is not negative. -/
theorem remS_nonneg {x : Word} (y : Word) (hx : 0 ≤ x.toInt) : 0 ≤ (remS x y).toInt := by
  rw [toInt_remS]
  exact Int.tmod_nonneg _ hx

/-- The remainder of a dividend that is not positive is not positive: negating the dividend negates the remainder. -/
theorem remS_nonpos {x : Word} (y : Word) (hx : x.toInt ≤ 0) : (remS x y).toInt ≤ 0 := by
  have hneg := Int.tmod_nonneg y.toInt (Int.neg_nonneg_of_nonpos hx)
  rwa [Int.neg_tmod, Int.neg_nonneg, ← toInt_remS] at hneg

/-- a = q × b + r, unsigned. -/
theorem divU_mul_add_remU (x : Word) {y : Word} (hy : y ≠ 0) : x.toNat = (divU x y).toNat * y.toNat + (remU x y).toNat := by
  rw [divU_eq_udiv hy, remU_eq_umod, BitVec.toNat_udiv, BitVec.toNat_umod, Nat.div_add_mod']

theorem remU_lt (x : Word) {y : Word} (hy : y ≠ 0) : (remU x y).toNat < y.toNat := by
  rw [remU_eq_umod, BitVec.toNat_umod]
  exact Nat.mod_lt _ (BitVec.toNat_pos_of_ne_zero hy)

/-! ## The four instructions, when ready -/

theorem exec_div {s : State} {g : Group} {d a b : BitVec 5} (h : Ready s g [a, b]) :
    exec (.div d a b) s = writes s g d (divS (g.x a.toNat) (g.x b.toNat)) := regOp2_ready h divS

theorem exec_rem {s : State} {g : Group} {d a b : BitVec 5} (h : Ready s g [a, b]) :
    exec (.rem d a b) s = writes s g d (remS (g.x a.toNat) (g.x b.toNat)) := regOp2_ready h remS

theorem exec_divn {s : State} {g : Group} {d a b : BitVec 5} (h : Ready s g [a, b]) :
    exec (.divn d a b) s = writes s g d (divU (g.x a.toNat) (g.x b.toNat)) := regOp2_ready h divU

theorem exec_remn {s : State} {g : Group} {d a b : BitVec 5} (h : Ready s g [a, b]) :
    exec (.remn d a b) s = writes s g d (remU (g.x a.toNat) (g.x b.toNat)) := regOp2_ready h remU

end Sys2Proof.Machine

open Sys2Proof Sys2Proof.Machine

/-- Settles O11: each register holds the quotient and the remainder themselves, but for the two rows of R127. -/
theorem divisionResults : Obligations.DivisionResults := by
  unfold Obligations.DivisionResults
  intro s g d a b hready x y
  refine ⟨divS x y, remS x y, divU x y, remU x y, exec_div hready, exec_rem hready, exec_divn hready, exec_remn hready,
    ?zero, ?overflow, ?signed, ?unsigned⟩
  case zero =>
    intro hy
    rw [hy]
    exact division_by_zero x
  case overflow =>
    rintro ⟨hx, hy⟩
    rw [hx, hy]
    exact division_overflow
  case signed =>
    intro hy hxy
    exact ⟨divS_mul_add_remS hy hxy, natAbs_remS_lt x hy, remS_nonneg y, remS_nonpos y⟩
  case unsigned =>
    intro hy
    exact ⟨divU_mul_add_remU x hy, remU_lt x hy⟩

end

section
/-! SUPPORT. Conditional branches: where a branch goes, and the words of the B format (R135). -/

namespace Sys2Proof.Machine

/-- The target of a branch: 4 × sext(off) from its own address. -/
theorem wordsFrom_eq {n : Nat} (pc : Word) (off : BitVec n) : wordsFrom pc off = pc + BitVec.ofInt 64 (4 * off.toInt) := by
  rw [wordsFrom, BitVec.signExtend, mul_comm, BitVec.ofInt_mul]
  rfl

/-- Where a branch whose comparison decides `p` goes, when ready. -/
theorem branchIf_ready {s : State} {g : Group} {a b : BitVec 5} (h : Ready s g [a, b]) (o : BitVec 15) {c : Word → Word → Bool}
    {p : Prop} [Decidable p] (hc : c (g.x a.toNat) (g.x b.toNat) = true ↔ p) :
    branchIf s a b o c = if p then goes s g (g.sca.pc + BitVec.ofInt 64 (4 * o.toInt)) else goes s g (g.sca.pc + 4) := by
  rw [branchIf, withRegs_ready2 h, Group.run_x, Group.run_x, wordsFrom_eq]
  exact if_congr hc rfl rfl

/-- BGE compares by what BLT does not: not below is at or above. -/
theorem not_slt_iff (x y : Word) : (!x.slt y) = true ↔ x.toInt ≥ y.toInt := by
  simp [BitVec.slt_eq_decide]

/-- BGEN and BLTN, likewise. -/
theorem not_ult_iff (x y : Word) : (!x.ult y) = true ↔ x.toNat ≥ y.toNat := by
  simp [BitVec.ult_eq_decide]

end Sys2Proof.Machine

open Sys2Proof Sys2Proof.Machine

/-- Settles O17: each of the six is `branchIf` with a comparison that decides the stated condition. -/
theorem branchResults : Obligations.BranchResults := by
  unfold Obligations.BranchResults
  intro s g a b o hready x y jump
  refine ⟨?beq, ?bne, ?blt, ?bge, ?bltn, ?bgen, ?words⟩
  case beq => exact branchIf_ready hready o beq_iff_eq
  case bne => exact branchIf_ready hready o bne_iff_ne
  case blt => exact branchIf_ready hready o BitVec.slt_iff_toInt_lt
  case bge => exact branchIf_ready hready o (c := fun u v => !u.slt v) (not_slt_iff x y)
  case bltn => exact branchIf_ready hready o BitVec.ult_iff_toNat_lt
  case bgen => exact branchIf_ready hready o (c := fun u v => !u.ult v) (not_ult_iff x y)
  case words =>
    simp only [List.forall_mem_cons]
    exact ⟨rfl, rfl, rfl, rfl, rfl, rfl, by simp⟩

end

section
/-! SUPPORT. Masks bit by bit: what a write of a mask or of one of its bits leaves, and how a mask stands while a member of the
vector unit writes it element by element (R102, R171). -/

namespace Sys2Proof.Machine

/-! ## Bits of masks -/

theorem getLsbD_lowMask (n j : Nat) : (lowMask n).getLsbD j = (decide (j < 1024) && decide (j < n)) := by
  rw [lowMask, BitVec.getLsbD_ofNat, Nat.testBit_two_pow_sub_one]

/-- A mask written reads as written, below vlmax. -/
theorem Group.mask_setMask_self {g : Group} (m : Nat) (v : BitVec 1024) (w : FMap.wf 0 g.fil.masks = true) :
    (g.setMask m v).mask m = v &&& lowMask g.vec.vlmax := FMap.get_set_self _ _ _ _ w

/-- A mask written leaves every other mask alone. -/
theorem Group.mask_setMask_ne (g : Group) {m n : Nat} (v : BitVec 1024) (h : n ≠ m) : (g.setMask m v).mask n = g.mask n :=
  FMap.get_set_ne _ _ _ h

theorem Group.getLsbD_setMask_self {g : Group} (m : Nat) (v : BitVec 1024) (w : FMap.wf 0 g.fil.masks = true) (j : Nat) :
    ((g.setMask m v).mask m).getLsbD j = (v.getLsbD j && decide (j < g.vec.vlmax)) := by
  rw [mask_setMask_self m v w, BitVec.getLsbD_and, getLsbD_lowMask]
  by_cases hj : j < 1024
  · simp [hj]
  · simp [BitVec.getLsbD_of_ge v j (by omega)]

/-- Mask m cut off at n. -/
def Group.cutAt (g : Group) (m n : Nat) : Group := g.setMask m (g.mask m &&& lowMask n)

/-- A bit written reads as written, and the mask's other bits below vlmax stand. -/
theorem Group.getLsbD_setBit_self {g : Group} (m e : Nat) (v : Bool) (w : FMap.wf 0 g.fil.masks = true) {j : Nat}
    (hj : j < g.vec.vlmax) (hmax : g.vec.vlmax ≤ 1024) :
    ((g.setBit m e v).mask m).getLsbD j = if j = e then v else (g.mask m).getLsbD j := by
  have hj' : j < 1024 := by omega
  have hone : (1#1024 <<< e).getLsbD j = decide (j = e) := by
    change (BitVec.twoPow 1024 e).getLsbD j = _
    rw [BitVec.getLsbD_twoPow]
    grind
  rw [setBit, getLsbD_setMask_self _ _ w]
  cases v
  · simp only [Bool.false_eq_true, if_false, BitVec.getLsbD_and, BitVec.getLsbD_not, hone, hj, hj']
    grind
  · simp only [if_true, BitVec.getLsbD_or, hone, hj]
    grind

/-- The all-false flag of a mask that is false from vlmax on. -/
theorem Group.allFalse_iff {g : Group} {m : Nat} (h : ∀ j, g.vec.vlmax ≤ j → (g.mask m).getLsbD j = false) :
    g.allFalse m = true ↔ ∀ j, (g.mask m).getLsbD j = false := by
  rw [allFalse, beq_iff_eq]
  refine ⟨fun hz j => ?_, fun hz => BitVec.eq_of_getLsbD_eq fun j _ => by rw [BitVec.getLsbD_and, hz j]; simp⟩
  by_cases hj : j < g.vec.vlmax
  · by_cases hw : j < 1024
    · have hbit := congrArg (BitVec.getLsbD · j) hz
      simp only [BitVec.getLsbD_and, getLsbD_lowMask, hj, hw, decide_true, Bool.and_true] at hbit
      exact hbit.trans BitVec.getLsbD_zero
    · exact BitVec.getLsbD_of_ge _ _ (by omega)
  · exact h j (by omega)

/-! ## A mask written bit by bit -/

/-- A group `g'` whose mask `d` holds `bit` below n and, as every other mask and register of it, what `g` holds elsewhere. -/
structure BitsWritten (g : Group) (d : Nat) (bit : Nat → Bool) (n : Nat) (g' : Group) : Prop where
  frame : g' = { g with fil := { g.fil with masks := g'.fil.masks } }
  canonical : FMap.wf 0 g'.fil.masks = true
  others : ∀ m, m ≠ d → g'.mask m = g.mask m
  bits : ∀ j, j < g.vec.vlmax → (g'.mask d).getLsbD j = if j < n then bit j else (g.mask d).getLsbD j

namespace BitsWritten

variable {g g' : Group} {d n : Nat} {bit : Nat → Bool}

theorem start (d : Nat) (bit : Nat → Bool) (w : FMap.wf 0 g.fil.masks = true) : BitsWritten g d bit 0 g :=
  ⟨rfl, w, fun _ _ => rfl, fun j _ => by simp⟩

theorem vec_eq (h : BitsWritten g d bit n g') : g'.vec = g.vec := by rw [h.frame]

theorem badMasks_eq (h : BitsWritten g d bit n g') : g'.fil.badMasks = g.fil.badMasks := by rw [h.frame]

/-- Bits from n on stand, in every mask. -/
theorem unwritten (h : BitsWritten g d bit n g') (m : Nat) {j : Nat} (hn : n ≤ j) (hj : j < g.vec.vlmax) :
    (g'.mask m).getLsbD j = (g.mask m).getLsbD j := by
  by_cases hm : m = d
  · rw [hm, h.bits j hj, if_neg (by omega)]
  · rw [h.others m hm]

/-- The next bit written. -/
theorem setBit (h : BitsWritten g d bit n g') (hmax : g.vec.vlmax ≤ 1024) : BitsWritten g d bit (n + 1) (g'.setBit d n (bit n)) where
  frame := by rw [h.frame]; rfl
  canonical := FMap.wf_set _ _ _ _ h.canonical
  others m hm := (Group.mask_setMask_ne _ _ hm).trans (h.others m hm)
  bits j hj := by
    rw [Group.getLsbD_setBit_self _ _ _ h.canonical (h.vec_eq ▸ hj) (h.vec_eq ▸ hmax), h.bits j hj]
    grind

/-- The mask cut off at vl: no bit of what stood in it is left. -/
theorem getLsbD_cut (h : BitsWritten g d bit n g') (hn : n ≤ g.vec.vlmax) (hmax : g.vec.vlmax ≤ 1024) (j : Nat) :
    ((g'.cutAt d n).mask d).getLsbD j = (decide (j < n) && bit j) := by
  rw [Group.cutAt, Group.getLsbD_setMask_self _ _ h.canonical, h.vec_eq, BitVec.getLsbD_and, getLsbD_lowMask]
  by_cases hj : j < n
  · rw [h.bits j (by omega)]
    grind
  · simp [hj]

end BitsWritten

/-! ## Elements as a member found them (R91) -/

/-- Bit i of a number summed from the powers of two at which `p` holds. -/
theorem testBit_foldl_two_pow (p : Nat → Bool) (n i : Nat) :
    ((List.range n).foldl (fun a m => if p m then a + 2 ^ m else a) 0).testBit i = (decide (i < n) && p i) := by
  induction n generalizing i with
  | zero => simp
  | succ n ih =>
    rw [List.range_succ, List.foldl_append, List.foldl_cons, List.foldl_nil]
    generalize (List.range n).foldl (fun a m => if p m then a + 2 ^ m else a) 0 = acc at ih
    have hacc : acc < 2 ^ n := Nat.lt_pow_two_of_testBit acc fun i hi => by simp [ih, Nat.not_lt.2 hi]
    split
    case isFalse hp => grind
    case isTrue hp =>
      rw [Nat.add_comm acc]
      rcases Nat.lt_trichotomy i n with hi | rfl | hi
      · rw [Nat.testBit_two_pow_add_gt hi, ih]; grind
      · rw [Nat.testBit_two_pow_add_eq, ih]; simp [hp]
      · have hpow : 2 ^ (n + 1) ≤ 2 ^ i := Nat.pow_le_pow_right (by omega) hi
        rw [Nat.testBit_lt_two_pow (by omega)]; grind

/-- The bits of an element's row are the bits of the masks at the element. -/
theorem Group.getLsbD_row_masks (g : Group) (e : Nat) {a : Nat} (ha : a < 12) : (g.row e).masks.getLsbD a = (g.mask a).getLsbD e := by
  rw [row, BitVec.getLsbD_ofNat, testBit_foldl_two_pow]
  simp [ha]

/-- Nothing is marked in a row of masks without marks. -/
theorem Group.row_badMasks (g : Group) (e : Nat) (h : g.fil.badMasks = []) : (g.row e).badMasks = 0 := by
  simp [row, badBit, h]

end Sys2Proof.Machine
end

section
/-! SUPPORT. A convoy of one word at the vector unit: its decision, its execution element by element, and what the group holds when
it has completed (R21, R25, R29). -/

namespace Sys2Proof.Machine

/-! ## What a decision leaves alone -/

/-- A decision of an arbiter changes deficits alone. -/
theorem decide21_mem {s s1 : State} {c k : Nat} {u : UnitKind} (h : decide21 s c u = some (s1, k)) : s1.mem = s.mem := by
  simp only [decide21] at h
  split at h
  · obtain ⟨rfl, -⟩ := Prod.mk.inj (Option.some.inj h); rfl
  · cases h

/-- Activity counted in a slot leaves its group alone. -/
theorem group_tally {s : State} {c k : Nat} {g : Group} (h : s.group? c k = some g) (cls n : Nat) :
    (s.tally c k cls n).group? c k = some g := by
  have hne : ∀ a, ({ s.slot c k with activity := a } : Slot) ≠ .empty := fun a he => by
    have := congrArg Slot.group he
    simp [Slot.empty] at this
    simp [State.group?, this] at h
  simp only [State.group?, State.tally, slot_setSlot_self s c k (hne _)]
  exact h

theorem group_tallyConvoy {s : State} {c k : Nat} {g : Group} (h : s.group? c k = some g) (e : VEntry) (n : Nat) :
    (tallyConvoy s c k e n).group? c k = some g := group_tally (group_tally h _ _) _ _

theorem tallyConvoy_mem (s : State) (c k : Nat) (e : VEntry) (n : Nat) : (tallyConvoy s c k e n).mem = s.mem := rfl

/-! ## A convoy that completes -/

/-- The group of a head that has executed with what it leaves. -/
def Group.completed (g : Group) (e : VEntry) (rest : List VEntry) (d : Done) : Group :=
  let g1 := g.setHead { e with begun := true, prog := .fresh, done := some d } rest
  if e.seq == 0 then g1 else g1.markSent e.seq

section
variable (g : Group) (e : VEntry) (rest : List VEntry) (d : Done)

@[simp] theorem Group.completed_fil : (g.completed e rest d).fil = g.fil := by unfold completed; split <;> rfl
@[simp] theorem Group.completed_sca : (g.completed e rest d).sca = g.sca := by unfold completed; split <;> rfl
@[simp] theorem Group.completed_vec : (g.completed e rest d).vec = g.vec := by unfold completed; split <;> rfl
@[simp] theorem Group.completed_vq : (g.completed e rest d).que.vq = { e with begun := true, prog := .fresh, done := some d } :: rest := by
  unfold completed; split <;> rfl
@[simp] theorem Group.completed_mask (m : Nat) : (g.completed e rest d).mask m = g.mask m := by unfold mask; rw [completed_fil]

end

theorem settleConvoy_completed (c k : Nat) (e : VEntry) (rest : List VEntry) (w : Work) :
    settleConvoy c k e rest { w := w, prog := .fresh, stop := none }
      = w.s.setGroup c k (w.g.completed e rest { flags := w.flags, xreg := w.xreg }) := rfl

/-! ## Elements -/

/-- What every element keeps holds after the last. -/
theorem elementLoop_keeps {f : Work → Nat → Except Stop Work} (P : Nat → Work → Prop) (n e : Nat) (w : Work)
    (step : ∀ j v, j < e + n → P j v → ∃ v', f v j = .ok v' ∧ P (j + 1) v') (h : P e w) :
    ∃ w', elementLoop f n e w = { w := w', stop := none } ∧ P (e + n) w' := by
  induction n generalizing e w with
  | zero => exact ⟨w, rfl, h⟩
  | succ n ih =>
    obtain ⟨v, hv, hP⟩ := step e w (by omega) h
    obtain ⟨w', hloop, hlast⟩ := ih (e + 1) v (fun j u hj => step j u (by omega)) hP
    refine ⟨w', ?_, by rwa [show e + (n + 1) = e + 1 + n by omega]⟩
    rw [elementLoop, hv]
    exact hloop

/-! ## The lone member of a convoy -/

/-- A member that works element by element, with no mask, type, slice or wait to be checked before element 0. -/
structure Member.Unchecked (m : Member) (f : Work → Nat → Except Stop Work) (last : Work → Work) : Prop where
  unmasked : m.k = 0
  typed : m.typed = true
  slices : m.sr = [] ∧ m.sw = []
  pre : m.pre = .ok
  act : m.act = .elements f last
  flush : m.flush = id

/-- The seat of the only member of a convoy. -/
def loneSeat (s1 : State) (c k : Nat) (g : Group) (e : VEntry) (i : Instr) (caps : List Word) (m : Member) : Seat :=
  { me := (loneMember s1 c k g e caps).1, m := m, word := BitVec.ofNat 64 ((encode i).getD 0) }

section
variable (s1 : State) (c k : Nat) (g : Group) (e : VEntry) (i : Instr) (caps : List Word) (m : Member)

@[simp] theorem loneSeat_m : (loneSeat s1 c k g e i caps m).m = m := rfl
@[simp] theorem loneSeat_me : (loneSeat s1 c k g e i caps m).me = (loneMember s1 c k g e caps).1 := rfl
@[simp] theorem loneSeat_ghost : (loneSeat s1 c k g e i caps m).ghost = false := rfl
@[simp] theorem loneMember_place : (loneMember s1 c k g e caps).1.place = 0 := rfl
@[simp] theorem loneMember_e : (loneMember s1 c k g e caps).1.e = e := rfl

end

/-- One element of a run of one member. -/
def Seat.alone (x : Seat) (w : Work) (e : Nat) : Except Stop Work := do
  let w1 ← Seat.element 0 e w x
  w1.compare e

section
variable {s s1 : State} {c k : Nat} {g : Group} {e : VEntry} {rest : List VEntry} {i : Instr} {caps : List Word}
  {m : Member} {f : Work → Nat → Except Stop Work} {last : Work → Work}

theorem OneWord.mem_eq (h : OneWord s s1 c k g e rest i caps) : s1.mem = s.mem := decide21_mem h.picked

/-- The decision executes the head. -/
theorem OneWord.exec_eq (h : OneWord s s1 c k g e rest i caps) :
    exec (.arbiterDecision c .vector) s = .next (tallyConvoy (executeVector s1 c k g e rest) c k e g.vec.vst) := by
  change execArbiterDecision c .vector s = _
  have hunmarked := h.unmarked.1
  simp only [execArbiterDecision, bindVector, h.powered, h.picked, h.group, h.head, Option.bind_some, Option.map_some, hunmarked]
  rfl

theorem OneWord.entryMembers_eq (h : OneWord s s1 c k g e rest i caps) (hm : memberOf (loneMember s1 c k g e caps).1 i = some m) :
    entryMembers s1 c k g e = [loneSeat s1 c k g e i caps m] := by
  have hm' : memberOf { core := c, slot := k, e := e, place := 0, caps := caps, ctx := ctxOf s1 c k g } i = some m := hm
  simp only [entryMembers, h.only.1, h.only.2]
  simp [hm', loneSeat, loneMember]

/-- The lone member is judged before element 0, and is not dropped. -/
theorem judge_loneSeat (hfresh : e.prog = .fresh) (hk : m.k = 0) :
    judge e g [] [loneSeat s1 c k g e i caps m] = [(0, some false)] := by
  simp [judge, Seat.lateMask, hk, hfresh, Progress.fresh, FMap.set, FMap.put]

theorem loneSeat_late (hfresh : e.prog = .fresh) : (loneSeat s1 c k g e i caps m).late = none := by
  simp [Seat.late, hfresh, Progress.fresh]

theorem loneSeat_owed (hfresh : e.prog = .fresh) : (loneSeat s1 c k g e i caps m).owed = none := by
  simp [Seat.owed, hfresh, Progress.fresh]

namespace Member.Unchecked

theorem memberChecks_eq (hm : m.Unchecked f last) (vst : Nat) (w : Work) :
    memberChecks vst w [loneSeat s1 c k g e i caps m] = none := by
  simp [memberChecks, memberCheck, hm.typed, hm.slices, hm.pre]

/-- A run of the lone member that performs every element. -/
theorem runSegment_eq (hm : m.Unchecked f last) (hfresh : e.prog = .fresh) {w w' : Work}
    (hloop : elementLoop (loneSeat s1 c k g e i caps m).alone e.vl 0 w = { w := w', stop := none }) :
    runSegment [loneSeat s1 c k g e i caps m] 0 e.vl e.vl w = { w := (last w').change fun g => g.cleanMasks m.mw, stop := none } := by
  have halone : (fun w n => do
      let w1 ← [loneSeat s1 c k g e i caps m].foldlM (Seat.element 0 n) w
      w1.compare n) = (loneSeat s1 c k g e i caps m).alone := by
    funext w n
    simp [Seat.alone]
  simp only [runSegment, halone, List.foldl_cons, List.foldl_nil, loneSeat_owed hfresh, Option.map_none, Option.getD_none, Nat.min_self,
    Nat.sub_zero, hloop]
  simp [runWhole, Seat.wholly, Seat.close, Member.isWhole, hm.act, hm.unmasked, bind, Except.bind, pure, Except.pure]

/-- A pass over a convoy of the lone member is that run. -/
theorem passOver_eq (hm : m.Unchecked f last) (hfresh : e.prog = .fresh) {w w' : Work} (hview : w.view = none)
    (hloop : elementLoop (loneSeat s1 c k g e i caps m).alone e.vl 0 w = { w := w', stop := none }) :
    let p := passOver [(0, some false)] 0 e.vl [] [] [[loneSeat s1 c k g e i caps m]] e.vl none w
    p.w = { (last w').change (fun g => g.cleanMasks m.mw) with view := none } ∧ p.stop = none := by
  have hw : { w with view := none } = w := by rw [← hview]
  have hpre : ([loneSeat s1 c k g e i caps m].filter (·.opens 0)).foldlM (fun (w : Work) (x : Seat) => x.m.pre w) w = .ok w := by
    by_cases ho : (loneSeat s1 c k g e i caps m).opens 0 = true
    · simp [ho, hm.pre, bind, Except.bind, pure, Except.pure]
    · simp [ho, pure, Except.pure]
  simp [passOver, hw, hpre, Seat.fate, Seat.lateMask, Seat.seated, FMap.get, memberChecks, Seat.catchUp, loneSeat_late hfresh,
    runSegment_eq hm hfresh hloop, bind, Except.bind, pure, Except.pure]

end Member.Unchecked

/-- The lone member's convoy completes once every element is performed. -/
theorem OneWord.runUpset_eq (h : OneWord s s1 c k g e rest i caps) (hi : memberOf (loneMember s1 c k g e caps).1 i = some m)
    (hm : m.Unchecked f last) {w' : Work}
    (hloop : elementLoop (loneSeat s1 c k g e i caps m).alone e.vl 0 (loneMember s1 c k g e caps).2 = { w := w', stop := none }) :
    runUpset s1 c k g e none
      = { w := { (last w').change (fun g => g.cleanMasks m.mw) with view := none }, prog := .fresh, stop := none } := by
  obtain ⟨hw, hstop⟩ := hm.passOver_eq h.fresh rfl hloop
  have hjudge : judge e g [] [loneSeat s1 c k g e i caps m] = [(0, some false)] := judge_loneSeat h.fresh hm.unmasked
  have hvst : g.vec.vst = 0 := h.whole.1
  have hstart : (loneMember s1 c k g e caps).2 = {
      s := s1, g := g, flags := 0, xreg := none, pend := e.prog.pend, rows := e.prog.rows, view := none, upset := none,
      ahead := e.prog.ahead } := by rw [h.fresh]; rfl
  simp only [runUpset, runTo, h.entryMembers_eq hi, hjudge, hvst, ← hstart]
  simp [Seat.lateMask, FMap.get, hm.memberChecks_eq, convoyRuns, segments, hw, hstop, hm.flush]

/-- Once every element of the lone member is performed, the head stands executed with what its work leaves. -/
theorem OneWord.completes (h : OneWord s s1 c k g e rest i caps) (hi : memberOf (loneMember s1 c k g e caps).1 i = some m)
    (hm : m.Unchecked f last) {w' : Work}
    (hloop : elementLoop (loneSeat s1 c k g e i caps m).alone e.vl 0 (loneMember s1 c k g e caps).2 = { w := w', stop := none }) :
    let w := (last w').change fun g => g.cleanMasks m.mw
    ∃ t, exec (.arbiterDecision c .vector) s = .next t ∧ t.mem = w.s.mem
      ∧ t.group? c k = some (w.g.completed e rest { flags := w.flags, xreg := w.xreg }) := by
  have hexecuted : executeVector s1 c k g e rest = _ :=
    (congrArg (settleConvoy c k e rest) (h.runUpset_eq hi hm hloop)).trans (settleConvoy_completed ..)
  refine ⟨_, h.exec_eq, ?mem, group_tallyConvoy ?group _ _⟩
  case mem => rw [tallyConvoy_mem, hexecuted]; rfl
  case group => rw [hexecuted]; exact group_setGroup_self ..

end

end Sys2Proof.Machine
end

section
/-! SUPPORT. Operations on masks: the members that write one mask bit by bit, from their sources as they found them (R91, R171). -/

namespace Sys2Proof.Machine

/-! ## Members that write one mask -/

/-- A member that writes mask d element by element and cuts it off at vl. -/
def maskMember (me : MemberEnv) (d : BitVec 6) (mr ahead : List Nat) (keeps : Bool) (f : Work → Nat → Except Stop Work) : Member :=
  { plainMember 0 true [] [] mr [d.toNat] [] (.elements f fun w => w.cutMask d.toNat me.e.vl) with keeps := keeps, ahead := ahead }

theorem mopMember_eq (me : MemberEnv) (d : BitVec 6) (srcs : List Nat) (bit : Work → Nat → Bool) :
    mopMember me d srcs bit = maskMember me d srcs [] false fun w n => .ok (w.setBit d.toNat n (bit w n)) := rfl

theorem shiftMember_eq (me : MemberEnv) (d a : BitVec 6) (ahead : List Nat) (place : Nat → Option Nat) :
    shiftMember me d a ahead place = maskMember me d [] ahead true fun w n =>
      match place n with
      | some j => do
        let b ← w.bitWas me a.toNat j
        .ok (w.setBit d.toNat n b)
      | none => .ok (w.setBit d.toNat n false) := rfl

theorem maskMember_unchecked (me : MemberEnv) (d : BitVec 6) (mr ahead : List Nat) (keeps : Bool)
    (f : Work → Nat → Except Stop Work) :
    (maskMember me d mr ahead keeps f).Unchecked f fun w => w.cutMask d.toNat me.e.vl := ⟨rfl, rfl, ⟨rfl, rfl⟩, rfl, rfl, rfl⟩

/-! ## The work of such a member -/

/-- Work of a member that has changed masks and recorded rows, and nothing else. -/
def maskWork (s1 : State) (g' : Group) (rows : FMap (Option Row)) : Work :=
  { s := s1, g := g', flags := 0, xreg := none, pend := [], rows := rows, view := none, upset := none }

section
variable (s1 : State) (g' : Group) (rows : FMap (Option Row))

@[simp] theorem maskWork_setBit (d n : Nat) (v : Bool) : (maskWork s1 g' rows).setBit d n v = maskWork s1 (g'.setBit d n v) rows := rfl
@[simp] theorem maskWork_bit (a n : Nat) : (maskWork s1 g' rows).bit a n = (g'.mask a).getLsbD n := rfl
@[simp] theorem maskWork_seen : (maskWork s1 g' rows).seen = g' := rfl
@[simp] theorem maskWork_compare (n : Nat) : (maskWork s1 g' rows).compare n = .ok (maskWork s1 g' rows) := rfl
@[simp] theorem maskWork_record (me : MemberEnv) (n : Nat) :
    (maskWork s1 g' rows).record me n = maskWork s1 g' (FMap.set none rows (me.rowKey n) (some (g'.row n))) := rfl

end

/-- The rows recorded for a member before element n: each element below it with the mask bits that `g` holds. -/
structure RowsAsFound (me : MemberEnv) (g : Group) (n : Nat) (rows : FMap (Option Row)) : Prop where
  recorded : ∀ j, j < n → ∃ r, FMap.get none rows (me.rowKey j) = some r ∧ r.badMasks = 0 ∧
    ∀ a, a < 12 → r.masks.getLsbD a = (g.mask a).getLsbD j
  unrecorded : ∀ j, n ≤ j → FMap.get none rows (me.rowKey j) = none

section
variable {me : MemberEnv} {s1 : State} {g g' : Group} {d n : Nat} {bit : Nat → Bool} {rows : FMap (Option Row)}

/-- Element n recorded before its bit is written. -/
theorem RowsAsFound.record (h : RowsAsFound me g n rows) (hw : BitsWritten g d bit n g') (hn : n < g.vec.vlmax)
    (hbad : g.fil.badMasks = []) : RowsAsFound me g (n + 1) (FMap.set none rows (me.rowKey n) (some (g'.row n))) where
  recorded j hj := by
    by_cases hjn : j = n
    · subst hjn
      refine ⟨g'.row j, FMap.get_set_of_ne _ _ _ (by simp), g'.row_badMasks j (hw.badMasks_eq.trans hbad), fun a ha => ?_⟩
      rw [g'.getLsbD_row_masks j ha, hw.unwritten a le_rfl hn]
    · rw [FMap.get_set_ne _ _ _ (by simp [MemberEnv.rowKey, hjn])]
      exact h.recorded j (by omega)
  unrecorded j hj := by
    rw [FMap.get_set_ne _ _ _ (by simp only [MemberEnv.rowKey]; omega)]
    exact h.unrecorded j (by omega)

/-- A bit read as it was is the bit before the word, written since or not. -/
theorem RowsAsFound.bitWas (h : RowsAsFound me g (n + 1) rows) (hw : BitsWritten g d bit n g') (hbad : g.fil.badMasks = [])
    {a j : Nat} (ha : a < 12) (hj : j < g.vec.vlmax) : (maskWork s1 g' rows).bitWas me a j = .ok ((g.mask a).getLsbD j) := by
  by_cases hjn : j < n + 1
  · obtain ⟨r, hget, hr, hmasks⟩ := h.recorded j hjn
    have hwas : (maskWork s1 g' rows).was me j = r := by simp [Work.was, maskWork, hget]
    simp [Work.bitWas, hwas, hr, hmasks a ha]
  · have hwas : (maskWork s1 g' rows).was me j = g'.row j := by
      have hget := h.unrecorded j (by omega)
      simp [Work.was, maskWork_seen, show (maskWork s1 g' rows).rows = rows from rfl, hget]
    simp [Work.bitWas, hwas, g'.row_badMasks j (hw.badMasks_eq.trans hbad), g'.getLsbD_row_masks j ha, hw.unwritten a (by omega) hj]

/-- Marks of masks that hold none. -/
theorem Group.cleanMasks_of_unmarked (ms : List Nat) (h : g.fil.badMasks = []) : g.cleanMasks ms = g := by
  obtain ⟨_, _, _, _, _, _, fil, _, _⟩ := g
  cases fil
  simp_all [cleanMasks]

end

/-! ## One such word (R171) -/

section
variable {s s1 : State} {c k : Nat} {g : Group} {e : VEntry} {rest : List VEntry} {i : Instr} {caps : List Word} {d : BitVec 6}
  {mr ahead : List Nat} {keeps : Bool} {f : Work → Nat → Except Stop Work}

/-- How a word that writes mask d ends: its bits below vl are those given, the others clear, and every other mask is as it was. -/
def endsWithMask (s : State) (c k : Nat) (g : Group) (e : VEntry) (rest : List VEntry) (d : BitVec 6) (bit : Nat → Bool) : Prop :=
  ∃ t g', endsMask s t c k g' g e rest none ∧ (∀ m, m ≠ d.toNat → g'.mask m = g.mask m)
    ∧ ∀ j, (g'.mask d.toNat).getLsbD j = (decide (j < e.vl) && bit j)

/-- An element of the lone member: its row recorded where it keeps rows, then its own act. -/
theorem element_maskMember {g' : Group} {rows : FMap (Option Row)} {n : Nat} (hbad : g'.fil.badMasks = []) :
    Seat.element 0 n (maskWork s1 g' rows) (loneSeat s1 c k g e i caps (maskMember (loneMember s1 c k g e caps).1 d mr ahead keeps f))
      = f (maskWork s1 g' (if keeps then FMap.set none rows ((loneMember s1 c k g e caps).1.rowKey n) (some (g'.row n)) else rows)) n := by
  have hunmarked : ∀ m, g'.badBit m n = false := fun m => by simp [Group.badBit, hbad]
  have hahead : ∀ rows, (maskWork s1 g' rows).ahead = false := fun _ => rfl
  cases keeps <;> simp [Seat.element, Seat.due, maskMember, plainMember, hunmarked, hahead]

/-- At each element below vl, `f` writes that element's bit, whatever has been written below it. -/
def WritesNextBit (me : MemberEnv) (s1 : State) (g : Group) (d : Nat) (bit : Nat → Bool) (keeps : Bool)
    (f : Work → Nat → Except Stop Work) : Prop :=
  ∀ n g' rows, n < me.e.vl → BitsWritten g d bit n g' → (keeps = true → RowsAsFound me g (n + 1) rows) →
    f (maskWork s1 g' rows) n = .ok (maskWork s1 (g'.setBit d n (bit n)) rows)

/-- How the work of such a member stands before element n. -/
def MaskWorkAt (me : MemberEnv) (s1 : State) (g : Group) (d : Nat) (bit : Nat → Bool) (keeps : Bool) (n : Nat) (w : Work) : Prop :=
  ∃ g' rows, w = maskWork s1 g' rows ∧ BitsWritten g d bit n g' ∧ (keeps = true → RowsAsFound me g n rows)

/-- One element takes the work from before it to after it. -/
theorem OneWord.maskWorkAt_step (h : OneWord s s1 c k g e rest i caps) {bit : Nat → Bool}
    (hf : WritesNextBit (loneMember s1 c k g e caps).1 s1 g d.toNat bit keeps f) {n : Nat} {w : Work} (hn : n < e.vl)
    (hw : MaskWorkAt (loneMember s1 c k g e caps).1 s1 g d.toNat bit keeps n w) :
    ∃ w', (loneSeat s1 c k g e i caps (maskMember (loneMember s1 c k g e caps).1 d mr ahead keeps f)).alone w n = .ok w'
      ∧ MaskWorkAt (loneMember s1 c k g e caps).1 s1 g d.toNat bit keeps (n + 1) w' := by
  obtain ⟨g', rows, rfl, hbits, hrows⟩ := hw
  obtain ⟨-, hvl, hmax⟩ := h.whole
  obtain ⟨-, -, hbad⟩ := h.unmarked
  have hrecorded : keeps = true → RowsAsFound (loneMember s1 c k g e caps).1 g (n + 1)
      (if keeps then FMap.set none rows ((loneMember s1 c k g e caps).1.rowKey n) (some (g'.row n)) else rows) := fun hk => by
    simpa [hk] using (hrows hk).record hbits (by omega) hbad
  refine ⟨_, ?_, _, _, rfl, hbits.setBit hmax, hrecorded⟩
  rw [Seat.alone, element_maskMember (hbits.badMasks_eq.trans hbad), hf n g' _ hn hbits hrecorded]
  rfl

/-- A word that writes bit n of its mask at element n, and cuts the mask off at vl. -/
theorem OneWord.endsWithMask_of_maskMember (h : OneWord s s1 c k g e rest i caps) {bit : Nat → Bool}
    (hi : memberOf (loneMember s1 c k g e caps).1 i = some (maskMember (loneMember s1 c k g e caps).1 d mr ahead keeps f))
    (hf : WritesNextBit (loneMember s1 c k g e caps).1 s1 g d.toNat bit keeps f) : endsWithMask s c k g e rest d bit := by
  obtain ⟨w', hrun, g', rows, rfl, hw, -⟩ := elementLoop_keeps
    (MaskWorkAt (loneMember s1 c k g e caps).1 s1 g d.toNat bit keeps) e.vl 0 (maskWork s1 g [])
    (fun n w hn hw => h.maskWorkAt_step (mr := mr) (ahead := ahead) hf (by omega) hw)
    ⟨g, [], rfl, .start _ _ h.canonical.2, fun _ => ⟨fun j hj => by omega, fun _ _ => rfl⟩⟩
  rw [Nat.zero_add] at hw
  obtain ⟨t, hexec, hmem, hgroup⟩ := h.completes hi (maskMember_unchecked ..) hrun
  have hclean : (g'.cutAt d.toNat e.vl).cleanMasks [d.toNat] = g'.cutAt d.toNat e.vl :=
    Group.cleanMasks_of_unmarked _ (hw.badMasks_eq.trans h.unmarked.2.2)
  replace hgroup : t.group? c k = some (((g'.cutAt d.toNat e.vl).cleanMasks [d.toNat]).completed e rest { flags := 0, xreg := none }) :=
    hgroup
  rw [hclean] at hgroup
  refine ⟨t, _, ⟨hexec, hgroup, hmem.trans h.mem_eq, ?queue, ?slices, ?tiles, ?scalar, ?vector⟩, fun m hm => ?others, fun j => ?bits⟩
  case queue => rw [Group.completed_vq, h.fresh]
  case slices => rw [Group.completed_fil, hw.frame]; rfl
  case tiles => rw [Group.completed_fil, hw.frame]; rfl
  case scalar => rw [Group.completed_sca, hw.frame]; rfl
  case vector => rw [Group.completed_vec, hw.frame]; rfl
  case others => rw [Group.completed_mask, Group.cutAt, Group.mask_setMask_ne _ _ hm, hw.others m hm]
  case bits => rw [Group.completed_mask, hw.getLsbD_cut h.whole.2.1 h.whole.2.2]

/-- A word whose bit at an element comes from the bits of masks at that element. -/
theorem OneWord.endsWithMask_of_mopMember (h : OneWord s s1 c k g e rest i caps) {bit : Nat → Bool} {srcs : List Nat}
    {value : Work → Nat → Bool}
    (hi : memberOf (loneMember s1 c k g e caps).1 i = some (mopMember (loneMember s1 c k g e caps).1 d srcs value))
    (hvalue : ∀ w n, (∀ a, w.bit a n = (g.mask a).getLsbD n) → value w n = bit n) : endsWithMask s c k g e rest d bit :=
  h.endsWithMask_of_maskMember (hi.trans (congrArg some (mopMember_eq ..))) fun n g' rows hn hw _ => by
    have hread : ∀ a, (maskWork s1 g' rows).bit a n = (g.mask a).getLsbD n :=
      fun a => hw.unwritten a le_rfl (Nat.lt_of_lt_of_le hn h.whole.2.1)
    rw [hvalue _ n hread, maskWork_setBit]

/-- A word whose bit at an element comes from a neighbouring bit of its source, or is false where the source has none. -/
theorem OneWord.endsWithMask_of_shiftMember (h : OneWord s s1 c k g e rest i caps) {bit : Nat → Bool} {a : BitVec 6}
    {place : Nat → Option Nat}
    (hi : memberOf (loneMember s1 c k g e caps).1 i = some (shiftMember (loneMember s1 c k g e caps).1 d a ahead place))
    (ha : a.toNat < 12) (hplace : ∀ n, n < e.vl → ∀ j ∈ place n, j < e.vl)
    (hbit : ∀ n, ((place n).any fun j => (g.mask a.toNat).getLsbD j) = bit n) : endsWithMask s c k g e rest d bit :=
  h.endsWithMask_of_maskMember (hi.trans (congrArg some (shiftMember_eq ..))) fun n g' rows hn hw hrows => by
    rw [← hbit n]
    cases hp : place n with
    | none => rfl
    | some j =>
      have hj : j < g.vec.vlmax := Nat.lt_of_lt_of_le (hplace n hn j hp) h.whole.2.1
      simp only [(hrows rfl).bitWas hw h.unmarked.2.2 ha hj]
      rfl

end

/-- Bit j of the mask that a word writes, by the rule of its operation (R171). -/
def maskBit (g : Group) (e : VEntry) (caps : List Word) (i : Instr) (j : Nat) : Bool := (maskResult g e caps j i).any (·.2)

theorem maskBit_eq {g : Group} {e : VEntry} {caps : List Word} {i : Instr} {j : Nat} {d : BitVec 6} {v : Bool}
    (h : maskResult g e caps j i = some (d, v)) : maskBit g e caps i j = v := by
  rw [maskBit, h]; rfl

/-- The one check of the words that shift a mask: their source is a mask (R40). -/
theorem shift_source_lt {d a : BitVec 6} (h : firstFailing [(d.toNat < 12 && a.toNat < 12, DecodeError.badIndex)] = none) :
    a.toNat < 12 := by
  have hboth : d.toNat < 12 ∧ a.toNat < 12 := by simpa [firstFailing] using h
  exact hboth.2

/-- Each operation on masks ends with the bits of its rule: nine take them from their sources at the element itself, MSHL1 and MSHR1
from a neighbour, MFROMX from the captured x register. -/
theorem OneWord.endsWithMask_maskBit {s s1 : State} {c k : Nat} {g : Group} {e : VEntry} {rest : List VEntry} {i : Instr}
    {caps : List Word} {d : BitVec 6} {b0 : Bool} (h : OneWord s s1 c k g e rest i caps) (hr : maskResult g e caps 0 i = some (d, b0)) :
    endsWithMask s c k g e rest d (maskBit g e caps i) := by
  have hformed := h.formed
  unfold maskResult at hr
  split at hr <;> cases hr
  case h_1 | h_2 | h_3 | h_4 | h_5 | h_6 | h_7 | h_8 | h_9 =>
    exact h.endsWithMask_of_mopMember rfl fun w n hw => by simp [maskBit, maskResult, hw]
  case h_10 a _ => -- MSHL1
    refine h.endsWithMask_of_shiftMember rfl (shift_source_lt hformed) ?place fun n => ?bit
    case place => grind
    case bit => cases n <;> simp [maskBit, maskResult]
  case h_11 a _ => -- MSHR1
    refine h.endsWithMask_of_shiftMember rfl (shift_source_lt hformed) ?place fun n => ?bit
    case place => rw [loneMember_e]; grind
    case bit => by_cases hn : n + 1 < e.vl <;> simp [maskBit, maskResult, hn]
  case h_12 => -- MFROMX
    refine h.endsWithMask_of_mopMember rfl fun w n _ => ?_
    by_cases hn : n < 64
    · simp [maskBit, maskResult, hn, MemberEnv.cap, loneMember]
    · rw [BitVec.getLsbD_of_ge _ _ (by omega)]
      simp [maskBit, maskResult, hn]

end Sys2Proof.Machine

open Sys2Proof Sys2Proof.Machine

/-- Settles O56: each operation runs as one member that writes its mask bit by bit from its sources as they were before the word, and
then cuts the mask off at vl. -/
theorem maskOperations : Obligations.MaskOperations := by
  unfold Obligations.MaskOperations
  intro s s1 c slot g e rest i caps d b0 h hr
  obtain ⟨t, g', hends, hothers, hbits⟩ := h.endsWithMask_maskBit hr
  refine ⟨t, g', hends, hothers, fun j v hv => by rw [hbits, maskBit_eq hv], ?_⟩
  refine Group.allFalse_iff fun j hj => ?_
  obtain ⟨-, -, -, -, -, -, -, hvec⟩ := hends
  have hvl : e.vl ≤ j := h.whole.2.1.trans (hvec ▸ hj)
  rw [hbits, decide_eq_false (by omega), Bool.false_and]

end
